-- ==== Sys2Proof/Word.lean ====
section
/-! DEFINITION. The word types of the model and the sparse table that holds every indexed piece of state. -/

namespace Sys2Proof

/-- A 32-bit register word (R51). -/
abbrev Word := BitVec 32

/-- One byte of a memory, a payload or a frame. -/
abbrev Byte := BitVec 8

/-- A sparse table: key and value pairs with keys strictly rising. What an absent key stands for is said where the
table is used. The memories of the model have the same shape as `Host.Cell` lists. -/
abbrev Tab (α : Type) := List (Nat × α)

end Sys2Proof
end

