-- ==== Sys2Proof/Types.lean ====
section
/-! DEFINITION. The operand types of the commands. -/

namespace Sys2Proof

/-- A requester of registers (R55): each has its own read latch, staging word and banked copies. The DMA engine
is one requester, whatever the channel. -/
inductive Req where
  | host
  | trestle (core : Fin 8)
  | supA
  | supB
  | dma (channel : Fin 16)
  deriving DecidableEq, Repr

/-- What a fabric access names (R240, R241): an address, or a handle and an offset in its buffer. -/
inductive DsTarget where
  | addr (a : Nat)
  | handle (h : Nat) (off : Nat)
  deriving DecidableEq, Repr

/-- One Deep Store access (R225, R226, R232): who makes it, where, in which view, and the bytes of a write.
`detail` is the requester detail of R872. -/
structure DsReq where
  tag : Nat
  detail : Nat
  target : DsTarget
  wide : Bool
  write : Bool
  size : Nat
  data : List Byte
  deriving DecidableEq, Repr

/-- The header of a supervisor request (R691): the mailbox that holds it, its SEQ and its FLAGS. -/
structure Hdr where
  mb : Fin 8
  seq : BitVec 16
  flags : BitVec 16
  deriving DecidableEq, Repr

/-- A stream data packet as it arrives on a connection (R146 to R148): its stream ID, whether its CRC is correct, whether
it begins and whether it ends a line, and its payload: the bytes of the packed line from byte `first` on (R166). -/
structure StreamPkt where
  id : Nat
  crcOk : Bool
  begins : Bool
  ends : Bool
  first : Nat
  payload : List Byte
  deriving DecidableEq, Repr

/-- What the camera answered on one physical connection in discovery (R150, R152): the connection, its device
connection ID, the camera's connection count, and the highest speed (SPEED code) its default configuration offers. -/
structure CxpAnswer where
  conn : Fin 4
  devId : Fin 4
  count : Nat
  speed : Nat
  deriving DecidableEq, Repr

/-- What the self-tests of a boot found (R934 to R938): failed supervisor SRAMs, failed banks, pixel cores and
sensor ports. -/
structure BootTests where
  supAFailed : Bool
  supBFailed : Bool
  banks : List Nat
  cores : List Nat
  ports : List Nat
  deriving DecidableEq, Repr

/-- An edge at an input pin (R73, R113): when the level changed, and for how many ns the pin then holds it. -/
structure PinEdge where
  t : Nat
  held : Nat
  deriving DecidableEq, Repr

/-- What the host's root port and configuration writes make of the PCIe link (R41): its rate (1 to 4 for 2.5, 5, 8 and
16 GT/s), its lanes, Max Payload and Max Read Request Size, D3hot rather than D0, ASPM L1. -/
structure LinkSettings where
  rate : Nat
  lanes : Nat
  payload : Nat
  readReq : Nat
  d3hot : Bool
  aspmL1 : Bool
  deriving DecidableEq, Repr

end Sys2Proof
end

