-- ==== Sys2Proof/Syntax.lean ====
section
/-! DEFINITION. The commands the block takes, one constructor for each row of spec/opcode_table.json, in its
order (a few rare rows and the rows without operands stand last, for Lean's compiler gives constructors that carry
operands no number above 244). A command that stands for something the block notices by itself (an instant reached, a timeout, an input edge) says
so by being in the queue; `t` is the TS, in ns, at which it happens. -/

namespace Sys2Proof

/-- A command of the block. Each docstring gives the row's mnemonic and the rule of spec/ it names. -/
inductive Instr where
  /-- REGISTER_WRITE (R64): A write to a register with no row of its own stores, sets, clears or ignores its fields according to their access codes. -/
  | registerWrite (req : Req) (off : Nat) (size : Nat) (v : BitVec 64)
  /-- REGISTER_LO_READ (R53): A LO read of a 64-bit register returns LO and copies the live HI word into the requester's read latch. -/
  | registerLoRead (req : Req) (off : Nat)
  /-- REGISTER_HI_READ (R54): A HI read returns the latched word and clears the tag when the tag matches, and otherwise returns the live HI word. -/
  | registerHiRead (req : Req) (off : Nat)
  /-- REGISTER_LO_WRITE (R57): A LO write to a 64-bit RW register is held in the requester's staging word, tagged with the register. -/
  | registerLoWrite (req : Req) (off : Nat) (v : Word)
  /-- REGISTER_HI_WRITE (R57): A HI write commits the staged LO word and the HI word in the same cycle. -/
  | registerHiWrite (req : Req) (off : Nat) (v : Word)
  /-- OP_WRITE_REFUSED (R18): A write to an operation-starting WO register that holds a reserved encoding performs nothing and reports the write as refused. -/
  | opWriteRefused (req : Req) (off : Nat) (v : Word)
  /-- HOST_BAR2_READ (R45): A host BAR2 read is split into wide and narrow Deep Store reads under owner tag host. -/
  | hostBar2Read (addr : Nat) (len : Nat)
  /-- HOST_BAR2_WRITE (R46): A host BAR2 write is split into wide and narrow Deep Store writes under owner tag host, with writes below 8 B done as partial writes. -/
  | hostBar2Write (addr : Nat) (data : List Byte)
  /-- DEEP_STORE_ACCESS (R231): A Deep Store access passes the ordered checks and is performed at its bank, or receives an error response. -/
  | deepStoreAccess (acc : DsReq)
  /-- FABRIC_TIMEOUT (R68): A local fabric request without a response within 100 µs receives TIMEOUT. -/
  | fabricTimeout (acc : DsReq)
  /-- ENCODER_EDGE (R76): An accepted A or B edge of an encoder counts under its decode mode and, on the master, moves LX. -/
  | encoderEdge (enc : Fin 4) (a : Bool) (b : Bool) (e : PinEdge)
  /-- ENCODER_Z_EDGE (R85): An accepted rising Z edge of the master latches LX into LT_Z_LATCH. -/
  | encoderZEdge (enc : Fin 4) (level : Bool) (e : PinEdge)
  /-- MASTER_FAILOVER (R86): After 4 illegal transitions in 1 ms, or a silent master, the backup becomes master without a step in LX. -/
  | masterFailover (t : Nat)
  /-- PRESS_STOPPED (R97): |v| stays below STOP_SPEED for STOP_HOLD, so the press state becomes STOPPED. -/
  | pressStopped (t : Nat)
  /-- REPEAT_BOUNDARY (R108): LX reaches the pending boundary while not behind: the repeat counter increments, EV_163 pulses and the pending boundary advances. -/
  | repeatBoundary (t : Nat)
  /-- INSTANT_COMMIT (R95): The computed instant of an LX target is committed once it lies 200 ns ahead of TS. -/
  | instantCommit (entry : Fin 2048) (t : Nat)
  /-- CALENDAR_LX_FIRING (R125): An LX occurrence of a calendar entry fires at its committed instant and performs its action. -/
  | calendarLxFiring (entry : Fin 2048) (t : Nat)
  /-- CALENDAR_TS_FIRING (R1012): A TS occurrence of a TS or HYBRID entry fires at its instant, with past grid points collapsed to the latest. -/
  | calendarTsFiring (entry : Fin 2048) (t : Nat)
  /-- DEFERRED_FIRING (R139): A GATE DEFER occurrence fires at the first instant at which the mains phase equals GATE_START. -/
  | deferredFiring (entry : Fin 2048) (t : Nat)
  /-- PULSE_END (R132): The trailing edge of a STROBE PULSE drives the output inactive at the end of the width. -/
  | pulseEnd (output : Fin 16) (t : Nat)
  /-- MAINS_EDGE (R116): A filtered MAINS_SENSE edge is accepted or ignored and updates the phase and period estimate. -/
  | mainsEdge (level : Bool) (e : PinEdge)
  /-- MAINS_DISTURBED_CYCLE (R119): A period with no accepted edge is a disturbed cycle and the phase runs on in holdover. -/
  | mainsDisturbedCycle (t : Nat)
  /-- STREAM_PACKET (R148): A stream data packet is accepted with a correct CRC, or is discarded and counted. -/
  | streamPacket (port : Fin 6) (conn : Fin 4) (pkt : StreamPkt) (t : Nat)
  /-- FIFO_LINE_WRITE (R205): A line leaves the stream FIFO for its slot once a slot is acquired and bucket tokens allow. -/
  | fifoLineWrite (stream : Fin 24)
  /-- STREAM_DRAINED (R211): The FIFO of a DRAINING stream empties and the stream becomes STOPPED. -/
  | streamDrained (stream : Fin 24)
  /-- TRIGGER_ENTRY_TIMEOUT (R190): A trigger queue entry whose line has not begun within LINE_TIMEOUT is recorded as a missing CRC_LOST line. -/
  | triggerEntryTimeout (stream : Fin 24) (t : Nat)
  /-- CONNECTION_LOST (R153): A connection loses lock for 10 µs or sees over 64 code errors in 100 µs and is lost, taking the port to DEGRADED or DOWN. -/
  | connectionLost (port : Fin 6) (conn : Fin 4) (t : Nat)
  /-- RECONNECT_ATTEMPT (R156): With AUTO_RECONNECT, a lost connection is rediscovered every 100 ms until it answers. -/
  | reconnectAttempt (port : Fin 6) (conn : Fin 4) (answers : Bool) (t : Nat)
  /-- DISCOVERY_DONE (R152): Port discovery completes, writes the connection count and speed to the camera and sets the link state. -/
  | discoveryDone (port : Fin 6) (answers : List CxpAnswer) (t : Nat)
  /-- CONTROL_ACKNOWLEDGE (R158): A camera control acknowledge is returned unchanged to the pending camera-control command. -/
  | controlAcknowledge (port : Fin 6) (ack : Word) (data : List Byte)
  /-- CTRL_TIMEOUT (R159): A control transaction without acknowledge within CTRL_TIMEOUT completes with FAULT. -/
  | ctrlTimeout (port : Fin 6) (t : Nat)
  /-- CAMERA_EVENT_PACKET (R160): A camera event packet is acknowledged and posted to the notice queue. -/
  | cameraEventPacket (port : Fin 6) (data : List Byte)
  /-- COLUMN_TABLE_SWITCH (R183): The pending column-table bank becomes active between two lines at the upload's switch point. -/
  | columnTableSwitch (port : Fin 6)
  /-- DS_SEM_SIGNAL (R250): DS_SEM_OP SIGNAL adds units to a semaphore and serves its queue. -/
  | dsSemSignal (req : Req) (sem : Fin 4096) (n : BitVec 16)
  /-- DS_SEM_TRY (R250): DS_SEM_OP TRY takes units at once or fails without change. -/
  | dsSemTry (req : Req) (sem : Fin 4096) (n : BitVec 16)
  /-- DS_SEM_READ (R250): DS_SEM_OP READ returns the semaphore value. -/
  | dsSemRead (req : Req) (sem : Fin 4096)
  /-- DS_SEM_WAIT_ARM (R257): DS_SEM_OP WAIT_ARM enqueues a wait on behalf of the requester. -/
  | dsSemWaitArm (req : Req) (sem : Fin 4096) (n : BitVec 16)
  /-- DS_SEM_WAIT_CANCEL (R259): DS_SEM_OP WAIT_CANCEL removes the requester's unserved armed wait. -/
  | dsSemWaitCancel (req : Req)
  /-- SEM_WAIT_GRANT (R258): An armed wait is served: units are taken, GRANTED is set and the semaphore-grant interrupt source is raised. -/
  | semWaitGrant (sem : Fin 4096)
  /-- PROD_TRY (R319): BK_r_OP PROD_TRY acquires the slot at HEAD for the producer at once or fails with NOT_READY. -/
  | prodTry (req : Req) (ring : Fin 128) (forDma : Bool)
  /-- CONS_TRY (R319): BK_r_OP CONS_TRY acquires a consumer window on a named counter at once or fails. -/
  | consTry (req : Req) (ring : Fin 128) (forDma : Bool) (counter : BitVec 16)
  /-- COMMIT (R314): BK_r_OP COMMIT commits a FILLING slot with FIRST and LAST flags and removes the producer window. -/
  | commitSlot (req : Req) (ring : Fin 128) (forDma : Bool) (counter : BitVec 16) (first : Bool) (last : Bool)
  /-- RELEASE (R311): BK_r_OP RELEASE removes a consumer window and reduces the slot's RC. -/
  | releaseSlot (req : Req) (ring : Fin 128) (forDma : Bool) (counter : BitVec 16)
  /-- PROD_ARM (R320): BK_r_OP PROD_ARM queues a producer acquire on behalf of the requester. -/
  | prodArm (req : Req) (ring : Fin 128) (forDma : Bool)
  /-- CONS_ARM (R320): BK_r_OP CONS_ARM queues a consumer acquire on a named counter. -/
  | consArm (req : Req) (ring : Fin 128) (forDma : Bool) (counter : BitVec 16)
  /-- ARM_CANCEL (R1008): BK_r_OP ARM_CANCEL removes the requester's armed acquire on the ring. -/
  | armCancel (req : Req) (ring : Fin 128)
  /-- RING_ACQUIRE_GRANT (R320): A waiting or armed acquire is served, a window is created, GRANTED is set and the ring-grant interrupt source is raised. -/
  | ringAcquireGrant (ring : Fin 128)
  /-- BUCKET_REFILL (R351): At every TS multiple of 100 ns RATE units are added to each bucket, up to DEPTH. -/
  | bucketRefill (t : Nat)
  /-- TILEOP_DISPATCH (R505): The scheduler dispatches a tile-op into its core's issue queue and takes a scoreboard entry. -/
  | tileopDispatch (group : Fin 16) (member : Fin 64)
  /-- NOP_TILE_OP (R484): A NOP tile-op issues and completes without an operation. -/
  | nopTileOp (op : Nat)
  /-- LOAD (R344): A LOAD tile-op moves data from the Deep Store into the near store through the stream engine. -/
  | loadOp (op : Nat)
  /-- STORE (R339): A STORE tile-op writes near-store data to a buffer or ring slot. -/
  | storeOp (op : Nat)
  /-- GATHER (R340): A GATHER tile-op moves indexed elements into the near store through the tile cache. -/
  | gather (op : Nat)
  /-- CONV (R386): A CONV tile-op runs a direct or depthwise convolution with optional epilogue. -/
  | conv (op : Nat)
  /-- MATMUL (R392): A MATMUL tile-op computes D = A × B on the matrix engine. -/
  | matmul (op : Nat)
  /-- POOL_MAX (R399): A POOL_MAX tile-op takes the largest input of each window. -/
  | poolMax (op : Nat)
  /-- POOL_AVG (R400): A POOL_AVG tile-op averages each window over its positions inside the input. -/
  | poolAvg (op : Nat)
  /-- VEC (R415): A VEC tile-op performs one vector operation at 64 lanes per cycle. -/
  | vec (op : Nat)
  /-- SFU (R440): An SFU tile-op evaluates a special function on each element with pre- and post-scaling. -/
  | sfu (op : Nat)
  /-- REDUCE (R565): A REDUCE tile-op writes or adds a reduction into a destination, allocating reduction lines for add-to-line. -/
  | reduce (op : Nat)
  /-- SMAX_PASS1 (R462): Soft maximum pass 1 writes each part's maximum and count to the row statistics. -/
  | smaxPass1 (op : Nat)
  /-- SMAX_PASS2 (R463): Soft maximum pass 2 forms the exponentials and writes each part's sum. -/
  | smaxPass2 (op : Nat)
  /-- SMAX_PASS3 (R465): Soft maximum pass 3 scales each exponential by the reciprocal of the row sum. -/
  | smaxPass3 (op : Nat)
  /-- NORM_STATS (R470): A NORM_STATS tile-op adds shifted counts, sums and squares into statistics records. -/
  | normStats (op : Nat)
  /-- NORM_APPLY (R475): A NORM_APPLY tile-op normalizes each element from the reduced statistics. -/
  | normApply (op : Nat)
  /-- BARRIER (R525): A BARRIER arrives at its context and completes on every participant when all have arrived. -/
  | barrier (op : Nat)
  /-- SEM_WAIT (R512): A SEM_WAIT ordering point waits on its semaphore and completes when served. -/
  | semWait (op : Nat)
  /-- SEM_SIGNAL (R512): A SEM_SIGNAL waits for earlier tile-ops of its core and then signals its semaphore. -/
  | semSignal (op : Nat)
  /-- FENCE_R (R582): FENCE.R completes when earlier reads have returned and invalidates clean non-keep tile-cache lines. -/
  | fenceR (op : Nat)
  /-- FENCE_W (R582): FENCE.W completes when earlier writes, write-backs and reduction flushes are acknowledged. -/
  | fenceW (op : Nat)
  /-- FENCE_SC (R582): FENCE.SC does both fences and blocks later accesses until it completes. -/
  | fenceSc (op : Nat)
  /-- EPOCH_CONFIRM (R532): EPOCH_CONFIRM makes its epoch CONFIRMED and commits its SHADOW slots. -/
  | epochConfirm (op : Nat)
  /-- COLLECTIVE (R571): A COLLECTIVE tile-op adds its contribution into far-cache reduction lines that are sent as the station's contribution. -/
  | collective (op : Nat)
  /-- TILEOP_COMPLETE (R510): A tile-op completes once its unit finishes and its writes are acknowledged, and signals SIG_SEM. -/
  | tileopComplete (op : Nat)
  /-- TASK_START (R527): A task starts when the previous task has passed its boundary and the repeat boundary has occurred. -/
  | taskStart (group : Fin 16) (t : Nat)
  /-- TASK_BOUNDARY (R528): After FINAL programs complete and tile-ops drain, the boundary cancels epochs, releases windows, resets rings, fences and writes the task record. -/
  | taskBoundary (group : Fin 16) (t : Nat)
  /-- GLB_EPOCH_CANCEL (R533): A write with GO to GLB_EPOCH_CANCEL cancels an epoch of a core set, or every unconfirmed one. -/
  | glbEpochCancel (req : Req) (v : Word)
  /-- CORE_HANG (R891): A compute tile-op issued for 50 ms without completing logs HANG and forces a disable of its core. -/
  | coreHang (op : Nat) (t : Nat)
  /-- TC_PREFETCH (R576): A tile-cache PREFETCH fills absent lines in range with the hint given, skipping lines that fail the check. -/
  | tcPrefetch (req : Req) (hint : Fin 3)
  /-- TC_FLUSH (R574): A tile-cache FLUSH writes back dirty bytes and reduction lines in range. -/
  | tcFlush (req : Req)
  /-- TC_INVALIDATE (R575): A tile-cache INVALIDATE drops lines in range and discards dirty bytes. -/
  | tcInvalidate (req : Req)
  /-- TC_FLUSH_INVALIDATE (R574): A tile-cache FLUSH_INVALIDATE flushes and then drops lines in range. -/
  | tcFlushInvalidate (req : Req)
  /-- FC_PREFETCH (R574): A far-cache PREFETCH fills absent far lines in range. -/
  | fcPrefetch (req : Req) (hint : Fin 3)
  /-- FC_FLUSH (R575): A far-cache FLUSH sends reduction lines in range. -/
  | fcFlush (req : Req)
  /-- FC_INVALIDATE (R575): A far-cache INVALIDATE drops far data lines in range. -/
  | fcInvalidate (req : Req)
  /-- FC_FLUSH_INVALIDATE (R574): A far-cache FLUSH_INVALIDATE flushes and then drops far lines in range. -/
  | fcFlushInvalidate (req : Req)
  /-- CACHE_OP_DONE (R577): A range operation completes, sets DONE and raises the cache-operation interrupt source. -/
  | cacheOpDone (req : Req) (far : Bool)
  /-- PIN_PRESSURE_WINDOW (R552): At the end of each 1 ms window PIN_PRESSURE status is set from demotions in that window. -/
  | pinPressureWindow (t : Nat)
  /-- FAR_ACCESS (R557): An access to another node's window is served from the far cache or issues a far read or posted write over Xanik. -/
  | farAccess (acc : DsReq)
  /-- DMA_ARM (R599): ARM in DMA_n_CTRL arms the shadow set, which moves to the active set at once or at completion. -/
  | dmaArm (req : Req) (ch : Fin 16)
  /-- DMA_STOP_AT_BOUNDARY (R632): STOP_AT_BOUNDARY lets the active set complete and loads no shadow set. -/
  | dmaStopAtBoundary (req : Req) (ch : Fin 16)
  /-- DMA_DISABLE (R633): DISABLE stops issue within 20 ns and the channel becomes DISABLING. -/
  | dmaDisable (req : Req) (ch : Fin 16)
  /-- DMA_REQ_SW (R618): A write of 1 to bit j of DMA_REQ_SW makes one request on request line j. -/
  | dmaReqSw (req : Req) (lines : Word)
  /-- DMA_SERVICE_UNIT (R596): The engine starts one burst of the lowest-numbered pending channel. -/
  | dmaServiceUnit (hostData : List Byte)
  /-- DMA_BURST_ANSWERED (R630): With EV_MODE each burst, the completion event pulses once all writes of a burst are answered. -/
  | dmaBurstAnswered (ch : Fin 16)
  /-- DMA_SET_COMPLETE (R629): An active set completes: DONE, CRC, pulse and interrupt, then the shadow set moves in if armed. -/
  | dmaSetComplete (ch : Fin 16)
  /-- DMA_DRAINED (R633): A DISABLING channel's outstanding accesses all answer and it becomes IDLE with DISABLED set. -/
  | dmaDrained (ch : Fin 16)
  /-- DMA_ERROR_STOP (R635): An error response to a channel access stops issue, drains and sets ERR with ERR_CODE. -/
  | dmaErrorStop (ch : Fin 16) (code : Fin 9) (addr : BitVec 64)
  /-- TRESTLE_INSTRUCTION (R641): A Trestle core executes one RISC-V instruction of the implemented subset. -/
  | trestleInstruction (core : Fin 8)
  /-- TIC_CLAIM (R659): A claim-register read returns and claims the highest-priority enabled pending source. -/
  | ticClaim (core : Fin 8) (sMode : Bool)
  /-- TIC_COMPLETE (R660): A write of a source number to a claim register completes the claim, re-enabling pending. -/
  | ticComplete (core : Fin 8) (source : Fin 256)
  /-- TR_HALT_ACK (R668): A write to TR_HALT_ACK acknowledges the halt request so that the following WFI halts the core. -/
  | trHaltAck (core : Fin 8)
  /-- TR_EV_PULSE (R673): A write of k to TR_EV_PULSE pulses EV_144 + k if the writing core owns it, otherwise counts a denial. -/
  | trEvPulse (core : Fin 8) (k : Fin 16)
  /-- TIMER_INTERRUPT (R654): Time reaches MTIMECMP or stimecmp and the timer interrupt becomes pending. -/
  | timerInterrupt (core : Fin 8) (sMode : Bool) (t : Nat)
  /-- HALT_TIMEOUT (R670): A core not HALTED when the halt timeout expires is forced to stop. -/
  | haltTimeout (core : Fin 8) (t : Nat)
  /-- DOORBELL (R692): GO written to MB_n_DOORBELL submits the request buffer and makes the mailbox PENDING. -/
  | doorbell (req : Req) (mb : Fin 8)
  /-- LONG_COMMAND_COMPLETE (R703): A long command completes, writes MB_n_NOTE and posts a COMPLETION notice. -/
  | longCommandComplete (cmd : Nat)
  /-- IRQ_NQ_TAIL (R708): A write to IRQ_NQ_TAIL frees notice entries or is ignored with TAIL_BAD. -/
  | irqNqTail (req : Req) (v : Word)
  /-- IRQ_EOI (R721): A write of s to IRQ_EOI re-arms source s and sends a message at once if it is asserted. -/
  | irqEoi (req : Req) (source : Fin 64)
  /-- MSIX_UNMASK (R722): Unmasking an MSI-X vector sends a message held pending in the PBA. -/
  | msixUnmask (vector : Fin 64)
  /-- SUP_HEARTBEAT (R678): Every 1 ms the active supervisor increments GLB_SUP_HB and sends a heartbeat to the standby. -/
  | supHeartbeat (standbyAnswers : Bool) (t : Nat)
  /-- HEARTBEAT_TIMEOUT (R680): The standby declares the active supervisor failed after 3 ms without a heartbeat. -/
  | heartbeatTimeout (t : Nat)
  /-- SUP_FATAL_FAULT (R680): The active supervisor signals a fatal fault and the standby declares it failed at once. -/
  | supFatalFault (t : Nat)
  /-- SUP_TAKEOVER (R682): The standby fences the failed supervisor, becomes active, settles committed and busy commands and posts SUP_CHANGE. -/
  | supTakeover (t : Nat)
  /-- HANDOVER_COMPLETE (R686): A planned hand-over completes, sets HANDOVER and posts a SUP_CHANGE notice. -/
  | handoverComplete (t : Nat)
  /-- I2C_WRITE (R711): An I²C write sets the pointer and writes 32-bit words into the MB_6 or GLB pointer space. -/
  | i2cWrite (data : List Byte)
  /-- I2C_READ (R711): An I²C read returns words from the pointer space, each captured atomically. -/
  | i2cRead (pointer : BitVec 16) (len : Nat)
  /-- UART_FRAME (R715): A good UART request frame fills MB_6 and rings its doorbell, or is discarded. -/
  | uartFrame (data : List Byte) (gap : Bool)
  /-- NOP (R733): Command NOP echoes its payload. -/
  | nopCmd (h : Hdr) (p : List Byte)
  /-- GET_INFO (R733): Command GET_INFO returns identity, versions, limp state and repair resources. -/
  | getInfo (h : Hdr) (p : List Byte)
  /-- SYS_RESET (R734): Command SYS_RESET performs a system-scope reset 1 ms after DONE. -/
  | sysReset (h : Hdr) (p : List Byte)
  /-- TIME_MAP (R735): Command TIME_MAP returns LX, TS, repeat, velocity and press state sampled together. -/
  | timeMap (h : Hdr) (p : List Byte)
  /-- PORT_SET (R738): Command PORT_SET changes port settings, restarting discovery or disabling the port. -/
  | portSet (h : Hdr) (p : List Byte)
  /-- STREAM_SET (R737): Command STREAM_SET changes stream settings by setting entries. -/
  | streamSet (h : Hdr) (p : List Byte)
  /-- STREAM_START (R171): Command STREAM_START allocates the FIFO, resets the ring and starts the stream. -/
  | streamStart (h : Hdr) (p : List Byte)
  /-- STREAM_STOP (R209): Command STREAM_STOP stops a stream at the next repeat or at once. -/
  | streamStop (h : Hdr) (p : List Byte)
  /-- COL_UPLOAD (R182): Command COL_UPLOAD copies column entries into the pending bank with a switch point. -/
  | colUpload (h : Hdr) (p : List Byte)
  /-- CAM_READ (R158): Command CAM_READ reads camera registers through a forwarded control packet. -/
  | camRead (h : Hdr) (p : List Byte)
  /-- CAM_WRITE (R158): Command CAM_WRITE writes camera registers through a forwarded control packet. -/
  | camWrite (h : Hdr) (p : List Byte)
  /-- MODEL_LOAD (R501): Command MODEL_LOAD checks a model image, allocates its buffers, rings and semaphores and loads it. -/
  | modelLoad (h : Hdr) (p : List Byte)
  /-- MODEL_UNLOAD (R741): Command MODEL_UNLOAD removes a loaded image that no stream group uses. -/
  | modelUnload (h : Hdr) (p : List Byte)
  /-- MODEL_BIND_EXT (R500): Command MODEL_BIND_EXT binds an EXTERNAL handle or ring slot of an image. -/
  | modelBindExt (h : Hdr) (p : List Byte)
  /-- CORESET_FORM (R502): Command CORESET_FORM forms a core set from logical cores. -/
  | coresetForm (h : Hdr) (p : List Byte)
  /-- CORESET_DISSOLVE (R741): Command CORESET_DISSOLVE dissolves a core set with no bound group. -/
  | coresetDissolve (h : Hdr) (p : List Byte)
  /-- GROUP_BIND (R503): Command GROUP_BIND binds a stream group to a core set and image and allocates its journal. -/
  | groupBind (h : Hdr) (p : List Byte)
  /-- GROUP_START (R741): Command GROUP_START lets the group's first task begin at the next repeat boundary. -/
  | groupStart (h : Hdr) (p : List Byte)
  /-- GROUP_STOP (R743): Command GROUP_STOP stops a group at task end or by abort. -/
  | groupStop (h : Hdr) (p : List Byte)
  /-- GROUP_SWAP (R504): Command GROUP_SWAP makes an image pending until the next task boundary. -/
  | groupSwap (h : Hdr) (p : List Byte)
  /-- GROUP_UNBIND (R741): Command GROUP_UNBIND unbinds a stopped group. -/
  | groupUnbind (h : Hdr) (p : List Byte)
  /-- TASK_ABORT (R741): Command TASK_ABORT aborts the running task with cause 5. -/
  | taskAbort (h : Hdr) (p : List Byte)
  /-- EPOCH_CANCEL (R741): Command EPOCH_CANCEL cancels an epoch as a write to GLB_EPOCH_CANCEL does. -/
  | epochCancel (h : Hdr) (p : List Byte)
  /-- HANDLE_ALLOC (R236): Command HANDLE_ALLOC allocates a buffer and returns its handle and base. -/
  | handleAlloc (h : Hdr) (p : List Byte)
  /-- HANDLE_FREE (R238): Command HANDLE_FREE frees a buffer and advances its generation. -/
  | handleFree (h : Hdr) (p : List Byte)
  /-- HANDLE_QUERY (R744): Command HANDLE_QUERY returns a handle table entry. -/
  | handleQuery (h : Hdr) (p : List Byte)
  /-- HANDLE_LOCK (R245): Command HANDLE_LOCK locks or unlocks a buffer for a tag. -/
  | handleLock (h : Hdr) (p : List Byte)
  /-- HANDLE_SET (R744): Command HANDLE_SET changes a buffer's rights and owners. -/
  | handleSet (h : Hdr) (p : List Byte)
  /-- COMPACT (R246): Command COMPACT relocates movable buffers to create a free range. -/
  | compact (h : Hdr) (p : List Byte)
  /-- SEM_SET (R744): Command SEM_SET sets semaphore values and tracking. -/
  | semSet (h : Hdr) (p : List Byte)
  /-- SEM_QUERY (R744): Command SEM_QUERY returns a semaphore's value, waiters and holders. -/
  | semQuery (h : Hdr) (p : List Byte)
  /-- ARRIVAL_BIND (R263): Command ARRIVAL_BIND binds an arrival counter to a handle. -/
  | arrivalBind (h : Hdr) (p : List Byte)
  /-- ARRIVAL_UNBIND (R267): Command ARRIVAL_UNBIND unbinds an arrival counter and returns its count. -/
  | arrivalUnbind (h : Hdr) (p : List Byte)
  /-- RING_DECLARE (R295): Command RING_DECLARE declares a basket ring in a ring buffer. -/
  | ringDeclare (h : Hdr) (p : List Byte)
  /-- RING_UNDECLARE (R297): Command RING_UNDECLARE undeclares an idle ring. -/
  | ringUndeclare (h : Hdr) (p : List Byte)
  /-- RING_RESET (R333): Command RING_RESET returns every slot to EMPTY and drops windows and armed acquires. -/
  | ringReset (h : Hdr) (p : List Byte)
  /-- FC_SIZE (R556): Command FC_SIZE flushes, invalidates and reallocates the far cache. -/
  | fcSize (h : Hdr) (p : List Byte)
  /-- BWR_SET (R350): Command BWR_SET sets a traffic class's bucket. -/
  | bwrSet (h : Hdr) (p : List Byte)
  /-- LT_SET (R1010): Command LT_SET changes line-time settings together in one LT cycle. -/
  | ltSet (h : Hdr) (p : List Byte)
  /-- CAL_WRITE (R127): Command CAL_WRITE writes and arms calendar entries and reports late arming. -/
  | calWrite (h : Hdr) (p : List Byte)
  /-- CAL_READ (R745): Command CAL_READ returns a calendar entry and its next occurrence. -/
  | calRead (h : Hdr) (p : List Byte)
  /-- CAL_DISABLE (R745): Command CAL_DISABLE disables a range of calendar entries. -/
  | calDisable (h : Hdr) (p : List Byte)
  /-- PHASE_ADJUST (R749): Command PHASE_ADJUST moves the pending repeat boundary by DELTA. -/
  | phaseAdjust (h : Hdr) (p : List Byte)
  /-- XK_CONFIG (R828): Command XK_CONFIG sets the node ID, eligibility, cyclic prefix and cycle parameters. -/
  | xkConfig (h : Hdr) (p : List Byte)
  /-- XK_JOIN (R851): Command XK_JOIN puts the node in LISTEN to join the segment. -/
  | xkJoin (h : Hdr) (p : List Byte)
  /-- XK_LEAVE (R855): Command XK_LEAVE sends LEAVE in the node's slot and leaves at the end of the cycle. -/
  | xkLeave (h : Hdr) (p : List Byte)
  /-- XK_SOUND (R868): Command XK_SOUND sends a SOUND frame to build tone maps. -/
  | xkSound (h : Hdr) (p : List Byte)
  /-- XK_RX_SET (R799): Command XK_RX_SET sets AGC, gain, clip blanking, LMS step and thresholds. -/
  | xkRxSet (h : Hdr) (p : List Byte)
  /-- XK_STATS (R750): Command XK_STATS returns link counts for a peer. -/
  | xkStats (h : Hdr) (p : List Byte)
  /-- XK_RELAY (R751): Command XK_RELAY places a request in MB_7 of a remote node. -/
  | xkRelay (h : Hdr) (p : List Byte)
  /-- XK_MODEL_BCAST (R864): Command XK_MODEL_BCAST broadcasts a model image to other nodes. -/
  | xkModelBcast (h : Hdr) (p : List Byte)
  /-- SCRUB_SET (R285): Command SCRUB_SET sets the scrub period. -/
  | scrubSet (h : Hdr) (p : List Byte)
  /-- CORE_DISABLE (R428): Command CORE_DISABLE disables a pixel core gracefully or by force, with an optional replacement. -/
  | coreDisable (h : Hdr) (p : List Byte)
  /-- CORE_RELEASE (R436): Command CORE_RELEASE releases a QUARANTINED core to OFF or IDLE. -/
  | coreRelease (h : Hdr) (p : List Byte)
  /-- CORE_MAP (R752): Command CORE_MAP maps an unmapped logical core to an IDLE physical core. -/
  | coreMap (h : Hdr) (p : List Byte)
  /-- BANK_SPARE (R219): Command BANK_SPARE maps a spare bank in live by copying a logical bank. -/
  | bankSpare (h : Hdr) (p : List Byte)
  /-- BANK_TEST (R752): Command BANK_TEST writes and reads back every line of a mapped-out bank. -/
  | bankTest (h : Hdr) (p : List Byte)
  /-- REPAIR_RECORD (R754): Command REPAIR_RECORD writes a new configuration copy with the current maps. -/
  | repairRecord (h : Hdr) (p : List Byte)
  /-- SUP_RELEASE (R685): Command SUP_RELEASE releases the held supervisor to serve as standby. -/
  | supRelease (h : Hdr) (p : List Byte)
  /-- ERR_INJECT (R752): Command ERR_INJECT flips check bits of a stored word. -/
  | errInject (h : Hdr) (p : List Byte)
  /-- DS_GROUP_POWER (R273): Command DS_GROUP_POWER sets bank group power states and AUTOWAKE. -/
  | dsGroupPower (h : Hdr) (p : List Byte)
  /-- CORE_POWER (R755): Command CORE_POWER powers a pixel core on or off. -/
  | corePower (h : Hdr) (p : List Byte)
  /-- PORT_POWER (R755): Command PORT_POWER powers a sensor port domain on or off. -/
  | portPower (h : Hdr) (p : List Byte)
  /-- TRESTLE_POWER (R671): Command TRESTLE_POWER powers a Trestle pair on or off. -/
  | trestlePower (h : Hdr) (p : List Byte)
  /-- XK_POWER (R764): Command XK_POWER powers the Xanik front end on or off. -/
  | xkPower (h : Hdr) (p : List Byte)
  /-- POCXP_SET (R164): Command POCXP_SET drives the PoCXP enable outputs of a port. -/
  | pocxpSet (h : Hdr) (p : List Byte)
  /-- THERMAL_SET (R913): Command THERMAL_SET sets the warning and throttle thresholds. -/
  | thermalSet (h : Hdr) (p : List Byte)
  /-- POWER_STATUS (R755): Command POWER_STATUS returns temperature, voltage, power and throttle level. -/
  | powerStatus (h : Hdr) (p : List Byte)
  /-- CFG_GET (R758): Command CFG_GET returns a configuration item in force or staged. -/
  | cfgGet (h : Hdr) (p : List Byte)
  /-- CFG_SET (R758): Command CFG_SET stages a configuration item. -/
  | cfgSet (h : Hdr) (p : List Byte)
  /-- CFG_COMMIT (R946): Command CFG_COMMIT writes a new configuration copy in the ordered write steps. -/
  | cfgCommit (h : Hdr) (p : List Byte)
  /-- CFG_DISCARD (R756): Command CFG_DISCARD discards staged items. -/
  | cfgDiscard (h : Hdr) (p : List Byte)
  /-- FW_STAGE (R933): Command FW_STAGE verifies a firmware image and writes it to the inactive slot. -/
  | fwStage (h : Hdr) (p : List Byte)
  /-- FW_HANDOVER (R686): Command FW_HANDOVER starts a planned hand-over onto staged firmware. -/
  | fwHandover (h : Hdr) (p : List Byte)
  /-- TR_BOOT (R665): Command TR_BOOT checks a Trestle image, writes boot information and releases cores. -/
  | trBoot (h : Hdr) (p : List Byte)
  /-- TR_HALT (R667): Command TR_HALT requests a halt of cores or forces them to stop. -/
  | trHalt (h : Hdr) (p : List Byte)
  /-- TR_EV_OWNER (R673): Command TR_EV_OWNER changes the owner of a Trestle software event. -/
  | trEvOwner (h : Hdr) (p : List Byte)
  /-- DETECTION (R795): An RSSI above DETECT_THRESH in SEARCH starts ACQUIRE; the last 256 converter codes. -/
  | detection (samples : List (BitVec 12)) (t : Nat)
  /-- QUALIFICATION (R797): After three qualifying periods and AGC convergence a frame is qualified and the gain frozen; the
  converter codes from 128 samples before the start of ACQUIRE on. -/
  | qualification (samples : List (BitVec 12)) (t : Nat)
  /-- FALSE_DET (R798): No qualification within 12 periods returns the receiver to SEARCH and counts a false detection. -/
  | falseDet (t : Nat)
  /-- LONG_TRAINING_SYNC (R804): The receiver finds the long-training peak, stamps the frame and forms the channel
  estimate, or counts SYNC_FAIL; the converter codes from qualification on. -/
  | longTrainingSync (samples : List (BitVec 12)) (t : Nat)
  /-- HEADER_DECODE (R807): The header symbol is decoded and accepted or refused, and the receiver enters RECEIVE or BUSY;
  the converter codes from the end of the long training on. -/
  | headerDecode (samples : List (BitVec 12)) (t : Nat)
  /-- BODY_DECODE (R809): A frame body is decoded and delivered if its CRC-32C matches; the last converter codes of the
  header symbol, and those from its end on. -/
  | bodyDecode (before samples : List (BitVec 12)) (t : Nat)
  /-- FRAME_END (R808): A BUSY or RECEIVE receiver returns to SEARCH at the frame's computed end. -/
  | frameEnd (t : Nat)
  /-- FRAME_START (R820): The transmitter starts a frame at the requested instant, respecting the gap or deferring behind a reception. -/
  | frameStart (t : Nat)
  /-- TRANSMIT_END (R824): The receiver returns to SEARCH 1 µs after the ramp-down extension ends. -/
  | transmitEnd (t : Nat)
  /-- CYCLE_START (R831): The master starts a cycle at its anchor or time step and sends the beacon. -/
  | cycleStart (t : Nat)
  /-- BEACON (R837): A received beacon records master time and LX and pulses EV_160 and EV_161. -/
  | beacon (src : Fin 16) (payload : List Byte) (stamp : Nat)
  /-- STATUS (R848): A received STATUS frame acknowledges frames and advances RX_NEXT past skipped sequences. -/
  | statusFrame (src : Fin 16) (payload : List Byte)
  /-- JOIN (R852): The master accepts a JOIN and admits the node from the next beacon. -/
  | join (src : Fin 16) (eligible : Bool)
  /-- LEAVE (R855): A received LEAVE removes the node from PRESENT. -/
  | leave (src : Fin 16)
  /-- FAR_REQ (R858): A serving node performs received far read and write entries and answers them. -/
  | farReq (src : Fin 16) (seq : BitVec 12) (payload : List Byte)
  /-- FAR_RSP (R856): A far response completes far reads or writes and installs far-cache fills. -/
  | farRsp (src : Fin 16) (seq : BitVec 12) (payload : List Byte)
  /-- COLL_CONTRIB (R860): The master accepts or refuses a contribution into an allreduce round. -/
  | collContrib (src : Fin 16) (seq : BitVec 12) (payload : List Byte)
  /-- COLL_RESULT (R863): A node in MASK writes the first good result copy to DST and completes its collective. -/
  | collResult (src : Fin 16) (payload : List Byte)
  /-- MODEL_DATA (R865): A recipient stores a received model image fragment. -/
  | modelData (src : Fin 16) (payload : List Byte)
  /-- MODEL_STATUS (R866): The sender takes a recipient's broadcast status and resends missing fragments. -/
  | modelStatus (src : Fin 16) (seq : BitVec 12) (payload : List Byte)
  /-- RELAY_REQ (R867): A target queues a relayed request for MB_7. -/
  | relayReq (src : Fin 16) (seq : BitVec 12) (payload : List Byte)
  /-- RELAY_RSP (R751): A relayed response completes XK_RELAY with the remote status. -/
  | relayRsp (src : Fin 16) (seq : BitVec 12) (payload : List Byte)
  /-- MAP (R870): A received MAP frame is stored as the transmit map for that receiver. -/
  | mapFrame (src : Fin 16) (seq : BitVec 12) (payload : List Byte)
  /-- SOUND (R869): A received SOUND frame makes the node build a receive map and send it back; the converter codes of its
  sounding body. -/
  | soundFrame (src : Fin 16) (samples : List (BitVec 12))
  /-- SLOT_START (R841): In its slot a node sends STATUS, retries and new frames in service order. -/
  | slotStart (t : Nat)
  /-- JOIN_WINDOW (R852): A JOINING node sends JOIN in the join window, retrying with a random delay. -/
  | joinWindow (t : Nat)
  /-- LISTEN_TIMEOUT (R851): The listen period ends without a beacon and an eligible node becomes MASTER. -/
  | listenTimeout (t : Nat)
  /-- JOIN_TIMEOUT (R851): XK_JOIN completes with FAULT DETAIL 2 when no membership is reached within TIMEOUT. -/
  | joinTimeout (t : Nat)
  /-- BEACON_LOSS (R853): No beacon for 3 intervals makes the lowest eligible node the new master. -/
  | beaconLoss (t : Nat)
  /-- FAR_REQUEST_TIMEOUT (R859): A far request without response within 8 cycles completes with TIMEOUT. -/
  | farRequestTimeout (tag : Nat)
  /-- COLL_LOCAL (R863): A node without a result by the end of cycle c′ + 4 writes its own contribution as the result. -/
  | collLocal (key : Nat)
  /-- RELAY_TIMEOUT (R867): A relay without RELAY_RSP within 16 cycles completes with FAULT. -/
  | relayTimeout (node : Fin 16)
  /-- FLT_LOG_SEL (R880): A write to FLT_LOG_SEL copies a log entry into the requester's window. -/
  | fltLogSel (req : Req) (counter : Word)
  /-- FLT_LOG_TAIL (R879): A write to FLT_LOG_TAIL frees log entries or is ignored with TAIL_BAD. -/
  | fltLogTail (req : Req) (v : Word)
  /-- POWER_DOMAIN_TRANSITION_DONE (R905): A switchable domain finishes its transition and accesses waiting on it proceed. -/
  | powerDomainTransitionDone (dom : Fin 96) (t : Nat)
  /-- THERMAL_SAMPLE (R912): Every 100 µs the sensors are read and Tj updated. -/
  | thermalSample (temps : List Int) (t : Nat)
  /-- THROTTLE_STEP (R915): Every 10 ms the throttle level moves up or down by one against THROTTLE_TJ. -/
  | throttleStep (t : Nat)
  /-- VID_STEP (R911): The supervisor moves the VID code by at most one step per 100 µs. -/
  | vidStep (up : Bool) (t : Nat)
  /-- POR_N (R919): POR_N low causes a power-on reset. -/
  | porN (level : Bool) (t : Nat)
  /-- SYS_RST_N (R919): SYS_RST_N low causes a system reset. -/
  | sysRstN (level : Bool) (t : Nat)
  /-- PCIE_PERST_N (R919): PCIE_PERST_N low resets the PCIe endpoint only. -/
  | pciePerstN (level : Bool) (t : Nat)
  /-- TRST_N (R919): TRST_N low resets the JTAG test access port only. -/
  | trstN (level : Bool) (t : Nat)
  /-- POWER_GOOD (R934): At power-good the boot ROM runs and the boot stages follow to READY. -/
  | powerGood (tests : BootTests) (t : Nat)
  /-- BOD_WARN (R926): A rail below its warning threshold for 1 µs starts a warning and logs CODE 0x63. -/
  | bodWarn (rail : Fin 8) (t : Nat)
  /-- BOD_WARN_END (R926): A warning ends when the rail stays above 96 % for 100 µs and deferred flash steps resume. -/
  | bodWarnEnd (rail : Fin 8) (t : Nat)
  /-- BROWN_OUT_RESET (R928): A rail below its reset threshold for 2 µs causes a reset, or for VDD_XK turns the Xanik domain off. -/
  | brownOutReset (rail : Fin 8) (t : Nat)
  /-- REGISTER_READ (R50): A register read of the wrong size or alignment, or a mailbox read beyond a status-only requester's rights, returns 0 and logs a VIOLATION entry. -/
  | registerRead (req : Req) (off : Nat) (size : Nat)
  /-- ERROR_DRAIN_DONE (R635): The last outstanding access of a channel in ERROR_DRAIN receives its response and the channel becomes IDLE. -/
  | errorDrainDone (ch : Fin 16)
  /-- SYNCHRONIZATION_LOSS (R802): The receiver loses synchronization during a frame, releases the frozen gain and returns to SEARCH at gain GAIN. -/
  | synchronizationLoss (t : Nat)
  /-- LINK_TRAINING (R936): After PCIE_PERST_N release or a hot reset the PCIe link trains to L0, BAR0 becomes readable and boot
  stage 0x4 may proceed; with what the host asks of the link, Bus Master Enable, and the function mask of MSI-X (R722). -/
  | linkTraining (link : LinkSettings) (busMaster funcMask : Bool) (t : Nat)
  /-- PCIE_LINK_DOWN (R894): The PCIe link leaving L0 or a hot reset quarantines the host and revokes tag 0x18. -/
  | pcieLinkDown (t : Nat)
  /-- DOMAIN_FAIL (R905): A domain not ON within twice its transition time sets DOMAIN_FAIL. -/
  | domainFail (dom : Fin 96) (t : Nat)
  /-- POWER_ESTIMATE (R909): Every 1 ms the device estimates its power and reports it. -/
  | powerEstimate (mw : Word) (t : Nat)
  /-- BOOT_FAIL (R940): With the minimum service set absent, boot stops and BOOT FAIL n is sent on the UART once per second. -/
  | bootFail (t : Nat)
  /-- EXTEST (R982): JTAG instruction EXTEST selects the boundary scan register to drive pins. -/
  | extest (cells : Nat)
  /-- SAMPLE_PRELOAD (R982): JTAG instruction SAMPLE/PRELOAD samples and preloads the boundary scan register. -/
  | samplePreload (pins : Nat) (cells : Nat)
  /-- DTMCS (R982): JTAG instruction DTMCS selects the RISC-V debug transport control and status register. -/
  | dtmcs (v : Word)
  /-- DMI (R982): JTAG instruction DMI accesses the debug module of the Trestle cores. -/
  | dmi (addr : BitVec 7) (data : Word) (dop : Fin 4)
  /-- BYPASS (R982): JTAG instruction BYPASS, or any undefined code, selects the bypass register. -/
  | bypass (ir : Fin 32)
  /-- SPARE_COPY_DONE (R219): A spare copy completes and the bank map switches the logical bank to the spare. -/
  | spareCopyDone
  /-- RELOCATION_DONE (R247): A relocation copy completes and BASE changes in one cycle with no access in flight. -/
  | relocationDone
  /-- SCRUB_LINE (R285): The patrol scrubber reads one line of every ON group and corrects or poisons what it finds. -/
  | scrubLine
  /-- MAILBOX_SERVE (R695): The active supervisor copies a PENDING request, checks it, executes and commits it and posts the response. -/
  | mailboxServe
  /-- MODEL_BCAST_TIMEOUT (R866): XK_MODEL_BCAST completes 16 cycles after the last round with incomplete recipients in FAILED. -/
  | modelBcastTimeout
  /-- SOUND_TIMEOUT (R870): XK_SOUND completes 8 cycles after the SOUND frame. -/
  | soundTimeout
  /-- IDCODE (R983): JTAG instruction IDCODE selects the 32-bit identification register. -/
  | idcode
  /-- HIGHZ (R982): JTAG instruction HIGHZ puts every boundary-scanned output at high impedance. -/
  | highz
  /-- CLAMP (R982): JTAG instruction CLAMP holds outputs from the boundary scan register with bypass selected. -/
  | clamp
  deriving DecidableEq, Repr

end Sys2Proof
end

