-- ==== Sys2Proof/Machine/Basic.lean ====
section
/-! DEFINITION. Plain helpers: sparse tables, bit fields, little-endian words (R14) and fixed-point rounding. -/

namespace Sys2Proof.Machine

variable {α : Type}

/-- The value at a key, if the table lists it. -/
def tabGet? : Tab α → Nat → Option α
  | [], _ => none
  | (k', v) :: t, k => if k = k' then some v else tabGet? t k

/-- The value at a key, or the default the table's absent keys stand for. -/
def tabGet (d : α) (t : Tab α) (k : Nat) : α := (tabGet? t k).getD d

/-- List a value at a key, keeping the keys rising. -/
def tabSet : Tab α → Nat → α → Tab α
  | [], k, v => [(k, v)]
  | (k', v') :: t, k, v =>
    if k < k' then (k, v) :: (k', v') :: t
    else if k = k' then (k, v) :: t
    else (k', v') :: tabSet t k v

/-- Unlist a key. -/
def tabDel : Tab α → Nat → Tab α
  | [], _ => []
  | (k', v') :: t, k => if k = k' then tabDel t k else (k', v') :: tabDel t k

/-- Write a value; the default is never listed, so that equal contents are equal tables. -/
def tabPut [DecidableEq α] (d : α) (t : Tab α) (k : Nat) (v : α) : Tab α :=
  if v = d then tabDel t k else tabSet t k v

/-- Update the value at a key. -/
def tabMod [DecidableEq α] (d : α) (t : Tab α) (k : Nat) (f : α → α) : Tab α :=
  tabPut d t k (f (tabGet d t k))

/-- Keys strictly rising, every key at least `lo`. -/
def tabSortedFrom : Nat → Tab α → Bool
  | _, [] => true
  | lo, (k, _) :: t => decide (lo ≤ k) && tabSortedFrom (k + 1) t

/-- The canonical form of a table: keys strictly rising, and no entry equal to the default. -/
def tabWf [DecidableEq α] (d : α) (t : Tab α) : Bool :=
  tabSortedFrom 0 t && t.all fun e => decide (e.2 ≠ d)

/-- Bits [lo+w-1:lo] of a number. -/
def bitsOf (v lo w : Nat) : Nat := v / 2 ^ lo % 2 ^ w

/-- One bit of a number. -/
def bitAt (v i : Nat) : Bool := v / 2 ^ i % 2 == 1

/-- A flag as a bit. -/
def b2n (b : Bool) : Nat := if b then 1 else 0

/-- A field value placed at bit `lo`. -/
def atBit (v lo : Nat) : Nat := v * 2 ^ lo

/-- A field of a register word. -/
def fieldOf (w : Word) (lo n : Nat) : Nat := bitsOf w.toNat lo n

/-- A register word with the field [lo+n-1:lo] replaced. -/
def setField (w : Word) (lo n v : Nat) : Word :=
  BitVec.ofNat 32 (w.toNat - atBit (bitsOf w.toNat lo n) lo + atBit (v % 2 ^ n) lo)

/-- A 32-bit word of a number. -/
def w32 (n : Nat) : Word := BitVec.ofNat 32 n

/-- A byte of a number. -/
def b8 (n : Nat) : Byte := BitVec.ofNat 8 n

/-- A number as `n` little-endian bytes (R14). -/
def leBytes : Nat → Nat → List Byte
  | 0, _ => []
  | n + 1, v => b8 v :: leBytes n (v / 256)

/-- The number that little-endian bytes hold (R14). -/
def ofLe : List Byte → Nat
  | [] => 0
  | b :: t => b.toNat + 256 * ofLe t

/-- `n` bytes of a list from `off`, as one little-endian number; bytes past the end read 0. -/
def leAt (l : List Byte) (off n : Nat) : Nat := ofLe ((l.drop off).take n)

/-- A number of `w` bits as two's complement. -/
def sgn (w v : Nat) : Int := if v % 2 ^ w < 2 ^ (w - 1) then (v % 2 ^ w : Nat) else (v % 2 ^ w : Nat) - (2 ^ w : Nat)

/-- The `w`-bit two's complement encoding of an integer. -/
def unsgn (w : Nat) (v : Int) : Nat := (v % (2 ^ w : Nat)).toNat

/-- Division rounded up. -/
def cdiv (a b : Nat) : Nat := (a + b - 1) / b

/-- A saturating sum: a counter that stays at its maximum (R901). -/
def satAdd (max a b : Nat) : Nat := if a + b ≤ max then a + b else max

/-- Signed saturation to `w` bits. -/
def satS (w : Nat) (v : Int) : Int :=
  if v < -(2 ^ (w - 1) : Nat) then -(2 ^ (w - 1) : Nat)
  else if v > (2 ^ (w - 1) : Nat) - 1 then (2 ^ (w - 1) : Nat) - 1 else v

/-- Nearest integer to a / b, ties away from zero. -/
def divAway (a : Int) (b : Nat) : Int :=
  if 0 ≤ a then (a + (b / 2 : Nat)) / b else -((-a + (b / 2 : Nat)) / b)

/-- Nearest integer to a / b, ties to even. -/
def divEven (a : Int) (b : Nat) : Int :=
  let q := a / (b : Int)
  let r := a % (b : Int)
  if 2 * r < b then q else if 2 * r > b then q + 1 else if q % 2 = 0 then q else q + 1

/-- A list with the element at one place replaced. -/
def listSet : List α → Nat → α → List α
  | [], _, _ => []
  | _ :: t, 0, v => v :: t
  | h :: t, n + 1, v => h :: listSet t n v

/-- The numbers from `a`, `n` of them. -/
def natsFrom : Nat → Nat → List Nat
  | _, 0 => []
  | a, n + 1 => a :: natsFrom (a + 1) n

end Sys2Proof.Machine
end

