-- ==== Sys2Proof/Machine/Image.lean ====
section
/-! DEFINITION. The model image and its encodings (08_tile_ops.md, R482 to R499): header, sections, program directory,
tile-ops, operand table. Pure reading of bytes; the load checks are in ModelLoad. -/

namespace Sys2Proof.Machine

open Sys2Proof

/-! ## Header and sections (R493, R496) -/

def imgG (m : List Byte) : Nat := leAt m 0x15 1
def imgSize (m : List Byte) : Nat := leAt m 0x08 4
def imgSemCount (m : List Byte) : Nat := leAt m 0x16 2
def imgBctxUsed (m : List Byte) : Nat := leAt m 0x20 4
def imgBctxGroup (m : List Byte) : Nat := leAt m 0x24 4
def imgDriver (m : List Byte) : Nat := leAt m 0x28 1

/-- A section table entry: type, offset, size. -/
structure Section where
  ty : Nat
  off : Nat
  size : Nat
  deriving DecidableEq, Repr

/-- The section table. -/
def imgSections (m : List Byte) : List Section :=
  (natsFrom 0 (leAt m 0x10 2)).map fun i =>
    let o := leAt m 0x30 4 + 16 * i
    ⟨leAt m o 2, leAt m (o + 4) 4, leAt m (o + 8) 4⟩

/-- The section of a type; absent, an empty one. -/
def imgSec (m : List Byte) (ty : Nat) : Section := ((imgSections m).find? fun x => x.ty == ty).getD ⟨ty, 0, 0⟩

/-! ## Programs (R497) -/

/-- A program directory entry, with its offset from the image's start. -/
structure Prog where
  phase : Nat
  role : Nat
  off : Nat
  count : Nat
  deriving DecidableEq, Repr

/-- The program directory: 3 × G entries. -/
def imgProgs (m : List Byte) : List Prog :=
  let t := (imgSec m 1).off
  (natsFrom 0 (3 * imgG m)).map fun i =>
    let o := t + 16 * i
    ⟨leAt m o 1, leAt m (o + 1) 1, t + leAt m (o + 4) 4, leAt m (o + 8) 4⟩

/-- The program of a phase and role. -/
def imgProg (m : List Byte) (phase role : Nat) : Prog :=
  ((imgProgs m).find? fun p => p.phase == phase && p.role == role).getD ⟨phase, role, 0, 0⟩

/-- The two words of tile-op i of a program (R482). -/
def progWord0 (m : List Byte) (p : Prog) (i : Nat) : Nat := leAt m (p.off + 16 * i) 8
def progWord1 (m : List Byte) (p : Prog) (i : Nat) : Nat := leAt m (p.off + 16 * i + 8) 8

/-! ## Tile-op fields (R482, R483) -/

def opCode (w0 : Nat) : Nat := bitsOf w0 0 8
def opSpec (w0 : Nat) : Bool := bitAt w0 8
def opEpi (w0 : Nat) : Bool := bitAt w0 9
def opHint (w0 : Nat) : Nat := bitsOf w0 10 2
def opChain (w0 : Nat) : Bool := bitAt w0 12
def opHold (w0 : Nat) : Bool := bitAt w0 13
def opEpoch (w0 : Nat) : Nat := bitsOf w0 16 8
def opWaitSem (w0 : Nat) : Nat := bitsOf w0 24 12
def opSigSem (w0 : Nat) : Nat := bitsOf w0 36 12
def opWaitN (w0 : Nat) : Nat := bitsOf w0 48 8
def opBctx (w0 : Nat) : Nat := bitsOf w0 56 5
def opScope (w0 : Nat) : Bool := bitAt w0 61
def opDst (w1 : Nat) : Nat := bitsOf w1 0 16
def opSrcA (w1 : Nat) : Nat := bitsOf w1 16 16
def opSrcB (w1 : Nat) : Nat := bitsOf w1 32 16
def opParam (w1 : Nat) : Nat := bitsOf w1 48 16

/-! ## Operand table (R485 to R490) -/

/-- An operand, its EXT entry folded in. KIND: 0 NONE, 1 BUFFER, 2 RING, 3 NEAR, 4 INDEXED, 5 PARAM, 6 EXT. `scale` is
the operand index of the INT8 scale table, 0xFFFF for none; `aux` the AUX field as stored. -/
structure Opd where
  kind : Nat
  format : Nat
  row : Bool
  ndim : Nat
  slot : Nat
  elem : Nat
  offset : Nat
  counts : List Nat
  strides : List Int
  aux : Nat
  scale : Nat
  hasExt : Bool
  deriving DecidableEq, Repr

/-- Operand i of the table. -/
def imgOpd (m : List Byte) (i : Nat) : Opd :=
  let o := (imgSec m 2).off + 32 * i
  let ext := bitAt (leAt m (o + 2) 1) 0
  let x := o + 32
  let kind := leAt m o 1
  let aux := leAt m (o + 0x12) 2
  { kind := kind, format := leAt m (o + 1) 1, row := bitAt (leAt m (o + 2) 1) 1, ndim := leAt m (o + 3) 1,
    slot := leAt m (o + 4) 2, elem := leAt m (o + 6) 2, offset := leAt m (o + 8) 4,
    counts := [leAt m (o + 0x0C) 2, leAt m (o + 0x0E) 2, leAt m (o + 0x10) 2] ++
      (if ext then [leAt m (x + 0x0C) 2, leAt m (x + 0x0E) 2] else []),
    strides := [sgn 32 (leAt m (o + 0x14) 4), sgn 32 (leAt m (o + 0x18) 4), sgn 32 (leAt m (o + 0x1C) 4)] ++
      (if ext then [sgn 32 (leAt m (x + 0x14) 4), sgn 32 (leAt m (x + 0x18) 4)] else []),
    aux := aux, scale := if kind = 2 then (if ext then leAt m (x + 0x12) 2 else 0xFFFF) else aux, hasExt := ext }

/-- The operand an index names; none for 0xFFFF. -/
def imgOpd? (m : List Byte) (i : Nat) : Option Opd := if i = 0xFFFF then none else some (imgOpd m i)

/-- Count and stride of a dimension; a dimension the operand does not have counts 1. -/
def opdCount (o : Opd) (k : Nat) : Nat := if k < o.ndim then o.counts.getD k 1 else 1
def opdStride (o : Opd) (k : Nat) : Int := if k < o.ndim then o.strides.getD k 0 else 0

/-- REL, ACQUIRE, RELEASE, COMMIT, HALO and ROLE of a RING operand (R487). -/
def ringRel (o : Opd) : Int := sgn 8 (o.aux % 256)
def ringAcq (o : Opd) : Bool := bitAt o.aux 8
def ringRls (o : Opd) : Bool := bitAt o.aux 9
def ringCmt (o : Opd) : Bool := bitAt o.aux 10
def ringHalo (o : Opd) : Bool := bitAt o.aux 11
def ringProd (o : Opd) : Bool := bitAt o.aux 12

/-- Byte offset of the element with the indices given, from the operand's base (R337). -/
def opdOffset (o : Opd) (ix : List Nat) : Int :=
  (o.offset : Int) + ((ix.zip (natsFrom 0 5)).map fun p => (p.1 : Int) * opdStride o p.2).foldl (· + ·) 0

/-- The element indices in order, dimension 0 fastest (R337). -/
def opdIndices (o : Opd) : List (List Nat) :=
  (natsFrom 0 (opdCount o 4)).flatMap fun i4 => (natsFrom 0 (opdCount o 3)).flatMap fun i3 =>
    (natsFrom 0 (opdCount o 2)).flatMap fun i2 => (natsFrom 0 (opdCount o 1)).flatMap fun i1 =>
      (natsFrom 0 (opdCount o 0)).map fun i0 => [i0, i1, i2, i3, i4]

/-- First byte and end of the bytes an operand covers, from its base (R514). -/
def opdSpan (o : Opd) : Int × Int :=
  let ends := (natsFrom 0 5).map fun k => ((opdCount o k : Int) - 1) * opdStride o k
  let lo := ends.foldl (fun a e => if e < 0 then a + e else a) (o.offset : Int)
  let hi := ends.foldl (fun a e => if 0 < e then a + e else a) (o.offset : Int)
  (lo, hi + o.elem)

/-- The unit of a tile-op (R484): 0 control, 1 stream, 2 matrix, 3 vector, 4 SFU. A depthwise CONV is the vector
unit's. -/
def opUnit (code : Nat) (depthwise : Bool) : Nat :=
  if code = 0x01 || code = 0x02 || code = 0x03 then 1
  else if code = 0x10 then (if depthwise then 3 else 2)
  else if code = 0x11 then 2
  else if code = 0x21 || code = 0x31 then 4
  else if code = 0x12 || code = 0x13 || code = 0x20 || code = 0x22 || code = 0x30 || code = 0x32 || code = 0x38 ||
    code = 0x39 then 3
  else 0

/-- Ordering points (R511): BARRIER, SEM_WAIT, FENCE and EPOCH_CONFIRM. -/
def opOrders (code : Nat) : Bool := code == 0x40 || code == 0x41 || code == 0x43 || code == 0x44

/-- The ring operands of a tile-op. -/
def opRings (m : List Byte) (w1 : Nat) : List Opd :=
  ([opDst w1, opSrcA w1, opSrcB w1].filterMap (imgOpd? m)).filter fun o => o.kind == 2

/-- Every ring operand of the STRIPE programs, of every role. -/
def stripeRings (m : List Byte) : List Opd :=
  ((imgProgs m).filter fun p => p.phase == 1).flatMap fun p =>
    (natsFrom 0 p.count).flatMap fun i => opRings m (progWord1 m p i)

end Sys2Proof.Machine
end

