-- ==== Sys2Proof/Config.lean ====
section
/-! DEFINITION. What the spec leaves open: fuses and implementation constants, and free values. Each is a constant
without a body, so that nothing can be proved that rests on a value of it. -/

namespace Sys2Proof

/-- The 64-bit unique die number in the fuses (GLB_UID_LO, GLB_UID_HI). (DESIGN CHOICE, log entry 3) -/
opaque Config.uid : BitVec 64

/-- The grade in the fuses (GLB_GRADE, R20): true for TM-4816-CA, false for TM-4816-IA. (DESIGN CHOICE, log entry 3) -/
opaque Config.commercial : Bool

/-- The Ed25519 firmware key fused in the device (R932), its 32 bytes as a little-endian number.
(DESIGN CHOICE, log entry 3) -/
opaque Config.firmwareKey : BitVec 256

/-- The n-th value the spec leaves undefined (the `free` counter of the state names n). (DESIGN CHOICE, log entry 5) -/
opaque Config.freeValue : Nat → BitVec 64

/-- Whether a quotient that is no whole number is reported rounded up, where the spec names no rounding: the
dividend and the divisor. -/
opaque Config.roundsUp : Int → Nat → Bool

/-- LT_VELOCITY for a velocity outside its signed 24.8 format, which the spec does not state: dividend and divisor. -/
opaque Config.velOverflow : Int → Nat → BitVec 32

/-- The lane mask that VEC CMP stores for false and for true, which the spec does not state (R415).
(DESIGN CHOICE, log entry 22) -/
opaque Config.cmpMask : Bool → BitVec 32

/-- The reserved SECDED syndrome that marks a word poisoned (R279). (DESIGN CHOICE, log entry 3) -/
opaque Config.poisonSyndrome : BitVec 8

/-- The result of a built-in special function inside its stated error bound (07_special_functions.md): the function
code and the FP32 operand. (DESIGN CHOICE, log entry 22) -/
opaque Config.builtinSfu : Nat → BitVec 32 → BitVec 32

/-- The far-cache set, modulo the number of sets, of the first reduction line of a collective (R572), by the collective's
key. (DESIGN CHOICE, log entry 86) -/
opaque Config.redSet : Nat → Nat

/-- hartinfo of the debug module, which the spec leaves to the RISC-V debug specification. (PRESUMED, log entry 67) -/
opaque Config.hartInfo : BitVec 32

/-- DTMCS as the debug transport answers it, which the spec leaves to the RISC-V debug specification: its sticky status. -/
opaque Config.dtmcs : Nat → BitVec 32

/-- Whether the transmit converter takes the code above a value that lies between two, in the fixed point of the
transform; the spec names no rounding. (DESIGN CHOICE, log entry 84) -/
opaque Config.dacUp : Int → Bool

/-- What the receiver takes for a peak (R804): the least square of the normalized correlation, in 1/2^30.
(DESIGN CHOICE, log entry 85) -/
opaque Config.syncPeak : Nat

/-- The scale of soft inputs (R810): what one unit of them is worth, and what is added before the division by it.
(DESIGN CHOICE, log entry 85) -/
opaque Config.softStep : Nat
opaque Config.softBias : Nat

/-- Which of two equally good predecessors a decoder state takes: the number of the input bit and the state.
(DESIGN CHOICE, log entry 85) -/
opaque Config.viterbiTie : Nat → Nat → Bool

/-- mvendorid, marchid and mimpid of the Trestle cores. (DESIGN CHOICE, log entry 3) -/
opaque Config.mvendorid : BitVec 64
opaque Config.marchid : BitVec 64
opaque Config.mimpid : BitVec 64

/-- The vector length a Trestle core chooses where the vector standard bounds it only: the application vector length and
VLMAX. (PRESUMED, log entry 34) -/
opaque Config.vectorLength : Nat → Nat → Nat

end Sys2Proof
end

