-- ==== Sys2Proof/Machine/Parts.lean ====
section
/-! DEFINITION. The parts of the machine's state, chapter by chapter of spec/: the records that `State` is built of. -/

namespace Sys2Proof.Machine

/-! ## Line time (02_line_time.md) -/

/-- One encoder: its settings (R70), filtered input levels, and what the decoder and the checks keep.
Positions are in internal units of 2^-16 L (R80), instants in ns of TS. -/
structure Encoder where
  /-- ENC_EN -/
  en : Bool := false
  /-- DECODE: 1, 2 or 4 -/
  decode : Nat := 4
  /-- DIR_INVERT -/
  inv : Bool := false
  /-- FILT, steps of 5 ns -/
  filt : Nat := 2
  /-- SCALE, 16.16 lines per count -/
  scale : Nat := 0x10000
  /-- MAX_STEP, counts per µs -/
  maxStep : Nat := 40
  /-- filtered levels of ENC_n_A, ENC_n_B, ENC_n_Z -/
  a : Bool := false
  b : Bool := false
  z : Bool := false
  /-- accepted counts, signed modulo 2^32 -/
  count : BitVec 32 := 0
  /-- illegal transitions, saturating at 255 -/
  illegal : Nat := 0
  /-- rejected counts, saturating at 65,535 -/
  reject : Nat := 0
  /-- the 1 µs window of R78 being counted, the counts in it, and whether one was rejected -/
  win : Nat := 0
  winCount : Nat := 0
  winRej : Bool := false
  /-- the checker sum of R82, in internal units -/
  sum : Int := 0
  /-- instants of the latest 16 accepted counts, newest first (R86) -/
  recent : List Nat := []
  /-- instants of the latest 4 illegal transitions, newest first (R86) -/
  illegals : List Nat := []
  deriving DecidableEq, Repr

/-- The press state (R97). -/
inductive Press where
  | stopped | forward | reverse
  deriving DecidableEq, Repr

/-- MAINS_EDGE (R113). -/
inductive MainsEdge where
  | off | rising | falling | both
  deriving DecidableEq, Repr

/-- The line time unit. -/
structure LineTime where
  encs : Tab Encoder := []
  master : Nat := 0
  backup : Option Nat := none
  checkTol : Nat := 16
  countsPerZ : Nat := 0
  velWin : Nat := 8
  stopSpeed : Nat := 100
  /-- STOP_HOLD in steps of 0.1 ms -/
  stopHold : Nat := 20
  /-- REV_TOL in sub-lines -/
  revTol : Nat := 64
  /-- REPEAT_LEN in lines -/
  repeatLen : Nat := 10000
  /-- REPEAT_PHASE in sub-lines -/
  repeatPhase : Nat := 0
  mainsEdge : MainsEdge := .off
  mainsFilt : Nat := 20
  mainsOffset : Nat := 0
  mainsWin : Nat := 5
  /-- STB_POL: bit n set for active low -/
  stbPol : Nat := 0
  /-- position of the last accepted master edge, internal units; R89 gives 2^32 L at reset -/
  pos : Nat := 2 ^ 48
  /-- accepted master edges since the last restart of the velocity window: (instant, position), newest first -/
  edges : List (Nat × Nat) := []
  /-- LX when a setting that interpolation uses last changed since the last edge: LX does not go back past it (R93) -/
  hold : Option Nat := none
  /-- direction of the last accepted master count: true forward -/
  fwd : Bool := true
  /-- run of consecutive accepted master counts in one direction (R97), and that direction -/
  run : Nat := 0
  runFwd : Bool := true
  /-- the reset, or the instant the present master became master (R86) -/
  masterSince : Nat := 0
  /-- instant of the last accepted master count since then -/
  lastCount : Option Nat := none
  /-- position at the last restart of the checker sums (R82) -/
  sumBase : Nat := 2 ^ 48
  /-- high-water mark, 48.8 (R101) -/
  hwm : Nat := 2 ^ 40
  behind : Bool := false
  /-- a reversal has been declared in this behind period (R104) -/
  revDone : Bool := false
  press : Press := .stopped
  /-- since when |v| has been below STOP_SPEED, as far as the last edge showed (R97) -/
  slowSince : Option Nat := some 0
  /-- when STOP_SPEED or VEL_WIN last changed: |v| was then judged anew -/
  judgedAt : Nat := 0
  /-- entry into STOPPED, the E of R124 -/
  stoppedAt : Nat := 0
  /-- accepted master counts still to come while POS_SUSPECT is 1 (R79) -/
  suspect : Nat := 0
  failover : Bool := false
  /-- the interval since the last master Z edge: net count, and whether counts of either sign were in it (R84) -/
  zRef : Option (Int × Bool × Bool) := none
  /-- LT_Z_LATCH, 48.8 -/
  zLatch : Nat := 0
  repeatCount : BitVec 32 := 0
  /-- the pending repeat boundary, 48.8 (R107) -/
  boundary : Nat := 4294970000 * 256
  /-- the last boundary that has occurred -/
  lastBoundary : Option Nat := none
  /-- REPEAT_LEN of the repeat that boundary began (R110) -/
  runLen : Nat := 10000
  /-- mains tracker: lock, the filtered level, the last accepted edge, accepted periods (newest first, at most 8),
  acquisition count, period estimate, disturbed cycles of the present holdover -/
  mLock : Bool := false
  mLevel : Bool := false
  mLast : Option Nat := none
  /-- instant of the phase 0 from which the phase runs (R114, R119) -/
  mRef : Nat := 0
  mPeriods : List Nat := []
  mRun : Nat := 0
  mPeriod : Nat := 0
  mHold : Nat := 0
  /-- MAINS_EDGE both: a falling edge was accepted in the period that `mRef` began (R116) -/
  mFall : Bool := false
  /-- TS of the last calendar pulse by event number, and of the last calendar request by 256 + line (R34, R618) -/
  evLast : Tab Nat := []
  deriving DecidableEq, Repr

/-- MODE of a calendar entry (R122). -/
inductive CalMode where
  | off | once | periodic | repeat
  deriving DecidableEq, Repr

/-- CLOCK of a calendar entry (R122). -/
inductive CalClock where
  | lx | ts | hybrid
  deriving DecidableEq, Repr

/-- Edge of a STROBE action (R129). -/
inductive StrobeOp where
  | set | clear | pulse (width : Nat)
  deriving DecidableEq, Repr

/-- ACTION and ARG of a calendar entry (R129). -/
inductive CalAction where
  | strobe (out : Nat) (op : StrobeOp)
  | trigger (port conn : Nat) (rising : Bool)
  | release (cs : Nat)
  | dmaReq (line : Nat)
  | irq (bit : Nat)
  | event (ev : Nat)
  deriving DecidableEq, Repr

/-- GATE of a calendar entry (R122). -/
inductive CalGate where
  | none | skip | defer
  deriving DecidableEq, Repr

/-- The fields of a calendar entry (R122). Positions in 48.8. -/
structure CalFields where
  mode : CalMode := .off
  clock : CalClock := .lx
  target : Nat := 0
  period : Nat := 0
  count : Nat := 0
  tsTarget : Nat := 0
  tsPeriod : Nat := 0
  action : CalAction := .strobe 0 .set
  gate : CalGate := .none
  gateStart : Nat := 0
  gateEnd : Nat := 0
  maxDefer : Nat := 0
  fireUnlocked : Bool := false
  deriving DecidableEq, Repr

/-- An occurrence whose instant is fixed (R95, R139): its instant, its LX target, the content it fires with (R128), and
how far LX is beyond the target at the instant, in internal units (a catch-up, R96). -/
structure Occurrence where
  instant : Nat
  target : Nat
  fields : CalFields
  beyond : Nat := 0
  deriving DecidableEq, Repr

/-- A calendar entry and what the calendar keeps of it. -/
structure CalEntry where
  f : CalFields := {}
  /-- its 48 B as written (R747); empty before the first write: all 0 -/
  raw : List Byte := []
  /-- next LX target, if an LX occurrence is to come; `lxIdx` is its grid index (R1011) -/
  nextLx : Option Nat := none
  lxIdx : Nat := 0
  /-- REPEAT: the targets of later boundaries that wait behind `nextLx` -/
  moreLx : List Nat := []
  /-- index of the next TS grid point, and whether one is to come -/
  tsIdx : Nat := 0
  tsOn : Bool := false
  /-- the LT cycle in which the entry first took part, while a TS point that was past then has still to fire (R1012) -/
  tsPast : Option Nat := none
  /-- the LX occurrence of a ONCE entry has fired, or never will (R124, R127) -/
  fired : Bool := false
  committed : Option Occurrence := none
  deferred : List Occurrence := []
  deriving DecidableEq, Repr

/-- A strobe output (R130, R132): its level, and the trailing edges of pulses still to come (entry, instant). -/
structure Strobe where
  active : Bool := false
  ends : List (Nat × Nat) := []
  /-- LT cycle and entry of the last operation (R131) -/
  lastOp : Nat × Nat := (0, 0)
  deriving DecidableEq, Repr

/-! ## Deep Store (04_deep_store.md) -/

/-- Power state of a bank group (R273). `toOn`, `toRetain` and `toOff` are in transition; `fresh` says the group
is coming up from OFF and is ECC-initialized on the way. -/
inductive GroupState where
  | off | retain | on
  | toOff
  | toRetain (fresh : Bool)
  | toOn (fresh : Bool)
  deriving DecidableEq, Repr

/-- What the check bits of a stored word say (R279). -/
inductive Ecc where
  | ok | correctable | uncorrectable | poisoned
  deriving DecidableEq, Repr

/-- Retention class (R244). -/
inductive HandleClass where
  | scratch | hamper | fixed
  deriving DecidableEq, Repr

/-- A handle table entry (R234). `gen` keeps counting while the entry is free (R235). -/
structure Handle where
  valid : Bool := false
  gen : Nat := 1
  /-- BASE, bytes -/
  base : Nat := 0
  /-- SIZE, units of 4 KiB -/
  units : Nat := 0
  rights : Nat := 0
  owner : Nat := 0
  cls : HandleClass := .scratch
  ring : Bool := false
  lock : Option Nat := none
  deriving DecidableEq, Repr

/-- A relocation in progress (R247): the entry, its new BASE, and the command it serves. -/
structure Relocation where
  idx : Nat
  dest : Nat
  deriving DecidableEq, Repr

/-- Who waits in a queue: a requester of the banked operation registers (its bank number), or a tile-op. -/
inductive Party where
  | bank (i : Nat)
  | op (id : Nat)
  deriving DecidableEq, Repr

/-- A queued semaphore wait (R251). -/
structure SemWait where
  who : Party
  tag : Nat
  n : Nat
  deriving DecidableEq, Repr

/-- A semaphore (R249, R260). -/
structure Sem where
  value : Nat := 0
  tracked : Bool := false
  /-- owner places: tag and recorded units -/
  holds : Tab Nat := []
  queue : List SemWait := []
  deriving DecidableEq, Repr

/-- A bound arrival counter (R263). -/
structure Arrival where
  idx : Nat
  count : Nat
  target : Nat
  sem : Option Nat
  semN : Nat
  rearm : Bool
  stopped : Bool
  deriving DecidableEq, Repr

/-- What an access of several pieces answers once all of them are made: a BAR2 completion, or the response to another
node's request with this TAG (R858). -/
inductive JobFor where
  | bar (len : Nat)
  | serve (tag : Nat)
  deriving DecidableEq, Repr

/-- An access of several pieces under way (R45, R858): who makes it, its traffic class, the pieces still to make, the
bytes still to write, the bytes read, and the first error response. -/
structure PieceJob where
  who : JobFor
  write : Bool
  tag : Nat
  det : Nat
  cls : Nat
  todo : List (Nat × Nat)
  data : List Byte := []
  got : List Byte := []
  code : Nat := 0
  deriving DecidableEq, Repr

/-- An access that waits for a unit of its bucket (R351): a single access to the Deep Store, one by fabric address, or
one of several pieces. -/
inductive HeldAccess where
  | deep (acc : DsReq)
  | far (acc : DsReq)
  | job (j : PieceJob)
  deriving DecidableEq, Repr

/-- It waits in the order of its traffic class. -/
structure Held where
  cls : Nat
  acc : HeldAccess
  deriving DecidableEq, Repr

/-- A spare copy in progress (R219). -/
structure SpareCopy where
  logical : Nat
  dest : Nat
  deriving DecidableEq, Repr

/-! ## Basket rings (05_baskets_streams.md) -/

/-- State of a slot (R301). -/
inductive SlotState where
  | empty | filling | full | shadow | draining
  deriving DecidableEq, Repr

/-- A slot. `epoch` is the epoch it belongs to while FILLING or SHADOW: core set times 256 plus the epoch tag. -/
structure Slot where
  state : SlotState := .empty
  rc : Nat := 0
  committed : Bool := false
  first : Bool := false
  last : Bool := false
  epoch : Option Nat := none
  /-- that epoch is confirmed -/
  conf : Bool := false
  /-- releases made while SHADOW (R311) -/
  early : Nat := 0
  deriving DecidableEq, Repr

/-- A waiting acquire (R312, R313): of the slot at HEAD (`counter = none`) or of a named counter. -/
structure Acquire where
  who : Party
  tag : Nat
  counter : Option Nat
  epoch : Option Nat
  /-- it has found the window table full, and counts in BK_WIN_WAIT (R307) -/
  counted : Bool := false
  deriving DecidableEq, Repr

/-- A basket ring (R294, R298). -/
structure Ring where
  declared : Bool := false
  handle : Nat := 0
  slots : Nat := 0
  slotUnits : Nat := 0
  producer : Nat := 0
  refs : Nat := 0
  autoUp : Bool := false
  autoDown : Bool := false
  spec : Bool := false
  head : Nat := 0
  tail : Nat := 0
  pub : Nat := 0
  tab : Tab Slot := []
  waitP : List Acquire := []
  waitC : List Acquire := []
  deriving DecidableEq, Repr

/-- An acquire window (R307). -/
structure Window where
  ring : Nat
  counter : Nat
  tag : Nat
  producer : Bool
  epoch : Option Nat
  deriving DecidableEq, Repr

/-! ## Sensor ports and the ingest stage (03_sensor_ports.md) -/

/-- Link state of a port (R149). -/
inductive Link where
  | disabled | down | discovery | up | degraded
  deriving DecidableEq, Repr

/-- A physical connection (R150, R153). -/
structure Conn where
  up : Bool := false
  master : Bool := false
  devId : Nat := 0
  /-- it belongs to the configured connections (R152) -/
  used : Bool := false
  /-- since when it is lost (R156) -/
  lostAt : Option Nat := none
  deriving DecidableEq, Repr

/-- When the pending column-table bank becomes active (R183). -/
inductive SwitchPoint where
  | repeatBoundary (k : Nat)
  | position (lx : Nat)
  deriving DecidableEq, Repr

/-- The outstanding control transaction of a port (R159): the slot of its long command, when it was sent, and
whether it reads. -/
structure CtrlTxn where
  cmd : Nat
  sent : Nat
  conn : Nat
  deriving DecidableEq, Repr

/-- A sensor port. -/
structure Port where
  en : Bool := false
  connEn : Nat := 0
  maxSpeed : Nat := 7
  autoReconnect : Bool := true
  /-- CTRL_TIMEOUT, ms -/
  ctrlTimeout : Nat := 200
  link : Link := .disabled
  speed : Nat := 0
  conns : Tab Conn := []
  /-- the SP_n_PWR_EN_m outputs (R164) -/
  pwrEn : Nat := 0
  ctrl : Option CtrlTxn := none
  /-- active column-table bank, and the switch point of a pending upload (R183) -/
  bank : Nat := 0
  pendSwitch : Option SwitchPoint := none
  deriving DecidableEq, Repr

/-- Pixel class (R166). -/
inductive PixelClass where
  | mono | bayer | rgb
  deriving DecidableEq, Repr

/-- State of a stream (SP_n_STR_k_STATE). -/
inductive StreamState where
  | stopped | running | draining | atRepeat
  deriving DecidableEq, Repr

/-- Whether the lines of a head are recorded, or why they are discarded: they come after the boundary of an AT_REPEAT stop
(R209), were stamped while behind (R191), or are late (R190). -/
inductive Drop where
  | keep | past | behind | late
  deriving DecidableEq, Repr

/-- What is fixed at the first packet of a line, or of an area frame: its stamp (R187), the arrival TS, the flags, the
column-table bank, its repeat (R196), and whether its lines are discarded (R190, R191, R209). -/
structure LineHead where
  stamp : Nat
  ts : Nat
  suspect : Bool
  untrig : Bool
  bank : Nat
  rep : Nat
  drop : Drop
  deriving DecidableEq, Repr

/-- An entry of the trigger queue (R188, R191, R192): LX target, firing TS, whether the unit was behind and position
suspect then, and the repeat of the target. -/
structure TrigEntry where
  target : Nat
  ts : Nat
  behind : Bool
  suspect : Bool
  rep : Nat
  deriving DecidableEq, Repr

/-- A recorded line on its way to its slot: what its descriptor and its data will be (R203). -/
structure Line where
  head : LineHead
  status : Nat
  row : Nat
  /-- it opens a repeat or a frame (R168, R196) -/
  opens : Bool
  /-- it takes a place of the FIFO; otherwise one of the descriptor queue (R204, R206) -/
  inFifo : Bool
  /-- its stripe is DEGRADED by a line dropped without record (R207) -/
  unrec : Bool
  /-- a further line of its area frame is to come, so that its stripe is not the last (R168, R199) -/
  more : Bool
  /-- converted elements, plane by plane, each row ROW_PITCH bytes; nothing while they stand in the FIFO buffer -/
  data : List Byte
  /-- the place of the FIFO buffer that holds its data (R204) -/
  place : Option Nat := none
  deriving DecidableEq, Repr

/-- What waits for the writer of a stream: a line, the end of a repeat or frame (R199), the end of reception with
whether it closes a repeat (R209, R211). -/
inductive IngestItem where
  | line (l : Line)
  | closeRepeat
  | finish (last : Bool)
  deriving DecidableEq, Repr

/-- The line being received: its head, and the bytes of the packed line that have come, by offset. -/
structure RxLine where
  head : LineHead
  bytes : Tab Byte
  deriving DecidableEq, Repr

/-- The stripe open in a slot (R195, R201). -/
structure Stripe where
  counter : Nat
  first : Bool
  rep : Nat
  idx : Nat
  rows : Nat
  stamp0 : Nat
  stamp1 : Nat
  ts0 : Nat
  nLost : Nat
  nSubst : Nat
  nSuspect : Nat
  degraded : Bool
  /-- the line descriptors so far -/
  descs : List Byte
  deriving DecidableEq, Repr

/-- A stream: its settings (R170) and what the ingest stage keeps of it. -/
structure Stream where
  cxpId : Nat := 0
  cls : PixelClass := .mono
  bits : Nat := 8
  width : Nat := 4096
  areaLines : Nat := 0
  bf16 : Bool := false
  shift : Nat := 12
  /-- INT8_OFFSET -/
  offset : Int := -128
  bfExp : Nat := 20
  stripeH : Nat := 32
  haloUp : Nat := 0
  haloDown : Nat := 0
  ring : Option Nat := none
  stampTrigger : Bool := false
  lineTimeout : Nat := 100
  fillPrevious : Bool := false
  substMax : Nat := 0
  colBase : Nat := 0
  state : StreamState := .stopped
  /-- handle entry of the FIFO buffer (R204) -/
  fifoIdx : Option Nat := none
  fifo : List IngestItem := []
  fifoMax : Nat := 0
  /-- trigger queue (R188), oldest first -/
  trigQ : List TrigEntry := []
  /-- lines already recorded missing whose packets may still come (R190) -/
  late : Nat := 0
  /-- entries taken as missing lines while a line or frame was in reception: recorded after it (R190) -/
  missed : List TrigEntry := []
  rx : Option RxLine := none
  /-- area scan: the frame being received and the lines it has had (R168) -/
  frame : Option LineHead := none
  frameRow : Nat := 0
  open_ : Option Stripe := none
  /-- data of the previous recorded line of the stream in this repeat (R193) -/
  prev : List Byte := []
  /-- ROW of the next line, the repeat it counts in, whether the next recorded line opens it, and the next stripe's
  index -/
  row : Nat := 0
  rowRep : Option Nat := none
  opensNext : Bool := false
  stripeIdx : Nat := 0
  /-- a line of the repeat was dropped without record before its first recorded one (R207) -/
  dropped : Bool := false
  /-- lines recorded since the start -/
  recorded : Nat := 0
  /-- the acquire of its next slot has found the window table full, and counts in BK_WIN_WAIT (R307) -/
  winWait : Bool := false
  /-- the repeat at whose boundary an AT_REPEAT stop ends (R209) -/
  stopRep : Option Nat := none
  deriving DecidableEq, Repr

/-! ## Pixel cores (06_pixel_cores.md, 07_special_functions.md) -/

/-- State of a physical core (R366). -/
inductive CoreState where
  | off | idle | mapped | quarantined | pending | waking
  deriving DecidableEq, Repr

/-- A disable waiting for its task boundary (R428), with the command it completes. -/
structure CoreDisable where
  replacement : Option Nat
  keepPowered : Bool
  cmd : Option Nat
  /-- its boundary has come, and it waits for the accesses in flight (R434) -/
  due : Bool := false
  deriving DecidableEq, Repr

/-- A physical core. -/
structure Core where
  state : CoreState := .off
  disable : Option CoreDisable := none
  /-- the replacement power-up or a command that waits for WAKING to end: the logical core to map then -/
  mapTo : Option Nat := none
  deriving DecidableEq, Repr

/-- The accumulator file of a core kept by CHAIN (R384): the destination region it belongs to, the format, and the
accumulators, position within channel, as INT32 or FP32 words. -/
structure AccFile where
  key : Nat
  bf16 : Bool
  acc : List Nat
  deriving DecidableEq, Repr

/-! ## Tile-ops and tasks (08_tile_ops.md) -/

/-- A loaded model image: the image bytes, and what the load gave its slots (R500). -/
structure Model where
  image : List Byte
  semBase : Nat
  /-- handle slot to handle value -/
  handles : Tab Nat
  /-- ring slot to ring number -/
  rings : Tab Nat
  /-- the slots and rings the load itself allocated -/
  ownHandles : List Nat
  ownRings : List Nat
  /-- the buffer range that named the image (R864): handle value, BASE then, offset and length -/
  src : Nat × Nat × Nat × Nat := (0, 0, 0, 0)
  deriving DecidableEq, Repr

/-- State of an epoch (R530). -/
inductive EpochState where
  | idle | open_ | confirmed | cancelled
  deriving DecidableEq, Repr

/-- What the journal and the scheduler keep of a stripe (R517, R520). -/
structure StripeRec where
  q : Nat
  issued : Bool := false
  computed : Bool := false
  stored : Bool := false
  published : Bool := false
  epoch : Nat := 0
  cancelled : Bool := false
  aborted : Bool := false
  error : Nat := 0
  deriving DecidableEq, Repr

/-- Where a member stands in its programs (R480): phase 0 SETUP, 1 STRIPE, 2 FINAL, 3 done; the stripe; the tile-op
to dispatch next; and the HOLD tile-ops dispatched from the program so far. -/
structure Cursor where
  phase : Nat := 0
  stripe : Nat := 0
  pc : Nat := 0
  holds : Nat := 0
  deriving DecidableEq, Repr

/-- Phase of a stream group's task (GLB_CS_s_STATUS). -/
inductive TaskPhase where
  | waiting | running | boundary | aborting
  deriving DecidableEq, Repr

/-- A task (R527, R523). -/
structure Task where
  rep : Nat
  tsStart : Nat
  lxStart : Nat
  qFirst : Nat
  issued : Nat := 0
  published : Nat := 0
  confirms : Nat := 0
  cancels : Nat := 0
  releases : Nat := 0
  cause : Nat := 0
  source : Nat := 0
  epochs : Tab EpochState := []
  /-- ring to its TAIL at task start (R481, R488) -/
  ringBase : Tab Nat := []
  /-- ring to its HEAD at task start (R312, R488) -/
  headBase : Tab Nat := []
  /-- the driver ring -/
  driver : Nat := 0
  stripes : Tab StripeRec := []
  cursors : Tab Cursor := []
  /-- the stripe that consumes the driver ring's LAST slot (R507) -/
  lastStripe : Option Nat := none
  /-- releases made so far, by ring × 65536 + counter (R539) -/
  relDone : Tab Nat := []
  /-- the stripe that is published next -/
  pubNext : Nat := 0
  /-- barrier arrivals of the present generation: context (with group) to members arrived -/
  arrivals : Tab (List Nat) := []
  /-- row-statistics records the soft-maximum passes of this task have written for the current row (R468), by handle
  entry × 2^32 + offset: 1 MAX, 3 MAX and SUM -/
  stats : Tab Nat := []
  /-- the weight chain: the physical cores of the members in ascending logical order, as at the task's start (R355,
  R357) -/
  chain : List Nat := []
  /-- weight blocks on the chain: role × 65536 + place in the SETUP program, and the bytes the first member read -/
  blocks : Tab (List Byte) := []
  deriving DecidableEq, Repr

/-- A drain of an aborted repeat from an EXTERNAL ring (R539): next counter, releases per slot still owed. -/
structure Drain where
  ring : Nat
  next : Nat
  owed : Tab Nat
  deriving DecidableEq, Repr

/-- A stream group (R503, R504). -/
structure Group where
  cs : Nat
  model : Nat
  pendModel : Option Nat := none
  started : Bool := false
  stopping : Bool := false
  /-- STREAMS of the bind -/
  streams : Nat := 0
  journal : Nat
  jwords : Nat
  /-- stripes counted since bind (R520) -/
  q : Nat := 0
  phase : TaskPhase := .waiting
  task : Option Task := none
  /-- repeats whose boundary has occurred and whose task has not started -/
  due : List Nat := []
  drains : List Drain := []
  /-- after an abort no task starts before a repeat boundary at which the drain has ended (R539) -/
  awaits : Bool := false
  /-- drained ring to the counter of the first slot of the next repeat (R539) -/
  bases : Tab Nat := []
  deriving DecidableEq, Repr

/-- The unit a tile-op runs on (R484). -/
inductive TileUnit where
  | control | stream | matrix | vector | sfu
  deriving DecidableEq, Repr

/-- A byte range in the Deep Store (`space = 0`) or in the near store of logical core `space - 1` (R514). -/
structure Region where
  space : Nat
  lo : Nat
  hi : Nat
  deriving DecidableEq, Repr

/-- One access of a LOAD, GATHER or STORE still to make (R337, R338, R341): bytes of one line, through the tile cache
or past it; the zeros of a null index; the point where the index bytes are there and their elements follow; a write
within one line; an element that is refused. -/
inductive Piece where
  | read (a n : Nat) (cached : Bool)
  | zeros (n : Nat)
  | index
  | write (a : Nat) (d : List Byte) (cached : Bool)
  | stop (code a : Nat) (write : Bool)
  deriving DecidableEq, Repr

/-- A dispatched tile-op. Its identity rises in dispatch order. -/
structure TileOp where
  group : Nat
  member : Nat
  core : Nat
  phase : Nat
  stripe : Nat
  /-- its place in its program -/
  pc : Nat := 0
  w0 : Nat
  w1 : Nat
  unit : TileUnit
  dst : Option Region
  srcs : List Region
  /-- ordinal among the HOLD tile-ops of its program, from 1; 0 for others -/
  hold : Nat
  /-- WAIT_SEM: not asked, queued, served -/
  waitQueued : Bool := false
  waitServed : Bool := false
  /-- acquires asked for and not granted yet: ring, and the counter of a consumer acquire; the slot and its halo
  neighbours are asked for in turn -/
  acquired : Bool := false
  haloAsked : Bool := false
  toAcquire : List (Nat × Option Nat) := []
  /-- the windows it was granted: ring, counter, and whether it is the producer's -/
  held : List (Nat × Nat × Bool) := []
  /-- data of an issued LOAD or GATHER on its way to the near store: near-store address (core × 2^20 + offset, logical
  core) and bytes -/
  writes : List (Nat × List Byte) := []
  /-- the accesses of an issued LOAD, GATHER or STORE still to make, and the bytes read so far -/
  todo : List Piece := []
  got : List Byte := []
  /-- the cause of R537 with which its task is to abort, set when one of its waits fails -/
  failed : Option Nat := none
  issued : Bool := false
  issuedAt : Nat := 0
  /-- control tile-ops: the unit has finished -/
  ready : Bool := false
  /-- squashed or aborted after issue: its data and signal are discarded -/
  dropped : Bool := false
  deriving DecidableEq, Repr

/-! ## Caches (09_caches_ordering.md) -/

/-- Cache hint class of a line (R548). -/
inductive Hint where
  | normal | keep | evictFirst
  deriving DecidableEq, Repr

/-- A line of a tile cache: the fill, the dirty bytes, or the partial sums of a reduction line (R543, R565). -/
structure TcLine where
  hint : Hint
  lru : Nat
  filled : Bool
  dirty : Tab Byte
  data : List Byte
  /-- a reduction line: `some true` for FP32, `some false` for INT32, with its 16 sums -/
  red : Option Bool
  sums : List Nat
  /-- check bits of its 8 B words, by word 0 to 7 (R546); absent: ok -/
  ecc : Tab Ecc := []
  deriving DecidableEq, Repr

/-- The tag of a line of the far cache (R553, R554): its data lies in the cache's buffer, at its way. -/
structure FcLine where
  hint : Hint
  lru : Nat
  /-- the Xanik cycle in which its fill completed (R560) -/
  cycle : Nat
  /-- its way in its set, 0 to 15 -/
  way : Nat
  deriving DecidableEq, Repr

/-- What waits for a far response: the requester's port, an engine of the chip (a Trestle load, a DMA line), nobody. -/
inductive FarMode where
  | reply | engine | prefetch
  deriving DecidableEq, Repr

/-- An access to another node that waits for its far response (R557, R564). -/
structure FarWait where
  tag : Nat
  detail : Nat
  node : Nat
  offset : Nat
  write : Bool
  size : Nat
  data : List Byte
  hint : Hint
  /-- a read of 256 B installs a line -/
  fill : Bool
  /-- the cycle its request was first sent in (R859), once it is -/
  cycle : Option Nat := none
  /-- TAG of its far request; none while it waits for a free one -/
  id : Option Nat := none
  /-- what the answer is for: a reply to the requester, an engine that waits for the line, a prefetch -/
  mode : FarMode := .reply
  deriving DecidableEq, Repr

/-- An outstanding range operation of a requester (R573). -/
structure RangeOp where
  far : Bool
  op : Nat
  /-- its requester was revoked: no completion interrupt (R887) -/
  quiet : Bool := false
  deriving DecidableEq, Repr

/-! ## DMA engine (10_dma.md) -/

/-- What a channel keeps beyond its registers. -/
structure DmaCh where
  /-- it holds an active set -/
  active : Bool := false
  /-- next line to move, and lines answered -/
  line : Nat := 0
  /-- the line after the last one of the service unit being issued (R594) -/
  unitEnd : Nat := 0
  /-- accesses without a response -/
  outstanding : Nat := 0
  /-- bursts that have issued and whose writes are not all answered (R597, R630) -/
  bursts : Nat := 0
  /-- running CRC register (R624) -/
  crc : Nat := 0xFFFFFFFF
  /-- last HOST address written (R628) -/
  hostAddr : Option Nat := none
  /-- the CRC word has been written -/
  crcDone : Bool := false
  /-- result of the previous completed set, for CRC_CONT -/
  lastCrc : Nat := 0
  /-- an interrupt is raised at the Trestle source, by DONE -/
  intDone : Bool := false
  deriving DecidableEq, Repr

/-! ## Trestle cluster (11_trestle_cluster.md) -/

/-- State of a Trestle core (GLB_TR_STATUS). -/
inductive TrState where
  | off | reset | running | haltRequested | halted | stopped
  deriving DecidableEq, Repr

/-- A Trestle core (hart): its registers, CSRs by number, privilege mode (0 U, 1 S, 3 M) and LR reservation. -/
structure Hart where
  state : TrState := .off
  pc : BitVec 64 := 0
  x : Tab (BitVec 64) := []
  f : Tab (BitVec 64) := []
  /-- vector registers, 256 bits each -/
  v : Tab (BitVec 256) := []
  priv : Nat := 3
  csr : Tab (BitVec 64) := []
  /-- physical address of the reservation -/
  resv : Option Nat := none
  wfi : Bool := false
  haltAck : Bool := false
  /-- the halt command's timeout (R670): its expiry and the command -/
  haltBy : Option (Nat × Nat) := none
  /-- in Debug Mode (R641) -/
  dbg : Bool := false
  /-- the debugger has resumed it since its last request, and has seen its last reset -/
  resumeAck : Bool := false
  resetAck : Bool := false
  deriving DecidableEq, Repr

/-- A line of the Trestle L2 (R644): its bytes, which of them are dirty (bit i for byte i), the core whose tag writes
them back, and the check-bit state of its 8 B words (R651). -/
structure L2Line where
  data : List Byte
  dirty : Nat
  core : Nat
  ecc : Tab Ecc := []
  deriving DecidableEq, Repr

/-- The interrupt controller (R655 to R660): pending edge sources, sources claimed and not completed, and edge
pulses kept for a claimed source. -/
structure Tic where
  pend : List Nat := []
  claimed : List Nat := []
  kept : List Nat := []
  deriving DecidableEq, Repr

/-! ## Supervisors, mailboxes and notices (12_supervisor_mailboxes.md, 13_command_set.md) -/

/-- What a mailbox keeps beyond its registers: the request and response buffers (R689), the order of its doorbell
(R695), and the recorded response of LAST (R697). -/
structure Mailbox where
  req : Tab Byte := []
  rsp : List Byte := []
  order : Nat := 0
  record : List Byte := []
  deriving DecidableEq, Repr

/-- An accepted class L command that has not posted its notice (R703, R730): its mailbox, sequence, opcode, request
payload, the object of R729, what it still waits for (a deadline, or a number of its own), and its final status,
DETAIL and RESULTS once the work is done. -/
structure LongCmd where
  mb : Nat
  seq : Nat
  opcode : Nat
  obj : Nat
  payload : List Byte
  deadline : Option Nat := none
  aux : Nat := 0
  done : Option (Nat × Nat × List Byte) := none
  resumed : Bool := false
  deriving DecidableEq, Repr

/-- State of a switchable domain that is no bank group (R903, R905): ON or OFF, and a transition under way. -/
structure Domain where
  on : Bool := false
  /-- the state it is going to, and since when -/
  trans : Option (Bool × Nat) := none
  deriving DecidableEq, Repr

/-- An error log entry (R876). -/
structure LogEntry where
  ts : Nat
  lx : Nat
  addr : Nat
  source : Nat
  cls : Nat
  code : Nat
  flags : Nat
  syndrome : Nat
  detail : Nat
  deriving DecidableEq, Repr

/-- What a requester last received: the response code of R65 and the data. -/
structure Reply where
  resp : Nat := 0
  data : List Byte := []
  deriving DecidableEq, Repr

/-- What leaves the machine: the record of its outputs, newest first. -/
inductive Emit where
  /-- an event pulse EV_n (R30) -/
  | event (n : Nat)
  /-- an MSI-X message on a vector (R720) -/
  | msix (vector : Nat)
  /-- a strobe output changes level at an instant (R129) -/
  | strobe (out : Nat) (active : Bool) (instant : Nat)
  /-- a trigger packet on a device connection of a port (R161), sent by a calendar entry -/
  | trigger (port conn : Nat) (rising : Bool) (instant entry : Nat)
  /-- a camera control packet (R158): read or write, address, length or data -/
  | control (port conn : Nat) (write : Bool) (addr len : Nat) (data : List Byte)
  /-- the connection configuration written to a camera (R152) -/
  | cxpConfig (port conns speed : Nat)
  /-- acknowledge of a camera event packet (R160) -/
  | eventAck (port : Nat)
  /-- a write to HOST space by a DMA channel (R613) -/
  | hostWrite (addr : Nat) (data : List Byte)
  /-- a read of HOST space by a DMA channel -/
  | hostRead (addr len : Nat)
  /-- a frame or console line on the UART (R714, R940) -/
  | uart (data : List Byte)
  /-- bytes returned over I²C (R711) -/
  | i2c (data : List Byte)
  /-- a frame sent on the Xanik cable: destination (16 broadcast), TYPE, SEQ, start instant, header and payload with
  its CRC-32C, and its codes at the transmit converter, 4 ns apart, the ramps among them (R762, R817) -/
  | xanik (dest kind seq instant : Nat) (body : List Byte) (samples : List (BitVec 12))
  /-- a JTAG scan result -/
  | jtag (bits : Nat)
  deriving DecidableEq, Repr

/-! ## Xanik link (14_xanik_phy.md, 15_xanik_network.md) -/

/-- Receiver state (XK_STATUS). -/
inductive XkRx where
  | off | search | acquire | receive | busy | transmit
  deriving DecidableEq, Repr

/-- Membership state of the node (R829). -/
inductive XkNet where
  | detached | listen | joining | member | master
  deriving DecidableEq, Repr

/-- A frame to send or sent (R843): its destination (16 for broadcast), TYPE, SEQ, body, how often it was resent,
and the cycle it was last sent in. -/
structure XkFrame where
  dest : Nat
  kind : Nat
  seq : Nat
  body : List Byte
  retries : Nat := 0
  sent : Nat := 0
  deriving DecidableEq, Repr

/-- A frame asked of the transmitter: its start instant, the end of the window it must fit, and the frame (R820,
R840). -/
structure XkTx where
  start : Nat
  limit : Nat
  frame : XkFrame
  deriving DecidableEq, Repr

/-- What the node keeps for one other node: sequence numbers and windows (R845 to R850), tone maps by version,
newest first (R791), and the counts of XK_STATS. -/
structure XkPeer where
  txNext : Nat := 0
  txStarted : Bool := false
  out : List XkFrame := []
  rxNext : Nat := 0
  rxValid : Bool := false
  /-- held frames by SEQ: TYPE and body -/
  held : Tab (Nat × List Byte) := []
  txMaps : List (Nat × List Byte) := []
  rxMaps : List (Nat × List Byte) := []
  /-- consecutive frames that each needed a retry (R871) -/
  retryRun : Nat := 0
  /-- cycles in a row without its STATUS (R855), and whether the present cycle has had one -/
  missed : Nat := 0
  heard : Bool := false
  tx : Nat := 0
  rx : Nat := 0
  nRetries : Nat := 0
  nDropped : Nat := 0
  hdrCrc : Nat := 0
  payCrc : Nat := 0
  deriving DecidableEq, Repr

/-- An allreduce round open at the master (R860): key, parameters, the cycle it opened in, the parts received. -/
structure CollRound where
  key : Nat
  ctx : Nat
  op : Nat
  int32 : Bool
  bytes : Nat
  cycle : Nat
  /-- contributions by node -/
  parts : Tab (List Byte)
  closed : Bool := false
  /-- result copies sent -/
  copies : Nat := 0
  deriving DecidableEq, Repr

/-- A collective of this station (R571, R863): its key MODEL_ID × 256 + CTX, the stripe group of a GROUP context, the
tile-ops that arrived, the combined contribution, where the result goes, and the cycle it was sent in. -/
structure CollLocal where
  key : Nat
  scope : Nat
  op : Nat
  int32 : Bool
  bytes : Nat
  group : Nat
  ops : List Nat
  data : List Byte
  dsts : List Nat
  tag : Nat
  detail : Nat
  sent : Option Nat := none
  /-- every local participant has arrived, or a flush sent it as it was (R571, R575) -/
  out : Bool := false
  /-- participants that arrived in a part a flush sent earlier -/
  before : Nat := 0
  /-- fragments of the result copy being received -/
  got : List Byte := []
  deriving DecidableEq, Repr

/-- An XK_SOUND in progress (R870): its command, its PEER (16 for a broadcast), the addressed nodes that have not
answered, those whose map came, and the cycle its frame went out in. -/
structure Sounding where
  cmd : Nat
  dest : Nat
  wait : List Nat
  maps : Nat
  cycle : Nat
  deriving DecidableEq, Repr

/-- A model broadcast being sent (R864, R865): command, transfer number, the image bytes, fragment size, the offsets
still to send in this round, the rounds of resending so far, the recipients that have not reported 2 or 3, those that
did, the offsets reported missing, and the cycle the last fragment went out in. -/
structure BcastTx where
  cmd : Nat
  xfer : Nat
  data : List Byte
  frag : Nat
  queue : List Nat
  round : Nat
  waiting : List Nat
  loaded : Nat
  failed : Nat
  missing : List Nat
  lastCycle : Nat
  deriving DecidableEq, Repr

/-- A model broadcast being received (R865), by sender: the bytes by fragment offset. -/
structure BcastRx where
  xfer : Nat
  total : Nat
  frags : Tab (List Byte)
  /-- the offsets last reported missing -/
  asked : List Nat := []
  /-- the status reported, so that a later fragment of the same transfer changes nothing -/
  closed : Bool := false
  deriving DecidableEq, Repr

/-- An accepted header in progress (R772). -/
structure XkHeader where
  src : Nat
  bcast : Bool
  dst : Nat
  mapUsed : Bool
  mapVer : Nat
  sound : Bool
  length : Nat
  nsym : Nat
  cp : Bool
  kind : Nat
  retry : Bool
  seq : Nat
  cycle : Nat
  eligible : Bool
  deriving DecidableEq, Repr

/-- A complex value; its parts are fixed-point numbers. -/
structure Cx where
  re : Int
  im : Int
  deriving DecidableEq, Repr

/-- The Xanik front end, modem and network layer. -/
structure Xk where
  /-- receiver: state, present gain in 0.5 dB steps, frozen -/
  rx : XkRx := .off
  gain : Nat := 20
  frozen : Bool := false
  /-- start of ACQUIRE, qualification, receive stamp of the frame in progress, its computed end -/
  acqAt : Nat := 0
  qualAt : Option Nat := none
  stamp : Option Nat := none
  rxEnd : Nat := 0
  rssi : Nat := 0
  /-- XK_RX_CFG as it stood when the packet in progress was detected (R750) -/
  pktCfg : Nat := 0x2804
  /-- Q_THRESH as it stood then -/
  pktQ : Nat := 0x4000
  hdr : Option XkHeader := none
  /-- the channel estimate H_k of the used carriers (R806, R811) -/
  chan : List Cx := []
  /-- samples that the FFT periods have moved by since the long training: dropped less inserted (R813) -/
  shift : Int := 0
  /-- the carriers of the header symbol, phase corrected, and its bytes; none when it does not adapt H_k (R812, R814) -/
  first : Option (List Cx × List Byte) := none
  /-- end of the last frame sent or received, the start of its ramp-down extension (R819), and of a transmission -/
  lastEnd : Option Nat := none
  txEnd : Nat := 0
  /-- start of the ramp-up extension of the last frame sent -/
  txStart : Nat := 0
  /-- the frames asked of the transmitter, with their instants -/
  txQueue : List XkTx := []
  /-- the cycle whose slot this node has used (R841) -/
  slotCycle : Option Nat := none
  node : Nat := 0
  eligible : Bool := false
  cp : Bool := false
  cycleLines : Nat := 1
  stopPeriod : Nat := 200
  net : XkNet := .detached
  master : Nat := 0
  present : Nat := 0
  timeMode : Bool := false
  slotUs : Nat := 0
  cycle : Nat := 0
  /-- the last C and the interval before it (R831, R853) -/
  lastC : Option Nat := none
  interval : Nat := 0
  /-- next anchor index k of R831 -/
  anchor : Nat := 0
  /-- the successor named by the last beacon (R853) -/
  succ : Option Nat := none
  newNode : Option Nat := none
  peers : Tab XkPeer := []
  bcastSeq : Nat := 0
  queue : List XkFrame := []
  /-- joining: end of the listen period, generator, retries, the cycle of the next JOIN -/
  listenEnd : Nat := 0
  lfsr : Nat := 0xACE1
  joinTries : Nat := 0
  joinCycle : Option Nat := none
  /-- nodes whose JOIN the master accepted -/
  admits : List (Nat × Bool) := []
  /-- eligibility of the nodes as far as their JOIN told it -/
  eligibles : Nat := 0
  leaving : Bool := false
  /-- nodes that leave at the next beacon, bit n for node n (R855) -/
  leavers : Nat := 0
  soundings : List Sounding := []
  far : List FarWait := []
  /-- lines that arrived for engines, by requester and line -/
  got : Tab Reply := []
  rounds : List CollRound := []
  colls : List CollLocal := []
  /-- COLLECTIVE tile-ops whose reduction lines wait for a way (R572), oldest first -/
  redWait : List Nat := []
  bcastTx : List BcastTx := []
  bcastRx : Tab BcastRx := []
  xferNext : Nat := 0
  /-- relays sent (command, node, cycle) and relays queued here (source, request) -/
  relays : List (Nat × Nat × Nat) := []
  relayIn : List (Nat × List Byte) := []
  relayBusy : Option Nat := none
  deriving DecidableEq, Repr

/-! ## Power, reset and boot (17_power_reset_boot.md, 18_electrical_package.md) -/

/-- What the power monitor and the reset logic keep. -/
structure Power where
  /-- domains 0..67 and 85..95; the bank groups are in `State.groups` -/
  doms : Tab Domain := []
  /-- Tj in 0.1 °C, and whether TJ_WARN may log again (R914) -/
  tj : Int := 0
  /-- the highest since the last reset, once the sensors have been read -/
  tjMax : Option Int := none
  /-- since when a sensor has read 125 °C or more (R918) -/
  hotSince : Option Nat := none
  /-- instants of the last throttle step and the last VID step -/
  lastThrottle : Nat := 0
  lastVid : Nat := 0
  warnArmed : Bool := true
  /-- a thermal trip holds the device in reset (R918) -/
  tripHold : Bool := false
  /-- pins held low -/
  por : Bool := false
  sysRst : Bool := false
  perst : Bool := false
  trst : Bool := false
  /-- the PCIe link is in L0, Bus Master Enable, Max Payload and Max Read Request Size -/
  linkUp : Bool := false
  busMaster : Bool := false
  maxPayload : Nat := 128
  maxRead : Nat := 512
  /-- rate and lanes of the link, 0 without one; the function is in D3hot; ASPM L1 is enabled (R41) -/
  linkRate : Nat := 0
  linkLanes : Nat := 0
  d3hot : Bool := false
  aspmL1 : Bool := false
  /-- AER uncorrectable error status -/
  aer : Nat := 0
  /-- boot has started since the last reset -/
  started : Bool := false
  /-- boot waits at stage 0x4 for the PCIe link, with what its self-tests found -/
  bootWait : Option BootTests := none
  /-- a SYS_RESET command waits for its 1 ms -/
  sysResetAt : Option Nat := none
  deriving DecidableEq, Repr

/-- JTAG (R982, R984) and the debug module behind it (R641): the selected instruction and the boundary and bypass registers. -/
structure Jtag where
  /-- instruction register, 5 bits; IDCODE at test-logic reset -/
  ir : Nat := 1
  /-- boundary scan register, 135 cells -/
  boundary : Nat := 0
  /-- registers of the debug module as written, by DMI address -/
  dmi : Tab Word := []
  /-- halt requests of the debug module, bit i for core i -/
  haltReq : Nat := 0
  /-- the sticky status of the debug transport -/
  dmiErr : Nat := 0
  deriving DecidableEq, Repr

/-- The supervisors (R677 to R686). -/
structure Sup where
  /-- a supervisor held in reset after it failed (R685) -/
  held : Option Nat := none
  /-- the last heartbeat of the active one -/
  lastHb : Nat := 0
  /-- the active one is declared failed and takeover runs -/
  failed : Bool := false
  /-- planned hand-over: its command -/
  handover : Option Nat := none
  /-- doorbells counted, for their order -/
  bells : Nat := 0
  /-- next identity of a long command, and the running ones -/
  nextCmd : Nat := 0
  longs : Tab LongCmd := []
  /-- staged firmware: slot, VERSION -/
  staged : Option (Nat × Nat) := none
  /-- configuration items in force and staged, by ITEM × 256 + INDEX -/
  cfg : Tab (List Byte) := []
  cfgStaged : Tab (List Byte) := []
  /-- the copy of the store in force (0 A, 1 B), and its SEQ if there is one -/
  cfgCopy : Nat := 0
  cfgSeq : Option Nat := none
  /-- the firmware slot that runs -/
  fwSlot : Nat := 0
  deriving DecidableEq, Repr

end Sys2Proof.Machine
end

