-- ==== Sys2Proof/Machine/RegTable.lean ====
section
/-! DEFINITION. The register cards of spec/ (the sections "Registers of this chapter" of 01..17) as one table of
rows, block by block in the order of the BAR0 map of R42: name, offset, the two strides and counts of an indexed
register, reset value, and the masks of its RW, W1C and WO fields. Every bit in no mask is RO or RSV. -/

namespace Sys2Proof.Machine

/-- One register card. `base + i * stride1 + j * stride2` are its offsets, for `i < count1`, `j < count2`. -/
structure RegCard where
  name : String
  base : Nat
  stride1 : Nat
  count1 : Nat
  stride2 : Nat
  count2 : Nat
  reset : Nat
  rw : Nat
  w1c : Nat
  wo : Nat
  banked : Bool
  deriving DecidableEq, Repr

/-- The cards of the GLB block. (DESIGN CHOICE, log entry 2) -/
def cardsGLB : List RegCard :=
  [⟨"GLB_ID", 0x0, 0x1, 1, 0x1, 1, 0x48161eb3, 0x0, 0x0, 0x0, false⟩,
  ⟨"GLB_STEPPING", 0x4, 0x1, 1, 0x1, 1, 0x2, 0x0, 0x0, 0x0, false⟩,
  ⟨"GLB_FW_VERSION", 0x8, 0x1, 1, 0x1, 1, 0x0, 0x0, 0x0, 0x0, false⟩,
  ⟨"GLB_GRADE", 0xc, 0x1, 1, 0x1, 1, 0x0, 0x0, 0x0, 0x0, false⟩,
  ⟨"GLB_NODE", 0x10, 0x1, 1, 0x1, 1, 0x0, 0x0, 0x0, 0x0, false⟩,
  ⟨"GLB_STATUS", 0x20, 0x1, 1, 0x1, 1, 0x0, 0x0, 0x0, 0x0, false⟩,
  ⟨"GLB_SCRATCH", 0x30, 0x1, 1, 0x1, 1, 0x0, 0xffffffff, 0x0, 0x0, false⟩,
  ⟨"GLB_UID_LO", 0x40, 0x1, 1, 0x1, 1, 0x0, 0x0, 0x0, 0x0, false⟩,
  ⟨"GLB_UID_HI", 0x44, 0x1, 1, 0x1, 1, 0x0, 0x0, 0x0, 0x0, false⟩,
  ⟨"GLB_SUP_HB", 0x50, 0x1, 1, 0x1, 1, 0x0, 0x0, 0x0, 0x0, false⟩,
  ⟨"GLB_SUP_EVENT", 0x54, 0x1, 1, 0x1, 1, 0x0, 0x0, 0xf, 0x0, false⟩,
  ⟨"GLB_SUP_EVENT_EN", 0x58, 0x1, 1, 0x1, 1, 0x0, 0xf, 0x0, 0x0, false⟩,
  ⟨"TC_EVENT", 0x100, 0x1, 1, 0x1, 1, 0x0, 0x0, 0x7, 0x0, false⟩,
  ⟨"TC_EVENT_EN", 0x104, 0x1, 1, 0x1, 1, 0x0, 0x7, 0x0, 0x0, false⟩,
  ⟨"TC_STATUS", 0x108, 0x1, 1, 0x1, 1, 0x0, 0x0, 0x0, 0x0, false⟩,
  ⟨"TC_KEEP_DEMOTE", 0x10c, 0x1, 1, 0x1, 1, 0x0, 0xffffffff, 0x0, 0x0, false⟩,
  ⟨"TC_OP_ADDR", 0x110, 0x1, 1, 0x1, 1, 0x0, 0x3fffffc0, 0x0, 0x0, true⟩,
  ⟨"TC_OP_LEN", 0x114, 0x1, 1, 0x1, 1, 0x0, 0x1ffffff, 0x0, 0x0, true⟩,
  ⟨"TC_OP_MASK_LO", 0x118, 0x1, 1, 0x1, 1, 0x0, 0xffffffff, 0x0, 0x0, true⟩,
  ⟨"TC_OP_MASK_HI", 0x11c, 0x1, 1, 0x1, 1, 0x0, 0xffffffff, 0x0, 0x0, true⟩,
  ⟨"TC_OP_CTRL", 0x120, 0x1, 1, 0x1, 1, 0x0, 0x0, 0x0, 0x80000037, true⟩,
  ⟨"TC_OP_RES", 0x124, 0x1, 1, 0x1, 1, 0x0, 0x0, 0x0, 0x0, true⟩,
  ⟨"FC_CFG", 0x200, 0x1, 1, 0x1, 1, 0x0, 0x0, 0x0, 0x0, false⟩,
  ⟨"FC_EVENT", 0x204, 0x1, 1, 0x1, 1, 0x0, 0x0, 0x7, 0x0, false⟩,
  ⟨"FC_EVENT_EN", 0x208, 0x1, 1, 0x1, 1, 0x0, 0x7, 0x0, 0x0, false⟩,
  ⟨"FC_STATUS", 0x20c, 0x1, 1, 0x1, 1, 0x0, 0x0, 0x0, 0x0, false⟩,
  ⟨"FC_KEEP_DEMOTE", 0x210, 0x1, 1, 0x1, 1, 0x0, 0xffffffff, 0x0, 0x0, false⟩,
  ⟨"FC_RED_WAIT", 0x214, 0x1, 1, 0x1, 1, 0x0, 0xffffffff, 0x0, 0x0, false⟩,
  ⟨"FC_OP_ADDR_LO", 0x220, 0x1, 1, 0x1, 1, 0x0, 0xffffff00, 0x0, 0x0, true⟩,
  ⟨"FC_OP_ADDR_HI", 0x224, 0x1, 1, 0x1, 1, 0x0, 0xff, 0x0, 0x0, true⟩] ++ [
  ⟨"FC_OP_LEN", 0x228, 0x1, 1, 0x1, 1, 0x0, 0x7fffff, 0x0, 0x0, true⟩,
  ⟨"FC_OP_CTRL", 0x22c, 0x1, 1, 0x1, 1, 0x0, 0x0, 0x0, 0x80000037, true⟩,
  ⟨"FC_OP_RES", 0x230, 0x1, 1, 0x1, 1, 0x0, 0x0, 0x0, 0x0, true⟩,
  ⟨"GLB_TR_STATUS", 0x300, 0x1, 1, 0x1, 1, 0x0, 0x0, 0x0, 0x0, false⟩,
  ⟨"GLB_TR_EVENT", 0x304, 0x1, 1, 0x1, 1, 0x0, 0x0, 0x7ffff, 0x0, false⟩,
  ⟨"GLB_TR_EVENT_EN", 0x308, 0x1, 1, 0x1, 1, 0x0, 0x7ffff, 0x0, 0x0, false⟩,
  ⟨"GLB_TR_EV_DENIED", 0x30c, 0x1, 1, 0x1, 1, 0x0, 0xffffffff, 0x0, 0x0, false⟩,
  ⟨"GLB_BWR_c_CFG", 0x400, 0x10, 5, 0x1, 1, 0x80000000, 0x0, 0x0, 0x0, false⟩,
  ⟨"GLB_BWR_c_BYTES_LO", 0x404, 0x10, 5, 0x1, 1, 0x0, 0x0, 0x0, 0x0, false⟩,
  ⟨"GLB_BWR_c_BYTES_HI", 0x408, 0x10, 5, 0x1, 1, 0x0, 0x0, 0x0, 0x0, false⟩,
  ⟨"GLB_BWR_c_STALL", 0x40c, 0x10, 5, 0x1, 1, 0x0, 0xffffffff, 0x0, 0x0, false⟩,
  ⟨"GLB_CORE_MAP_k", 0x500, 0x4, 16, 0x1, 1, 0x0, 0x0, 0x0, 0x0, false⟩,
  ⟨"GLB_PC_STATE_j", 0x540, 0x4, 9, 0x1, 1, 0x0, 0x0, 0x0, 0x0, false⟩,
  ⟨"GLB_CORE_EVENT", 0x570, 0x1, 1, 0x1, 1, 0x0, 0x0, 0x3f, 0x0, false⟩,
  ⟨"GLB_CORE_EVENT_EN", 0x574, 0x1, 1, 0x1, 1, 0x0, 0x3f, 0x0, 0x0, false⟩,
  ⟨"GLB_EPI_SAT", 0x578, 0x1, 1, 0x1, 1, 0x0, 0xffffffff, 0x0, 0x0, false⟩,
  ⟨"GLB_NS_CE", 0x57c, 0x1, 1, 0x1, 1, 0x0, 0xffffffff, 0x0, 0x0, false⟩,
  ⟨"GLB_SFU_EVENT", 0x600, 0x1, 1, 0x1, 1, 0x0, 0x0, 0xf, 0x0, false⟩,
  ⟨"GLB_SFU_EVENT_EN", 0x604, 0x1, 1, 0x1, 1, 0x0, 0xf, 0x0, 0x0, false⟩,
  ⟨"GLB_SFU_DOMAIN", 0x608, 0x1, 1, 0x1, 1, 0x0, 0xffffffff, 0x0, 0x0, false⟩,
  ⟨"GLB_NORM_CLAMP", 0x60c, 0x1, 1, 0x1, 1, 0x0, 0xffffffff, 0x0, 0x0, false⟩,
  ⟨"GLB_SCHED_STATUS", 0x700, 0x1, 1, 0x1, 1, 0x0, 0x0, 0x0, 0x0, false⟩,
  ⟨"GLB_SCHED_EVENT", 0x704, 0x1, 1, 0x1, 1, 0x0, 0x0, 0x1f, 0x0, false⟩,
  ⟨"GLB_SCHED_EVENT_EN", 0x708, 0x1, 1, 0x1, 1, 0x0, 0x1f, 0x0, 0x0, false⟩,
  ⟨"GLB_EPOCH_CANCEL", 0x710, 0x1, 1, 0x1, 1, 0x0, 0x0, 0x0, 0x800f00ff, false⟩,
  ⟨"GLB_CS_s_STATUS", 0x740, 0x4, 16, 0x1, 1, 0x0, 0x0, 0x0, 0x0, false⟩,
  ⟨"GLB_SQUASHED", 0x780, 0x1, 1, 0x1, 1, 0x0, 0xffffffff, 0x0, 0x0, false⟩,
  ⟨"GLB_EPOCH_CONFIRMS", 0x784, 0x1, 1, 0x1, 1, 0x0, 0xffffffff, 0x0, 0x0, false⟩,
  ⟨"GLB_EPOCH_CANCELS", 0x788, 0x1, 1, 0x1, 1, 0x0, 0xffffffff, 0x0, 0x0, false⟩,
  ⟨"GLB_TASK_ABORTS", 0x78c, 0x1, 1, 0x1, 1, 0x0, 0xffffffff, 0x0, 0x0, false⟩] ++ [
  ⟨"DS_GROUPS", 0x800, 0x1, 1, 0x1, 1, 0x0, 0x0, 0x0, 0x0, false⟩,
  ⟨"DS_SPARE_GROUP", 0x804, 0x1, 1, 0x1, 1, 0x0, 0x0, 0x0, 0x0, false⟩,
  ⟨"DS_EVENT", 0x810, 0x1, 1, 0x1, 1, 0x0, 0x0, 0x3f, 0x0, false⟩,
  ⟨"DS_EVENT_EN", 0x814, 0x1, 1, 0x1, 1, 0x0, 0x3f, 0x0, 0x0, false⟩,
  ⟨"DS_CE_TOTAL", 0x818, 0x1, 1, 0x1, 1, 0x0, 0xffffffff, 0x0, 0x0, false⟩,
  ⟨"DS_UE_TOTAL", 0x81c, 0x1, 1, 0x1, 1, 0x0, 0xffffffff, 0x0, 0x0, false⟩,
  ⟨"DS_SCRUB_STATUS", 0x820, 0x1, 1, 0x1, 1, 0x18000000, 0x0, 0x0, 0x0, false⟩,
  ⟨"DS_SCRUB_POS", 0x824, 0x1, 1, 0x1, 1, 0x0, 0x0, 0x0, 0x0, false⟩,
  ⟨"DS_ALLOC", 0x830, 0x1, 1, 0x1, 1, 0x0, 0x0, 0x0, 0x0, false⟩,
  ⟨"DS_FREE_UNITS", 0x834, 0x1, 1, 0x1, 1, 0x0, 0x0, 0x0, 0x0, false⟩,
  ⟨"DS_LARGEST_FREE", 0x838, 0x1, 1, 0x1, 1, 0x0, 0x0, 0x0, 0x0, false⟩,
  ⟨"DS_LAT_MAX", 0x840, 0x1, 1, 0x1, 1, 0x0, 0x3fff, 0x0, 0x0, false⟩,
  ⟨"DS_SEM_OP", 0x880, 0x1, 1, 0x1, 1, 0x0, 0x0, 0x0, 0xffffffff, true⟩,
  ⟨"DS_SEM_RES", 0x884, 0x1, 1, 0x1, 1, 0x0, 0x0, 0x0, 0x0, true⟩,
  ⟨"DS_CE_SAT_k", 0x900, 0x4, 9, 0x1, 1, 0x0, 0x0, 0xffffffff, 0x0, false⟩,
  ⟨"DS_CE_PAIR_j", 0xc00, 0x4, 136, 0x1, 1, 0x0, 0xffffffff, 0x0, 0x0, false⟩]

/-- The cards of the MB block. -/
def cardsMB : List RegCard :=
  [⟨"MB_n_DOORBELL", 0x1100, 0x200, 8, 0x1, 1, 0x0, 0x0, 0x0, 0x1, false⟩,
  ⟨"MB_n_STATUS", 0x1104, 0x200, 8, 0x1, 1, 0x0, 0x0, 0x78, 0x0, false⟩,
  ⟨"MB_n_SEQ", 0x1108, 0x200, 8, 0x1, 1, 0xffff, 0x0, 0x0, 0x0, false⟩,
  ⟨"MB_n_RIGHTS", 0x110c, 0x200, 8, 0x1, 1, 0x0, 0x0, 0x0, 0x0, false⟩,
  ⟨"MB_n_NOTE", 0x1110, 0x200, 8, 0x1, 1, 0x0, 0x0, 0x0, 0x0, false⟩]

/-- The cards of the IRQ block. -/
def cardsIRQ : List RegCard :=
  [⟨"IRQ_PEND_LO", 0x2000, 0x1, 1, 0x1, 1, 0x0, 0x0, 0x0, 0x0, false⟩,
  ⟨"IRQ_PEND_HI", 0x2004, 0x1, 1, 0x1, 1, 0x0, 0x0, 0x0, 0x0, false⟩,
  ⟨"IRQ_MASK_LO", 0x2008, 0x1, 1, 0x1, 1, 0xffffffff, 0xffffffff, 0x0, 0x0, false⟩,
  ⟨"IRQ_MASK_HI", 0x200c, 0x1, 1, 0x1, 1, 0xffffffff, 0xffffffff, 0x0, 0x0, false⟩,
  ⟨"IRQ_EOI", 0x2010, 0x1, 1, 0x1, 1, 0x0, 0x0, 0x0, 0x3f, false⟩,
  ⟨"IRQ_HOST_EV", 0x2020, 0x1, 1, 0x1, 1, 0x0, 0x0, 0xf, 0x0, false⟩,
  ⟨"IRQ_HOST_EV_EN", 0x2024, 0x1, 1, 0x1, 1, 0x0, 0xf, 0x0, 0x0, false⟩,
  ⟨"IRQ_ROUTE_s", 0x2100, 0x4, 64, 0x1, 1, 0x0, 0x3f, 0x0, 0x0, false⟩,
  ⟨"IRQ_NQ_BASE", 0x2200, 0x1, 1, 0x1, 1, 0x0, 0x0, 0x0, 0x0, false⟩,
  ⟨"IRQ_NQ_HEAD", 0x2204, 0x1, 1, 0x1, 1, 0x0, 0x0, 0x0, 0x0, false⟩,
  ⟨"IRQ_NQ_TAIL", 0x2208, 0x1, 1, 0x1, 1, 0x0, 0xff, 0x0, 0x0, false⟩,
  ⟨"IRQ_NQ_STATUS", 0x220c, 0x1, 1, 0x1, 1, 0x0, 0x0, 0x7, 0x0, false⟩,
  ⟨"IRQ_NQ_LOST", 0x2210, 0x1, 1, 0x1, 1, 0x0, 0xffffffff, 0x0, 0x0, false⟩]

/-- The cards of the LT block. -/
def cardsLT : List RegCard :=
  [⟨"LT_LX_LO", 0x3000, 0x1, 1, 0x1, 1, 0x0, 0x0, 0x0, 0x0, false⟩,
  ⟨"LT_LX_HI", 0x3004, 0x1, 1, 0x1, 1, 0x100, 0x0, 0x0, 0x0, false⟩,
  ⟨"LT_TS_LO", 0x3008, 0x1, 1, 0x1, 1, 0x0, 0x0, 0x0, 0x0, false⟩,
  ⟨"LT_TS_HI", 0x300c, 0x1, 1, 0x1, 1, 0x0, 0x0, 0x0, 0x0, false⟩,
  ⟨"LT_HWM_LO", 0x3010, 0x1, 1, 0x1, 1, 0x0, 0x0, 0x0, 0x0, false⟩,
  ⟨"LT_HWM_HI", 0x3014, 0x1, 1, 0x1, 1, 0x100, 0x0, 0x0, 0x0, false⟩,
  ⟨"LT_REPEAT", 0x3018, 0x1, 1, 0x1, 1, 0x0, 0x0, 0x0, 0x0, false⟩,
  ⟨"LT_VELOCITY", 0x3028, 0x1, 1, 0x1, 1, 0x0, 0x0, 0x0, 0x0, false⟩,
  ⟨"LT_STATUS", 0x3030, 0x1, 1, 0x1, 1, 0x0, 0x0, 0x0, 0x0, false⟩,
  ⟨"LT_EVENT", 0x3034, 0x1, 1, 0x1, 1, 0x0, 0x0, 0xfffff, 0x0, false⟩,
  ⟨"LT_EVENT_EN", 0x3038, 0x1, 1, 0x1, 1, 0x0, 0xfffff, 0x0, 0x0, false⟩,
  ⟨"LT_ENC_n_COUNT", 0x3040, 0x10, 4, 0x1, 1, 0x0, 0x0, 0x0, 0x0, false⟩,
  ⟨"LT_ENC_n_DIAG", 0x3044, 0x10, 4, 0x1, 1, 0x0, 0x0, 0x0, 0x0, false⟩,
  ⟨"LT_MAINS_PHASE", 0x3080, 0x1, 1, 0x1, 1, 0x0, 0x0, 0x0, 0x0, false⟩,
  ⟨"LT_MAINS_PERIOD", 0x3084, 0x1, 1, 0x1, 1, 0x0, 0x0, 0x0, 0x0, false⟩,
  ⟨"LT_CAL_INT", 0x3090, 0x1, 1, 0x1, 1, 0x0, 0x0, 0xffffffff, 0x0, false⟩,
  ⟨"LT_CAL_INT_EN", 0x3094, 0x1, 1, 0x1, 1, 0x0, 0xffffffff, 0x0, 0x0, false⟩,
  ⟨"LT_CAL_LATE", 0x3098, 0x1, 1, 0x1, 1, 0x0, 0xffffffff, 0x0, 0x0, false⟩,
  ⟨"LT_CAL_CATCHUP", 0x309c, 0x1, 1, 0x1, 1, 0x0, 0xffffffff, 0x0, 0x0, false⟩,
  ⟨"LT_CAL_SKIP", 0x30a0, 0x1, 1, 0x1, 1, 0x0, 0xffffffff, 0x0, 0x0, false⟩,
  ⟨"LT_Z_LATCH_LO", 0x30b0, 0x1, 1, 0x1, 1, 0x0, 0x0, 0x0, 0x0, false⟩,
  ⟨"LT_Z_LATCH_HI", 0x30b4, 0x1, 1, 0x1, 1, 0x0, 0x0, 0x0, 0x0, false⟩]

/-- The cards of the DMA block. -/
def cardsDMA : List RegCard :=
  [⟨"DMA_n_SRC_LO", 0x4000, 0x100, 16, 0x1, 1, 0x0, 0xffffffff, 0x0, 0x0, false⟩,
  ⟨"DMA_n_SRC_HI", 0x4004, 0x100, 16, 0x1, 1, 0x0, 0xffffffff, 0x0, 0x0, false⟩,
  ⟨"DMA_n_DST_LO", 0x4008, 0x100, 16, 0x1, 1, 0x0, 0xffffffff, 0x0, 0x0, false⟩,
  ⟨"DMA_n_DST_HI", 0x400c, 0x100, 16, 0x1, 1, 0x0, 0xffffffff, 0x0, 0x0, false⟩,
  ⟨"DMA_n_LEN", 0x4010, 0x100, 16, 0x1, 1, 0x0, 0x1ffffff, 0x0, 0x0, false⟩,
  ⟨"DMA_n_LINES", 0x4014, 0x100, 16, 0x1, 1, 0x0, 0x1ffff, 0x0, 0x0, false⟩,
  ⟨"DMA_n_SSTRIDE", 0x4018, 0x100, 16, 0x1, 1, 0x0, 0xffffffff, 0x0, 0x0, false⟩,
  ⟨"DMA_n_DSTRIDE", 0x401c, 0x100, 16, 0x1, 1, 0x0, 0xffffffff, 0x0, 0x0, false⟩,
  ⟨"DMA_n_CFG", 0x4020, 0x100, 16, 0x1, 1, 0x0, 0xffff, 0x0, 0x0, false⟩,
  ⟨"DMA_n_BURST", 0x4024, 0x100, 16, 0x1, 1, 0x10000, 0x1ffff, 0x0, 0x0, false⟩,
  ⟨"DMA_n_CRCA_LO", 0x4028, 0x100, 16, 0x1, 1, 0x0, 0xffffffff, 0x0, 0x0, false⟩,
  ⟨"DMA_n_CRCA_HI", 0x402c, 0x100, 16, 0x1, 1, 0x0, 0xffffffff, 0x0, 0x0, false⟩,
  ⟨"DMA_n_ACT_00", 0x4040, 0x100, 16, 0x1, 1, 0x0, 0x0, 0x0, 0x0, false⟩,
  ⟨"DMA_n_ACT_04", 0x4044, 0x100, 16, 0x1, 1, 0x0, 0x0, 0x0, 0x0, false⟩,
  ⟨"DMA_n_ACT_08", 0x4048, 0x100, 16, 0x1, 1, 0x0, 0x0, 0x0, 0x0, false⟩,
  ⟨"DMA_n_ACT_0c", 0x404c, 0x100, 16, 0x1, 1, 0x0, 0x0, 0x0, 0x0, false⟩,
  ⟨"DMA_n_ACT_10", 0x4050, 0x100, 16, 0x1, 1, 0x0, 0x0, 0x0, 0x0, false⟩,
  ⟨"DMA_n_ACT_14", 0x4054, 0x100, 16, 0x1, 1, 0x0, 0x0, 0x0, 0x0, false⟩,
  ⟨"DMA_n_ACT_18", 0x4058, 0x100, 16, 0x1, 1, 0x0, 0x0, 0x0, 0x0, false⟩,
  ⟨"DMA_n_ACT_1c", 0x405c, 0x100, 16, 0x1, 1, 0x0, 0x0, 0x0, 0x0, false⟩,
  ⟨"DMA_n_ACT_20", 0x4060, 0x100, 16, 0x1, 1, 0x0, 0x0, 0x0, 0x0, false⟩,
  ⟨"DMA_n_ACT_24", 0x4064, 0x100, 16, 0x1, 1, 0x10000, 0x0, 0x0, 0x0, false⟩,
  ⟨"DMA_n_ACT_28", 0x4068, 0x100, 16, 0x1, 1, 0x0, 0x0, 0x0, 0x0, false⟩,
  ⟨"DMA_n_ACT_2c", 0x406c, 0x100, 16, 0x1, 1, 0x0, 0x0, 0x0, 0x0, false⟩,
  ⟨"DMA_n_CTRL", 0x4080, 0x100, 16, 0x1, 1, 0x0, 0x0, 0x0, 0x7, false⟩,
  ⟨"DMA_n_STATUS", 0x4084, 0x100, 16, 0x1, 1, 0x0, 0x0, 0x0, 0x0, false⟩,
  ⟨"DMA_n_PROGRESS", 0x4088, 0x100, 16, 0x1, 1, 0x0, 0x0, 0x0, 0x0, false⟩,
  ⟨"DMA_n_CRC", 0x408c, 0x100, 16, 0x1, 1, 0x0, 0x0, 0x0, 0x0, false⟩,
  ⟨"DMA_n_EVENT", 0x4090, 0x100, 16, 0x1, 1, 0x0, 0x0, 0x3f, 0x0, false⟩,
  ⟨"DMA_n_EVENT_EN", 0x4094, 0x100, 16, 0x1, 1, 0x0, 0x3e, 0x0, 0x0, false⟩] ++ [
  ⟨"DMA_n_ERR_ADDR_LO", 0x4098, 0x100, 16, 0x1, 1, 0x0, 0x0, 0x0, 0x0, false⟩,
  ⟨"DMA_n_ERR_ADDR_HI", 0x409c, 0x100, 16, 0x1, 1, 0x0, 0x0, 0x0, 0x0, false⟩,
  ⟨"DMA_n_REQ", 0x40a0, 0x100, 16, 0x1, 1, 0x0, 0x0, 0x0, 0x0, false⟩,
  ⟨"DMA_ACTIVE", 0x5000, 0x1, 1, 0x1, 1, 0x0, 0x0, 0x0, 0x0, false⟩,
  ⟨"DMA_INT_SUMMARY", 0x5004, 0x1, 1, 0x1, 1, 0x0, 0x0, 0x0, 0x0, false⟩,
  ⟨"DMA_REQ_SW", 0x5010, 0x1, 1, 0x1, 1, 0x0, 0x0, 0x0, 0xffffffff, false⟩,
  ⟨"DMA_REQ_SRC_j", 0x5100, 0x4, 32, 0x1, 1, 0x0, 0x1ff, 0x0, 0x0, false⟩]

/-- The cards of the FLT block. -/
def cardsFLT : List RegCard :=
  [⟨"FLT_LOG_HEAD", 0x6000, 0x1, 1, 0x1, 1, 0x0, 0x0, 0x0, 0x0, false⟩,
  ⟨"FLT_LOG_TAIL", 0x6004, 0x1, 1, 0x1, 1, 0x0, 0xffffffff, 0x0, 0x0, false⟩,
  ⟨"FLT_LOG_LOST", 0x6008, 0x1, 1, 0x1, 1, 0x0, 0xffffffff, 0x0, 0x0, false⟩,
  ⟨"FLT_EVENT", 0x6010, 0x1, 1, 0x1, 1, 0x0, 0x0, 0x7ff, 0x0, false⟩,
  ⟨"FLT_EVENT_EN", 0x6014, 0x1, 1, 0x1, 1, 0x0, 0x7ff, 0x0, 0x0, false⟩,
  ⟨"FLT_CLASS_c_COUNT", 0x6020, 0x4, 9, 0x1, 1, 0x0, 0xffffffff, 0x0, 0x0, false⟩,
  ⟨"FLT_REVOKES", 0x6050, 0x1, 1, 0x1, 1, 0x0, 0xffffffff, 0x0, 0x0, false⟩,
  ⟨"FLT_REVOKE_LAST", 0x6054, 0x1, 1, 0x1, 1, 0x0, 0x0, 0x0, 0x0, false⟩,
  ⟨"FLT_LOG_SEL", 0x6100, 0x1, 1, 0x1, 1, 0x0, 0x0, 0x0, 0xffffffff, true⟩,
  ⟨"FLT_LOG_RES", 0x6104, 0x1, 1, 0x1, 1, 0x0, 0x0, 0x0, 0x0, true⟩,
  ⟨"FLT_LOG_WIN_w", 0x6120, 0x4, 8, 0x1, 1, 0x0, 0x0, 0x0, 0x0, true⟩]

/-- The cards of the PMC block. -/
def cardsPMC : List RegCard :=
  [⟨"PMC_CS_s_BUSY_LO", 0x7000, 0x10, 16, 0x1, 1, 0x0, 0x0, 0x0, 0x0, false⟩,
  ⟨"PMC_CS_s_BUSY_HI", 0x7004, 0x10, 16, 0x1, 1, 0x0, 0x0, 0x80000000, 0x0, false⟩,
  ⟨"PMC_CS_s_BUBBLE_LO", 0x7008, 0x10, 16, 0x1, 1, 0x0, 0x0, 0x0, 0x0, false⟩,
  ⟨"PMC_CS_s_BUBBLE_HI", 0x700c, 0x10, 16, 0x1, 1, 0x0, 0x0, 0x80000000, 0x0, false⟩,
  ⟨"TC_h_c_LOOK_LO", 0x7100, 0x10, 6, 0x1, 1, 0x0, 0x0, 0x0, 0x0, false⟩,
  ⟨"TC_h_c_LOOK_HI", 0x7104, 0x10, 6, 0x1, 1, 0x0, 0x0, 0x80000000, 0x0, false⟩,
  ⟨"TC_h_c_HIT_LO", 0x7108, 0x10, 6, 0x1, 1, 0x0, 0x0, 0x0, 0x0, false⟩,
  ⟨"TC_h_c_HIT_HI", 0x710c, 0x10, 6, 0x1, 1, 0x0, 0x0, 0x80000000, 0x0, false⟩,
  ⟨"FC_h_LOOK_LO", 0x7180, 0x10, 3, 0x1, 1, 0x0, 0x0, 0x0, 0x0, false⟩,
  ⟨"FC_h_LOOK_HI", 0x7184, 0x10, 3, 0x1, 1, 0x0, 0x0, 0x80000000, 0x0, false⟩,
  ⟨"FC_h_HIT_LO", 0x7188, 0x10, 3, 0x1, 1, 0x0, 0x0, 0x0, 0x0, false⟩,
  ⟨"FC_h_HIT_HI", 0x718c, 0x10, 3, 0x1, 1, 0x0, 0x0, 0x80000000, 0x0, false⟩]

/-- The cards of the PWR block. -/
def cardsPWR : List RegCard :=
  [⟨"PWR_STATUS", 0x8000, 0x1, 1, 0x1, 1, 0x0, 0x0, 0x0, 0x0, false⟩,
  ⟨"PWR_EVENT", 0x8004, 0x1, 1, 0x1, 1, 0x0, 0x0, 0x3f, 0x0, false⟩,
  ⟨"PWR_EVENT_EN", 0x8008, 0x1, 1, 0x1, 1, 0x0, 0x3f, 0x0, 0x0, false⟩,
  ⟨"PWR_TJ", 0x800c, 0x1, 1, 0x1, 1, 0x0, 0x0, 0x0, 0x0, false⟩,
  ⟨"PWR_THERM_CFG", 0x8010, 0x1, 1, 0x1, 1, 0x0, 0x0, 0x0, 0x0, false⟩,
  ⟨"PWR_VID", 0x8014, 0x1, 1, 0x1, 1, 0x2ee000a, 0x0, 0x0, 0x0, false⟩,
  ⟨"PWR_POWER", 0x8018, 0x1, 1, 0x1, 1, 0x0, 0x0, 0x0, 0x0, false⟩,
  ⟨"PWR_RAIL", 0x801c, 0x1, 1, 0x1, 1, 0x0, 0x0, 0x0, 0x0, false⟩,
  ⟨"PWR_RESET_CAUSE", 0x8020, 0x1, 1, 0x1, 1, 0x1, 0x0, 0x7d, 0x0, false⟩,
  ⟨"PWR_BOOT", 0x8024, 0x1, 1, 0x1, 1, 0x0, 0x0, 0x0, 0x0, false⟩,
  ⟨"PWR_DOM_j", 0x8040, 0x4, 6, 0x1, 1, 0x0, 0x0, 0x0, 0x0, false⟩]

/-- The cards of the XK block. -/
def cardsXK : List RegCard :=
  [⟨"XK_STATUS", 0x9000, 0x1, 1, 0x1, 1, 0x0, 0x0, 0x0, 0x0, false⟩,
  ⟨"XK_EVENT", 0x9004, 0x1, 1, 0x1, 1, 0x0, 0x0, 0xff, 0x0, false⟩,
  ⟨"XK_EVENT_EN", 0x9008, 0x1, 1, 0x1, 1, 0x0, 0xff, 0x0, 0x0, false⟩,
  ⟨"XK_TX_CFG", 0x900c, 0x1, 1, 0x1, 1, 0xc03, 0x1f0f, 0x0, 0x0, false⟩,
  ⟨"XK_RX_CFG", 0x9010, 0x1, 1, 0x1, 1, 0x2804, 0x0, 0x0, 0x0, false⟩,
  ⟨"XK_RX_THRESH", 0x9014, 0x1, 1, 0x1, 1, 0x4000fee8, 0x0, 0x0, 0x0, false⟩,
  ⟨"XK_LAST_RX", 0x9018, 0x1, 1, 0x1, 1, 0x0, 0x0, 0x0, 0x0, false⟩,
  ⟨"XK_NOISE", 0x901c, 0x1, 1, 0x1, 1, 0x0, 0x0, 0x0, 0x0, false⟩,
  ⟨"XK_counters", 0x9040, 0x4, 12, 0x1, 1, 0x0, 0xffffffff, 0x0, 0x0, false⟩,
  ⟨"XK_NET_STATUS", 0x9080, 0x1, 1, 0x1, 1, 0x0, 0x0, 0x0, 0x0, false⟩,
  ⟨"XK_CYCLE", 0x9084, 0x1, 1, 0x1, 1, 0x0, 0x0, 0x0, 0x0, false⟩,
  ⟨"XK_SLOT", 0x9088, 0x1, 1, 0x1, 1, 0x0, 0x0, 0x0, 0x0, false⟩,
  ⟨"XK_NET_EVENT", 0x908c, 0x1, 1, 0x1, 1, 0x0, 0x0, 0xff, 0x0, false⟩,
  ⟨"XK_NET_EVENT_EN", 0x9090, 0x1, 1, 0x1, 1, 0x0, 0xff, 0x0, 0x0, false⟩,
  ⟨"XK_BCN_MTS_LO", 0x9098, 0x1, 1, 0x1, 1, 0x0, 0x0, 0x0, 0x0, false⟩,
  ⟨"XK_BCN_MTS_HI", 0x909c, 0x1, 1, 0x1, 1, 0x0, 0x0, 0x0, 0x0, false⟩,
  ⟨"XK_BCN_LTS_LO", 0x90a0, 0x1, 1, 0x1, 1, 0x0, 0x0, 0x0, 0x0, false⟩,
  ⟨"XK_BCN_LTS_HI", 0x90a4, 0x1, 1, 0x1, 1, 0x0, 0x0, 0x0, 0x0, false⟩,
  ⟨"XK_BCN_MLX_LO", 0x90a8, 0x1, 1, 0x1, 1, 0x0, 0x0, 0x0, 0x0, false⟩,
  ⟨"XK_BCN_MLX_HI", 0x90ac, 0x1, 1, 0x1, 1, 0x0, 0x0, 0x0, 0x0, false⟩,
  ⟨"XK_COLL_LAST", 0x90b0, 0x1, 1, 0x1, 1, 0x0, 0x0, 0x0, 0x0, false⟩,
  ⟨"XK_BCAST_LAST", 0x90b4, 0x1, 1, 0x1, 1, 0xff, 0x0, 0x0, 0x0, false⟩,
  ⟨"XK_net_counters", 0x90c0, 0x4, 7, 0x1, 1, 0x0, 0xffffffff, 0x0, 0x0, false⟩]

/-- The cards of the SP block. -/
def cardsSP : List RegCard :=
  [⟨"SP_n_STATUS", 0xa000, 0x400, 6, 0x1, 1, 0x0, 0x0, 0x0, 0x0, false⟩,
  ⟨"SP_n_CONN", 0xa004, 0x400, 6, 0x1, 1, 0x0, 0x0, 0x0, 0x0, false⟩,
  ⟨"SP_n_EVENT", 0xa008, 0x400, 6, 0x1, 1, 0x0, 0x0, 0xffffff, 0x0, false⟩,
  ⟨"SP_n_EVENT_EN", 0xa00c, 0x400, 6, 0x1, 1, 0x0, 0xffffff, 0x0, 0x0, false⟩,
  ⟨"SP_n_CRC_ERR", 0xa010, 0x400, 6, 0x1, 1, 0x0, 0xffffffff, 0x0, 0x0, false⟩,
  ⟨"SP_n_UNBOUND", 0xa014, 0x400, 6, 0x1, 1, 0x0, 0xffffffff, 0x0, 0x0, false⟩,
  ⟨"SP_n_CTRL_RESEND", 0xa018, 0x400, 6, 0x1, 1, 0x0, 0xffffffff, 0x0, 0x0, false⟩,
  ⟨"SP_n_TRIG_DROP", 0xa01c, 0x400, 6, 0x1, 1, 0x0, 0xffffffff, 0x0, 0x0, false⟩,
  ⟨"SP_n_STR_k_STATE", 0xa100, 0x400, 6, 0x40, 4, 0x0, 0x0, 0x0, 0x0, false⟩,
  ⟨"SP_n_STR_k_GOOD_LO", 0xa108, 0x400, 6, 0x40, 4, 0x0, 0x0, 0x0, 0x0, false⟩,
  ⟨"SP_n_STR_k_GOOD_HI", 0xa10c, 0x400, 6, 0x40, 4, 0x0, 0x0, 0x0, 0x0, false⟩,
  ⟨"SP_n_STR_k_LOST", 0xa110, 0x400, 6, 0x40, 4, 0x0, 0xffffffff, 0x0, 0x0, false⟩,
  ⟨"SP_n_STR_k_SUBST", 0xa114, 0x400, 6, 0x40, 4, 0x0, 0xffffffff, 0x0, 0x0, false⟩,
  ⟨"SP_n_STR_k_BEHIND", 0xa118, 0x400, 6, 0x40, 4, 0x0, 0xffffffff, 0x0, 0x0, false⟩,
  ⟨"SP_n_STR_k_UNREC", 0xa11c, 0x400, 6, 0x40, 4, 0x0, 0xffffffff, 0x0, 0x0, false⟩,
  ⟨"SP_n_STR_k_UNTRIG", 0xa120, 0x400, 6, 0x40, 4, 0x0, 0xffffffff, 0x0, 0x0, false⟩,
  ⟨"SP_n_STR_k_LATE", 0xa124, 0x400, 6, 0x40, 4, 0x0, 0xffffffff, 0x0, 0x0, false⟩]

/-- The cards of the BK block. -/
def cardsBK : List RegCard :=
  [⟨"BK_r_CFG", 0x10000, 0x200, 128, 0x1, 1, 0x0, 0x0, 0x0, 0x0, false⟩,
  ⟨"BK_r_GEOM", 0x10004, 0x200, 128, 0x1, 1, 0x0, 0x0, 0x0, 0x0, false⟩,
  ⟨"BK_r_BASE", 0x10008, 0x200, 128, 0x1, 1, 0x0, 0x0, 0x0, 0x0, false⟩,
  ⟨"BK_r_COUNT", 0x1000c, 0x200, 128, 0x1, 1, 0x0, 0x0, 0x0, 0x0, false⟩,
  ⟨"BK_r_PUB", 0x10010, 0x200, 128, 0x1, 1, 0x0, 0x0, 0x0, 0x0, false⟩,
  ⟨"BK_r_WRAP", 0x10014, 0x200, 128, 0x1, 1, 0x0, 0x0, 0x0, 0x0, false⟩,
  ⟨"BK_r_OP", 0x10020, 0x200, 128, 0x1, 1, 0x0, 0x0, 0x0, 0xfe00ffff, true⟩,
  ⟨"BK_r_RES", 0x10024, 0x200, 128, 0x1, 1, 0x0, 0x0, 0x0, 0x0, true⟩,
  ⟨"BK_r_SLOTS_j", 0x10040, 0x200, 128, 0x4, 16, 0x0, 0x0, 0x0, 0x0, false⟩,
  ⟨"BK_r_PUBLISHED", 0x10080, 0x200, 128, 0x1, 1, 0x0, 0xffffffff, 0x0, 0x0, false⟩,
  ⟨"BK_r_CANCELLED", 0x10084, 0x200, 128, 0x1, 1, 0x0, 0xffffffff, 0x0, 0x0, false⟩,
  ⟨"BK_r_VIOL", 0x10088, 0x200, 128, 0x1, 1, 0x0, 0xffffffff, 0x0, 0x0, false⟩,
  ⟨"BK_WIN_WAIT", 0x101f0, 0x1, 1, 0x1, 1, 0x0, 0xffffffff, 0x0, 0x0, false⟩]

/-- The block of R42 that holds an offset, as its cards; none of them at a reserved offset. -/
def cardsOf (off : Nat) : List RegCard :=
  if off < 0x1000 then cardsGLB
  else if off < 0x2000 then cardsMB
  else if off < 0x3000 then cardsIRQ
  else if off < 0x4000 then cardsLT
  else if off < 0x6000 then cardsDMA
  else if off < 0x7000 then cardsFLT
  else if off < 0x8000 then cardsPMC
  else if off < 0x9000 then cardsPWR
  else if off < 0xA000 then cardsXK
  else if off < 0xB800 then cardsSP
  else if off < 0x10000 then []
  else if off < 0x20000 then cardsBK
  else []

/-- Does the card name this offset? -/
def cardHas (c : RegCard) (off : Nat) : Bool :=
  c.base ≤ off && (off - c.base) / c.stride1 < c.count1 &&
    (off - c.base) % c.stride1 / c.stride2 < c.count2 && (off - c.base) % c.stride1 % c.stride2 = 0

/-- The card of an offset, if a card names it (R63: elsewhere the offset is reserved). -/
def cardAt (off : Nat) : Option RegCard := (cardsOf off).find? (cardHas · off)

/-- LO offsets of the 64-bit registers of R52 to R59 (a LO word at x and a HI word at x + 4): those whose card says so.
IRQ_PEND and IRQ_MASK, whose cards do not, are two registers of 32 sources each, with no latch and no staging.
(DESIGN CHOICE, log entry 83) -/
def lo64 : List Nat :=
  [0x40, 0x118, 0x220, 0x3000, 0x3008, 0x3010, 0x30B0, 0x9098, 0x90A0, 0x90A8]

/-- Is this the LO offset of a 64-bit register? The indexed ones: the byte counts of the regulator, the DMA
addresses and their active copies, the failing address, the PMC counters, and the stream line counts. -/
def isLo64 (off : Nat) : Bool :=
  lo64.contains off
  || (0x400 ≤ off && off < 0x450 && off % 0x10 = 4)
  || (0x4000 ≤ off && off < 0x5000 &&
      [0x00, 0x08, 0x28, 0x40, 0x48, 0x68, 0x98].contains (off % 0x100))
  || (0x7000 ≤ off && off < 0x71B0 && off % 8 = 0 && (cardAt off).isSome)
  || (0xA100 ≤ off && off < 0xB800 && off % 0x400 ≥ 0x100 && off % 0x40 = 8 && (cardAt off).isSome)

end Sys2Proof.Machine
end

