-- ==== Sys2Proof/Machine/State.lean ====
section
/-! DEFINITION. The state of the machine, the reasons a step can stop, and the state right after a power-on reset,
before boot (R919, R920). Every register has one home: the table `regs` (by BAR0 offset, plus the bank offset for a
banked register), or a field below from which its reads are computed. -/

namespace Sys2Proof.Machine

open Sys2Proof

/-- Why the machine stops with a fault. No command of this block stops the machine. -/
inductive Fault where
  /-- Raised by nothing: the spec gives every command of the block an effect. Safe. -/
  | none
  deriving DecidableEq, Repr

/-- Why a command has no meaning here. -/
inductive Refusal where
  /-- Raised by an arm of `exec` whose command has no meaning yet. Safe: nothing is claimed of it. -/
  | notModelled (mnemonic : String)
  deriving DecidableEq, Repr

/-- The state of the machine. Tables that a key is absent from hold the default named with the field. -/
structure State where
  /-- commands waiting, first in first out -/
  pending : List Instr
  /-- the model's own: how many free values have been drawn -/
  free : Nat
  /-- TS in ns (R94) -/
  ts : Nat
  /-- registers by offset; absent: the reset value of the card -/
  regs : Tab Word
  /-- read latches and staging words of R53 and R57, by requester bank: the register and the word -/
  latches : Tab (Nat × Word)
  staging : Tab (Nat × Word)
  /-- the last response on each requester's port -/
  replies : Tab Reply
  /-- the outputs, newest first -/
  emitted : List Emit
  /-- ARMED flags of the host interrupt sources (R720), one bit each -/
  irqArmed : Nat
  /-- MSI-X table by word offset, and the PBA bits; the function mask (R722, R723) -/
  msix : Tab Word
  pba : Nat
  funcMask : Bool
  tic : Tic
  /-- the error log ring (R875) -/
  log : Tab LogEntry
  /-- instant of the last CE entry per physical bank (R281); near stores at 1000 + physical core -/
  lastCe : Tab Nat
  lt : LineTime
  /-- the 2048 calendar entries; absent: MODE OFF -/
  cal : Tab CalEntry
  strobes : Tab Strobe
  ports : Tab Port
  streams : Tab Stream
  /-- column entries: port, bank and index in one key; absent: 0 -/
  cols : Tab (BitVec 64)
  /-- bytes of the Deep Store by local address; absent: 0 -/
  mem : List Host.Cell
  /-- check-bit state by word address; absent: ok -/
  ecc : Tab Ecc
  /-- bank groups 0 to 16; absent: OFF -/
  groups : Tab GroupState
  autowake : Bool
  /-- the bank map where it differs from the reset map (R217), and the banks mapped out -/
  bankMap : Tab Nat
  bankOut : List Nat
  copy : Option SpareCopy
  /-- limp mode: the single bank group (R277) -/
  limp : Option Nat
  handles : Tab Handle
  reloc : Option Relocation
  sems : Tab Sem
  arrivals : Tab Arrival
  rings : Tab Ring
  windows : List Window
  /-- bucket contents by class (R351) -/
  tokens : Tab Nat
  /-- TS of the last refill step counted -/
  lastRefill : Nat
  /-- the accesses that wait for a unit, oldest first (R351) -/
  held : List Held
  /-- physical cores, and logical core to physical core; absent: unmapped -/
  cores : Tab Core
  coreMap : Tab Nat
  /-- bytes of the near stores: physical core × 2^20 + offset; absent: 0 -/
  near : List Host.Cell
  nearEcc : Tab Ecc
  /-- accumulators kept by CHAIN, by logical core -/
  accs : Tab AccFile
  /-- tile-cache lines: logical core × 2^24 + line address -/
  tcache : Tab TcLine
  /-- far-cache lines: node × 2^24 + line offset / 256 -/
  fcache : Tab FcLine
  /-- the banks' queues of tile-cache fills: line number to the TS at which its fill stands there (R562) -/
  fills : Tab Nat
  /-- counter behind the LRU order of both caches -/
  useCount : Nat
  /-- handle entry of the far cache buffer (R554) -/
  fcBuffer : Option Nat
  /-- range operations outstanding, by requester bank × 2, plus 1 for the far cache -/
  rangeOps : Tab RangeOp
  /-- demotions in the present and the last completed 1 ms window (R552), tile cache and far cache -/
  pinWin : Nat
  pinNow : Bool × Bool
  models : Tab Model
  /-- core sets: mask of logical cores -/
  coreSets : Tab Nat
  sgroups : Tab Group
  ops : Tab TileOp
  opNext : Nat
  dma : Tab DmaCh
  /-- the service unit issuing, if any (DMA_ACTIVE) -/
  dmaBusy : Option Nat
  harts : Tab Hart
  l2 : Tab L2Line
  /-- owner of EV_144 + k (R673); absent: none -/
  evOwner : Tab Nat
  mboxes : Tab Mailbox
  sup : Sup
  /-- flash bytes; absent: 0xFF (erased) -/
  flash : Tab Byte
  xk : Xk
  pwr : Power
  jtag : Jtag
  deriving DecidableEq, Repr

/-- Encoder 0 is enabled after reset, the others are not (R70). -/
def encDefault (n : Nat) : Encoder := { en := n == 0 }

/-- The core map after reset (R363). -/
def resetCoreMap : Tab Nat := (List.range 64).map fun c => (c, 17 * (c / 16) + c % 16)

/-- The machine right after a power-on reset, before boot. -/
def State.reset : State where
  pending := []
  free := 0
  ts := 0
  regs := []
  latches := []
  staging := []
  replies := []
  emitted := []
  irqArmed := 2 ^ 64 - 1
  msix := []
  pba := 0
  funcMask := false
  tic := {}
  log := []
  lastCe := []
  lt := { encs := [(0, encDefault 0)] }
  cal := []
  strobes := []
  ports := []
  streams := []
  cols := []
  mem := []
  ecc := []
  groups := []
  autowake := true
  bankMap := []
  bankOut := []
  copy := none
  limp := none
  handles := []
  reloc := none
  sems := []
  arrivals := []
  rings := []
  windows := []
  tokens := []
  lastRefill := 0
  held := []
  cores := []
  coreMap := resetCoreMap
  near := []
  nearEcc := []
  accs := []
  tcache := []
  fcache := []
  fills := []
  useCount := 0
  fcBuffer := none
  rangeOps := []
  pinWin := 0
  pinNow := (false, false)
  models := []
  coreSets := []
  sgroups := []
  ops := []
  opNext := 0
  dma := []
  dmaBusy := none
  harts := []
  l2 := []
  evOwner := []
  mboxes := []
  sup := {}
  flash := []
  xk := {}
  pwr := {}
  jtag := {}

end Sys2Proof.Machine
end

