-- ==== Sys2Proof/Machine/Ops.lean ====
section
/-! DEFINITION. The operations every block shares: register storage, free values, the line index at an instant, the
error log, event pulses, request lines, the interrupt controllers. -/

namespace Sys2Proof.Machine

open Sys2Proof

/-! ## Requesters -/

/-- The bank of a requester's banked registers, latch and staging word (R55): host 0, Trestle cores 1 to 8,
supervisors 9 and 10, the DMA engine 11. -/
def reqBank : Req → Nat
  | .host => 0
  | .trestle c => 1 + c.val
  | .supA => 9
  | .supB => 10
  | .dma _ => 11

/-- The owner tag of a requester (R232). -/
def reqTag : Req → Nat
  | .host => 0x18
  | .trestle c => 0x10 + c.val
  | .supA => 0x1C
  | .supB => 0x1C
  | .dma _ => 0x19

/-- The requester detail of a requester (R872): the channel for the DMA engine, else 0. -/
def reqDetail : Req → Nat
  | .dma c => c.val
  | _ => 0

/-- The owner tag that a bank number stands for. -/
def bankTag (b : Nat) : Nat := if b = 0 then 0x18 else if b ≤ 8 then 0x0F + b else if b ≤ 10 then 0x1C else 0x19

/-! ## Register storage -/

/-- Where a requester's copy of a banked register is kept in the register table. -/
def bankKey (b off : Nat) : Nat := (b + 1) * 0x100000 + off

/-- Where a register of the cluster-local region of R652 is kept in the register table. -/
def clusterKey (off : Nat) : Nat := 0x4000000 + off

/-- WARN_TJ and THROTTLE_TJ of the grade (R913), as PWR_THERM_CFG holds them. -/
def thermDefault : Nat := if Config.commercial then 90 * 256 + 85 else 100 * 256 + 95

/-- The reset value of a stored register, where it is not 0 (the register cards; `RegCard.reset`).
(DESIGN CHOICE, log entry 2) -/
def resetOf (off : Nat) : Word :=
  if off < 0x400 then (if off = 0 then 0x48161EB3 else if off = 4 then 2 else 0)
  else if off < 0x1000 then
    (if off < 0x450 ∧ off % 16 = 0 then 0x80000000 else if off = 0x820 then 0x18000000 else 0)
  else if off < 0x2000 then (if off % 0x200 = 0x108 then 0xFFFF else 0)
  else if off < 0x3000 then
    (if off = 0x2008 ∨ off = 0x200C then 0xFFFFFFFF
     else if 0x2100 ≤ off ∧ off < 0x2200 then w32 ((off - 0x2100) / 4) else 0)
  else if off < 0x4000 then 0
  else if off < 0x5000 then (if off % 0x100 = 0x24 ∨ off % 0x100 = 0x64 then 0x10000 else 0)
  else if off = 0x8010 then w32 thermDefault
  else if off = 0x8014 then 0x02EE000A
  else if off = 0x8020 then 1
  else if off = 0x900C then 0xC03
  else if off = 0x9010 then 0x2804
  else if off = 0x9014 then 0x4000FEE8
  else if off = 0x90B4 then 0xFF
  else 0

/-- The stored value of a register. -/
def regGet (s : State) (off : Nat) : Word := tabGet (resetOf off) s.regs off

/-- Store a register. -/
def regSet (off : Nat) (v : Word) (s : State) : State :=
  { s with regs := tabPut (resetOf off) s.regs off v }

/-- Update a register. -/
def regMod (off : Nat) (f : Word → Word) (s : State) : State := regSet off (f (regGet s off)) s

/-- Set bits of a register: an event sets its W1C bits (R60). -/
def regOr (off mask : Nat) (s : State) : State := regMod off (· ||| w32 mask) s

/-- Clear bits of a register. -/
def regClr (off mask : Nat) (s : State) : State := regMod off (fun v => v &&& ~~~(w32 mask)) s

/-- A counter marked "counter" grows and saturates at 0xFFFF_FFFF (R901). -/
def regAdd (off n : Nat) (s : State) : State := regMod off (fun v => w32 (satAdd 0xFFFFFFFF v.toNat n)) s

/-- Replace a field of a register. -/
def regField (off lo n v : Nat) (s : State) : State := regMod off (fun w => setField w lo n v) s

/-- The value of a field of a stored register. -/
def regBits (s : State) (off lo n : Nat) : Nat := fieldOf (regGet s off) lo n

/-- Add to a 64-bit count held as LO at `off` and HI at `off + 4`. -/
def regAdd64 (off n : Nat) (s : State) : State :=
  let v := ((regGet s off).toNat + 2 ^ 32 * (regGet s (off + 4)).toNat + n) % 2 ^ 64
  regSet (off + 4) (w32 (v / 2 ^ 32)) (regSet off (w32 v) s)

/-- Add to a 48-bit PMC count with its sticky WRAP bit in HI[31] (R901). -/
def regAdd48 (off n : Nat) (s : State) : State :=
  let hi := (regGet s (off + 4)).toNat
  let v := (regGet s off).toNat + 2 ^ 32 * (hi % 2 ^ 16) + n
  let wrap := decide (hi / 2 ^ 31 = 1) || decide (2 ^ 48 ≤ v)
  regSet (off + 4) (w32 (v / 2 ^ 32 % 2 ^ 16 + atBit (b2n wrap) 31)) (regSet off (w32 v) s)

/-! ## Free values -/

/-- The next value the spec leaves undefined. (DESIGN CHOICE, log entry 5) -/
def freeNow (s : State) : BitVec 64 := Config.freeValue s.free

/-- A free value has been drawn. (DESIGN CHOICE, log entry 5) -/
def freeStep (s : State) : State := { s with free := s.free + 1 }

/-- `n` bytes that the spec leaves undefined, and the state after they have been drawn. (DESIGN CHOICE, log entry 5) -/
def freeBytes (n : Nat) (s : State) : State × List Byte :=
  ({ s with free := s.free + cdiv n 8 },
    (natsFrom 0 n).map fun i => b8 ((Config.freeValue (s.free + i / 8)).toNat / 256 ^ (i % 8)))

/-! ## The Xanik node -/

/-- Change the Xanik node. -/
def xkMod (f : Xk → Xk) (s : State) : State := { s with xk := f s.xk }

/-- A frame joins the queue of new frames. -/
def xkSend (dest kind : Nat) (body : List Byte) (s : State) : State :=
  xkMod (fun x => { x with queue := x.queue ++ [{ dest := dest, kind := kind, seq := 0, body := body }] }) s

/-! ## Outputs -/

/-- Record an output. (DESIGN CHOICE, log entry 6) -/
def emit (e : Emit) (s : State) : State := { s with emitted := e :: s.emitted }

/-- Record what a requester receives. (DESIGN CHOICE, log entry 6) -/
def reply (b : Nat) (r : Reply) (s : State) : State := { s with replies := tabSet s.replies b r }

/-! ## Line index at an instant (R80, R89 to R92) -/

/-- An encoder. -/
def encOf (s : State) (n : Nat) : Encoder := tabGet (encDefault n) s.lt.encs n

/-- Instants and positions of the velocity window (R91): the latest edge and the edge VEL_WIN intervals before it,
or as many as there are. The edges are those that count (DESIGN CHOICE, log entry 24). -/
def velEdges (l : LineTime) : Option ((Nat × Nat) × (Nat × Nat)) :=
  match l.edges with
  | e :: es => (match (es.take l.velWin).getLast? with
    | some o => some (e, o)
    | none => none)
  | [] => none

/-- The velocity estimate v at an instant, in internal units of 2^-16 L per ns, as a fraction (R91). -/
def velAt (l : LineTime) (scale t : Nat) : Int × Nat :=
  match velEdges l with
  | none => (0, 1)
  | some ((t1, p1), (t0, p0)) =>
    let n := min (l.edges.length - 1) l.velWin
    if t1 ≤ t0 then (0, 1)
    else if (t - t1) * n ≤ t1 - t0 then ((p1 : Int) - p0, t1 - t0)
    else ((if l.fwd then (scale : Int) else -(scale : Int)), t - t1)

/-- The SCALE of the master. -/
def masterScale (s : State) : Nat := (encOf s s.lt.master).scale

/-- LX at an instant in internal units: the position of the last edge plus v times the time since, stopping one unit
short of the next count (R92), never below 0 (R90), never back against the motion of the last count (R93). -/
def posAt (l : LineTime) (scale t : Nat) : Nat :=
  match velEdges l with
  | none => l.pos
  | some ((t1, _), _) =>
    let v := velAt l scale t
    let d : Int := v.1 * ((t - t1 : Nat) : Int) / (v.2 : Int)
    let cap : Int := ((scale - 1 : Nat) : Int)
    let d := if l.fwd then max 0 (min d cap) else min 0 (max d (-cap))
    let p := ((l.pos : Int) + d).toNat
    let h := l.hold.getD p
    if l.fwd then max p h else min p h

/-- The published LX, 48.8: the upper 8 fraction bits (R80). -/
def lxNow (s : State) : Nat := posAt s.lt (masterScale s) s.ts / 256

/-- v in LT_VELOCITY's format, signed 24.8 lines per second. (DESIGN CHOICE, log entry 23) -/
def velReg (s : State) : Word :=
  let v := velAt s.lt (masterScale s) s.ts
  let num : Int := v.1 * 1000000000
  let den : Nat := 256 * v.2
  let q := num / (den : Int)
  let q := if num % (den : Int) = 0 then q else if Config.roundsUp num den then q + 1 else q
  if -(2 ^ 31 : Int) ≤ q ∧ q < 2 ^ 31 then w32 (unsgn 32 q) else Config.velOverflow num den

/-! ## Trestle interrupt controller, pulses (R655, R657, R660) -/

/-- A pulse of an edge source: pending, or kept while the source is claimed. -/
def ticPulse (src : Nat) (s : State) : State :=
  if s.tic.claimed.contains src then
    { s with tic := { s.tic with kept := if s.tic.kept.contains src then s.tic.kept else src :: s.tic.kept } }
  else
    { s with tic := { s.tic with pend := if s.tic.pend.contains src then s.tic.pend else src :: s.tic.pend } }

/-! ## Error log (R873 to R881) -/

/-- What an entry says beside its instant and position. -/
structure LogInfo where
  source : Nat
  cls : Nat
  code : Nat
  detail : Nat := 0
  addr : Nat := 0
  flags : Nat := 0
  syndrome : Nat := 0
  deriving DecidableEq, Repr

/-- Write one entry: the oldest goes when 256 are held (R878), the class bit and counter grow (R881), Trestle source
50 pulses. -/
def logPut (i : LogInfo) (s : State) : State :=
  let head := (regGet s 0x6000).toNat
  let tail := (regGet s 0x6004).toNat
  let full := decide ((head + 2 ^ 32 - tail) % 2 ^ 32 = 256)
  let s := if full then regOr 0x6010 0x200 (regAdd 0x6008 1 (regSet 0x6004 (w32 (tail + 1)) s)) else s
  let e : LogEntry := ⟨s.ts, lxNow s, i.addr, i.source, i.cls, i.code, i.flags, i.syndrome, i.detail⟩
  let s := { s with log := tabSet s.log (head % 256) e }
  ticPulse 50 (regAdd (0x6020 + 4 * i.cls) 1 (regOr 0x6010 (2 ^ i.cls) (regSet 0x6000 (w32 (head + 1)) s)))

/-- The 32 bytes of an entry (R876). -/
def logBytes (e : LogEntry) : List Byte :=
  leBytes 8 e.ts ++ leBytes 8 e.lx ++ leBytes 8 e.addr ++
    [b8 e.source, b8 e.cls, b8 e.code, b8 e.flags, b8 e.syndrome, 0] ++ leBytes 2 e.detail

/-! ## Request lines and event pulses (R30 to R34, R618 to R620) -/

/-- Base of a DMA channel's registers. -/
def dmaBase (n : Nat) : Nat := 0x4000 + 0x100 * n

/-- A DMA channel. -/
def dmaOf (s : State) (n : Nat) : DmaCh := tabGet {} s.dma n

/-- Update a DMA channel. -/
def dmaMod (n : Nat) (f : DmaCh → DmaCh) (s : State) : State := { s with dma := tabMod {} s.dma n f }

/-- Is the channel's active set paced by line j (R619)? -/
def dmaPaced (s : State) (j n : Nat) : Bool :=
  (dmaOf s n).active && bitAt (regGet s (dmaBase n + 0x60)).toNat 5 &&
    decide (regBits s (dmaBase n + 0x60) 6 5 = j)

/-- One request reaches one paced channel (R619, R620). -/
def dmaCount (n : Nat) (s : State) : State :=
  let p := regBits s (dmaBase n + 0xA0) 0 8
  if p = 255 then regOr (dmaBase n + 0x90) 0x10 s else regField (dmaBase n + 0xA0) 0 8 (p + 1) s

/-- A request finds a channel of its line without an active set: the line of an idle channel is that of its shadow
set (DEDUCED, log entry 12). -/
def dmaIgnored (j n : Nat) (s : State) : State :=
  if !(dmaOf s n).active && bitAt (regGet s (dmaBase n + 0x20)).toNat 5 &&
      decide (regBits s (dmaBase n + 0x20) 6 5 = j) then
    regField (dmaBase n + 0xA0) 16 16 (satAdd 65535 (regBits s (dmaBase n + 0xA0) 16 16) 1) s
  else s

/-- One request on request line j (R618, R619). -/
def dmaRequest (j : Nat) (s : State) : State :=
  if (natsFrom 0 16).any (dmaPaced s j) then
    (natsFrom 0 16).foldl (fun s' n => if dmaPaced s j n then dmaCount n s' else s') s
  else (natsFrom 0 16).foldl (fun s' n => dmaIgnored j n s') s

/-- One pulse of EV_n: it leaves on the event fabric, makes a request, by `req`, on each line that selects it, and pulses
each Trestle source that selects it. -/
def evPulseBy (req : Nat → State → State) (n : Nat) (s : State) : State :=
  let s := emit (.event n) s
  let s := (natsFrom 0 32).foldl (fun s' j =>
    let w := (regGet s' (0x5100 + 4 * j)).toNat
    if bitAt w 8 && decide (w % 256 = n) then req j s' else s') s
  (natsFrom 0 64).foldl (fun s' j =>
    let w := (tabGet 0 s'.regs (clusterKey (0x3000 + 4 * j))).toNat
    if bitAt w 8 && decide (w % 256 = n) then ticPulse (64 + j) s' else s') s

/-- One pulse of EV_n. -/
def evPulse (n : Nat) (s : State) : State := evPulseBy dmaRequest n s

/-! ## Host interrupt controller (R718 to R722) -/

/-- Does the event register at `ev` hold a bit that `en` enables? -/
def enabledBit (s : State) (ev en : Nat) : Bool := regGet s ev &&& regGet s en != 0

/-- Does a DMA channel raise its interrupt (DMA_n_EVENT and DMA_n_EVENT_EN cards, R629, R631)? -/
def dmaInt (s : State) (n : Nat) : Bool :=
  (bitAt (regGet s (dmaBase n + 0x90)).toNat 0 && (dmaOf s n).intDone)
  || (regGet s (dmaBase n + 0x90) &&& regGet s (dmaBase n + 0x94) &&& 0x3E != 0)

/-- INT_DEST of the channel's active set: does it name the host, does it name the Trestle cluster? -/
def dmaToHost (s : State) (n : Nat) : Bool := regBits s (dmaBase n + 0x60) 14 2 != 1
def dmaToTrestle (s : State) (n : Nat) : Bool := regBits s (dmaBase n + 0x60) 14 2 != 0

/-- Is host interrupt source i asserted (R718)? -/
def irqAsserted (s : State) (i : Nat) : Bool :=
  if i < 4 then regGet s (0x1104 + 0x200 * i) &&& 0x48 != 0
  else if i = 4 then regGet s 0x220C &&& 3 != 0
  else if i = 5 then enabledBit s 0x6010 0x6014
  else if i = 6 then enabledBit s 0x54 0x58
  else if i = 7 then enabledBit s 0x2020 0x2024
  else if i = 8 then enabledBit s 0x3034 0x3038
  else if i = 9 then enabledBit s 0x3090 0x3094
  else if i < 16 then enabledBit s (0xA008 + 0x400 * (i - 10)) (0xA00C + 0x400 * (i - 10))
  else if i = 16 then enabledBit s 0x810 0x814
  else if i = 17 then enabledBit s 0x570 0x574
  else if i = 18 then enabledBit s 0x600 0x604
  else if i = 19 then enabledBit s 0x704 0x708
  else if i = 20 then enabledBit s 0x100 0x104
  else if i = 21 then enabledBit s 0x204 0x208
  else if i = 22 then enabledBit s 0x304 0x308
  else if i = 23 then enabledBit s 0x8004 0x8008
  else if i = 24 then enabledBit s 0x9004 0x9008 || enabledBit s 0x908C 0x9090
  else if i < 32 then false
  else if i < 48 then dmaInt s (i - 32) && dmaToHost s (i - 32)
  else false

/-- Is source i masked in IRQ_MASK? -/
def irqMasked (s : State) (i : Nat) : Bool :=
  bitAt (regGet s (if i < 32 then 0x2008 else 0x200C)).toNat (i % 32)

/-- A word of the MSI-X table, by word index; the mask bit of Vector Control is set at reset, as PCI Express 4.0
states. (PRESUMED, log entry 64) -/
def msixWord (s : State) (k : Nat) : Word := tabGet (if k % 4 = 3 then 1 else 0) s.msix k

/-- Is the vector masked, in the table or by the function mask (R722)? In D3hot no message goes (R41).
(PRESUMED, log entry 64) -/
def msixMasked (s : State) (v : Nat) : Bool := s.funcMask || s.pwr.d3hot || bitAt (msixWord s (4 * v + 3)).toNat 0

/-- Send the message of a vector, or hold it pending in the PBA while it is masked (R722). -/
def msixSend (v : Nat) (s : State) : State :=
  if msixMasked s v then { s with pba := s.pba ||| 2 ^ v } else emit (.msix v) s

/-- One source: a message when it is unmasked, ARMED and asserted; sending clears ARMED (R720). -/
def irqOne (i : Nat) (s : State) : State :=
  if !irqMasked s i && (bitAt s.irqArmed i && irqAsserted s i) then
    let s := { s with irqArmed := s.irqArmed - 2 ^ i }
    msixSend (regBits s (0x2100 + 4 * i) 0 6) s
  else s

/-- Every source in turn: what the interrupt controller sends after a command. -/
def settle (s : State) : State := (natsFrom 0 48).foldl (fun s' i => irqOne i s') s

/-- The outcome of a command that goes on. -/
def done (s : State) : Host.Outcome State Fault Refusal := .next (settle s)

/-! ## Error-log helpers of the blocks -/

/-- Set a bit of LT_EVENT; bits 0 to 15 also write an ENCODER entry each time (R872, R873). -/
def ltEvent (bit detail : Nat) (s : State) : State :=
  let s := regOr 0x3034 (2 ^ bit) s
  if bit < 16 then logPut { source := 0x40, cls := 5, code := 0x30 + bit, detail := detail } s else s

/-- Set a bit of SP_n_EVENT; bits 0 to 3 and 8 to 15 also write an INGEST entry (R872). -/
def spEvent (port bit : Nat) (s : State) : State :=
  let s := regOr (0xA008 + 0x400 * port) (2 ^ bit) s
  if bit < 4 || (8 ≤ bit && bit < 16) then
    logPut { source := 0x41 + port, cls := 6, code := 0x40 + bit, detail := bit % 4 } s
  else s

/-- Set a bit of XK_NET_EVENT; bits 2 to 5 also write a LINK entry (R872). -/
def xkEvent (bit node : Nat) (s : State) : State :=
  let s := regOr 0x908C (2 ^ bit) s
  if 2 ≤ bit && bit < 6 then logPut { source := 0x47, cls := 4, code := 0x50 + bit, detail := node } s else s

/-- A SUPERVISOR entry of supervisor `sup` (R872). -/
def supLog (code sup source : Nat) (s : State) : State :=
  logPut { source := source, cls := 8, code := code, detail := sup } s

/-- Give their final status to the running long commands that `sel` names (R703): status, DETAIL and RESULTS. -/
def longDone (sel : LongCmd → Bool) (status detail : Nat) (res : List Byte) (s : State) : State :=
  let f (e : Nat × LongCmd) : Nat × LongCmd :=
    if sel e.2 && e.2.done.isNone then (e.1, { e.2 with done := some (status, detail, res) }) else e
  { s with sup := { s.sup with longs := s.sup.longs.map f } }

/-- TS moves to `t`, never back (R27). (DESIGN CHOICE, log entry 13) -/
def tsTo (t : Nat) (s : State) : State := { s with ts := max s.ts t }

/-- Active supervisor: 0 SUP_A, 1 SUP_B (GLB_STATUS.ACTIVE_SUP). -/
def activeSup (s : State) : Nat := regBits s 0x20 2 1

/-! ## Register access by requester (R40, R50, R67, R690) -/

/-- What a requester may do in a block: 0 nothing, 1 read mailbox status, 2 read, 3 read and write. -/
def blockRight (r : Req) (off : Nat) : Nat :=
  let mb := (off - 0x1000) / 0x200
  match r with
  | .host => if 0x1000 ≤ off ∧ off < 0x2000 ∧ 4 ≤ mb then 1 else 3
  | .trestle _ =>
    if 0x1000 ≤ off ∧ off < 0x2000 then (if mb = 4 ∨ mb = 5 then 3 else 1)
    else if 0x2000 ≤ off ∧ off < 0x3000 then 0 else 3
  | .dma _ => if (0x1000 ≤ off ∧ off < 0x3000) ∨ (0x4000 ≤ off ∧ off < 0x6000) then 0 else 2
  | _ => 3

/-- May the requester make this access? -/
def mayAccess (r : Req) (off : Nat) (write : Bool) : Bool :=
  let k := blockRight r off
  k == 3 || (!write && k == 2) || (!write && k == 1 && decide (0x104 ≤ off % 0x200))

/-- Fabric address of a control-space offset. -/
def ctrlAddr (off : Nat) : Nat := 0x3000000000 + off

/-- A VIOLATION entry for a register access (R50, R67). -/
def regViolation (r : Req) (code off : Nat) (write : Bool) (s : State) : State :=
  logPut { source := reqTag r, cls := 2, code := code, detail := reqDetail r, addr := ctrlAddr off,
           flags := atBit (b2n write) 2 } s

/-- A DMA channel stops on an error (R617, R622, R634 to R637): PROGRESS and the CRC are then undefined. -/
def dmaStop (ch code addr : Nat) (s : State) : State :=
  let b := dmaBase ch
  let c := dmaOf s ch
  if !c.active || decide (4 ≤ regBits s (b + 0x84) 0 3) then s
  else
    let s := regSet (b + 0x98) (w32 addr) (regSet (b + 0x9C) (w32 (addr / 2 ^ 32)) s)
    let s := regField (b + 0xA0) 0 8 0 (regOr (b + 0x90) 2 s)
    let s := regSet (b + 0x84) (w32 (256 * code + (if c.outstanding = 0 then 0 else 5))) s
    let s := if s.dmaBusy = some ch then { s with dmaBusy := none } else s
    let v := freeNow s
    let s := freeStep (regSet (b + 0x88) (w32 (v.toNat / 2 ^ 32 % 2 ^ 17)) (regSet (b + 0x8C) (w32 v.toNat) s))
    dmaMod ch (fun c => { c with active := decide (c.outstanding ≠ 0), bursts := 0 }) s

/-- A register write the requester may not make (R40): logged with RIGHTS, and felt by the requester (R69). -/
def regDeny (r : Req) (off : Nat) (s : State) : State :=
  let s := regViolation r 2 off true s
  match r with
  | .trestle c => ticPulse c.val s
  | .dma ch => dmaStop ch.val 2 (ctrlAddr off) s
  | _ => s

/-- The effect of a register write, if the requester may make it. (DESIGN CHOICE, log entry 11) -/
def guarded (r : Req) (off : Nat) (f : State → State) (s : State) : State :=
  if mayAccess r off true then f s else regDeny r off s

end Sys2Proof.Machine
end

