-- ==== Sys2Proof/Machine/DeepStore.lean ====
section
/-! DEFINITION. The Deep Store (04_deep_store.md): address hash and bank map, ECC, the checks and the performing of an
access, semaphores, arrival counters, allocation, spare copy, relocation and the scrubber; and the regulator's buckets
(05_baskets_streams.md). -/

namespace Sys2Proof.Machine

open Sys2Proof

/-! ## Bandwidth regulator (R350 to R353) -/

/-- RATE, DEPTH and UNLIMITED of a class, as its GLB_BWR_c_CFG holds them. -/
def bwRate (s : State) (c : Nat) : Nat := regBits s (0x400 + 0x10 * c) 0 14
def bwDepth (s : State) (c : Nat) : Nat := regBits s (0x400 + 0x10 * c) 14 16
def bwUnlimited (s : State) (c : Nat) : Bool := bitAt (regGet s (0x400 + 0x10 * c)).toNat 31

/-- Units that accesses of the class took before they were there: kept at 48 + c of the bucket table, and paid by the
refills before any unit is free again. (DESIGN CHOICE, log entry 19) -/
def bwOwed (s : State) (c : Nat) : Nat := tabGet 0 s.tokens (48 + c)

/-- An access of the class may issue now (R351). (DESIGN CHOICE, log entry 19) -/
def bwReady (s : State) (c : Nat) : Bool := bwUnlimited s c || decide (0 < tabGet 0 s.tokens c)

/-- `n` accesses of a class issue: 64 B each are counted (R353), a limited class gives up its units (R351).
(DESIGN CHOICE, log entry 19) -/
def bwCharge (c n : Nat) (s : State) : State :=
  let s := regAdd64 (0x404 + 0x10 * c) (64 * n) s
  if bwUnlimited s c then s
  else
    let have_ := tabGet 0 s.tokens c
    { s with tokens := tabPut 0 (tabPut 0 s.tokens c (have_ - n)) (48 + c) (bwOwed s c + (n - have_)) }

/-- An access of class c waits for a unit: its 100 ns window counts once (GLB_BWR_c_STALL; the last counted window is
kept at 16 + c of the bucket table). (DESIGN CHOICE, log entry 19) -/
def bwStall (c : Nat) (s : State) : State :=
  let w := s.ts / 100 + 1
  if bwUnlimited s c || decide (tabGet 0 s.tokens (16 + c) = w) then s
  else regAdd (0x40C + 0x10 * c) 1 { s with tokens := tabPut 0 s.tokens (16 + c) w }

/-- A bucket setting that waits for the next multiple of 100 ns (BWR_SET): 1 more than its GLB_BWR_c_CFG word, kept at
32 + c of the bucket table. -/
def bwApply (c : Nat) (s : State) : State :=
  match tabGet 0 s.tokens (32 + c) with
  | 0 => s
  | n + 1 => regSet (0x400 + 0x10 * c) (w32 n) { s with tokens := tabPut 0 s.tokens (32 + c) 0 }

/-- Refill of one class by k steps (R351). (DESIGN CHOICE, log entry 9) -/
def bwRefill (k c : Nat) (s : State) : State :=
  let s := if k = 0 then s else bwApply c s
  let add := k * bwRate s c
  let owed := bwOwed s c
  let filled := tabPut 0 s.tokens c (min (bwDepth s c) (tabGet 0 s.tokens c + (add - owed)))
  { s with tokens := tabPut 0 filled (48 + c) (owed - add) }

/-- The refills at the multiples of 100 ns up to `t`. (DESIGN CHOICE, log entry 13) -/
def refillTo (t : Nat) (s : State) : State :=
  let k := t / 100 - s.lastRefill / 100
  let s := { s with lastRefill := max s.lastRefill t }
  (natsFrom 0 5).foldl (fun s' c => bwRefill k c s') s

/-- Does an earlier access of the class still wait (R351)? Accesses of one class keep their order. -/
def bwHeld (s : State) (c : Nat) : Bool := s.held.any fun h => decide (h.cls = c)

/-- An access joins those that wait for a unit of the class. (DESIGN CHOICE, log entry 19) -/
def bwHold (c : Nat) (acc : HeldAccess) (s : State) : State :=
  bwStall c { s with held := s.held ++ [⟨c, acc⟩] }

/-- A single access of a class: made now, or held until a refill (R351, R352). Accesses of no class never wait (R349). -/
def bwGate (cls : Option Nat) (acc : HeldAccess) (go : State → State) (s : State) : State :=
  match cls with
  | none => go s
  | some c => if bwReady s c && !bwHeld s c then go (bwCharge c 1 s) else bwHold c acc s

/-! ## Address hash and bank map (R217, R223, R278) -/

/-- The logical bank of a local address (R223). -/
def logicalBank (a : Nat) : Nat := bitsOf a 6 8 ^^^ bitsOf a 14 8 ^^^ bitsOf a 22 8

/-- The bank within the single group of limp mode (R278). -/
def limpBank (a : Nat) : Nat := bitsOf a 6 4 ^^^ bitsOf a 10 4 ^^^ bitsOf a 14 4 ^^^ bitsOf a 18 4

/-- The offset within the bank (R223). -/
def bankOffset (a : Nat) : Nat := bitsOf a 14 16 * 64 + a % 64

/-- The line index of an address within its bank. -/
def lineIdx (s : State) (a : Nat) : Nat := if s.limp.isSome then bitsOf a 10 16 else bitsOf a 14 16

/-- The physical bank that serves a logical bank (R217). -/
def physBank (s : State) (b : Nat) : Nat := tabGet b s.bankMap b

/-- The physical bank of a local address. -/
def bankOf (s : State) (a : Nat) : Nat :=
  match s.limp with
  | some g => 16 * g + limpBank a
  | none => physBank s (logicalBank a)

/-- Size of the local range in bytes (R43, R277). -/
def localSize (s : State) : Nat := if s.limp.isSome then 0x4000000 else 0x40000000

/-- State of a bank group. -/
def groupOf (s : State) (g : Nat) : GroupState := tabGet .off s.groups g

/-- Set the state of a bank group. -/
def groupSet (g : Nat) (v : GroupState) (s : State) : State := { s with groups := tabPut .off s.groups g v }

/-- An access touches a group that is not ON: its wake starts, and shows as a transition until
POWER_DOMAIN_TRANSITION_DONE (R275); a wake under way goes on. (DESIGN CHOICE, log entry 18) -/
def groupWake (g : Nat) (s : State) : State :=
  match groupOf s g with
  | .retain | .toRetain _ =>
    let x : Domain := { on := false, trans := some (true, s.ts) }
    groupSet g (.toOn false) { s with pwr := { s.pwr with doms := tabPut {} s.pwr.doms (68 + g) x } }
  | _ => s

/-! ## Bytes -/

/-- A byte of the store. (DESIGN CHOICE, log entry 8) -/
def memByte (s : State) (a : Nat) : Byte := tabGet 0 s.mem a

/-- `n` bytes from `a`. -/
def memBytes (s : State) (a n : Nat) : List Byte := (natsFrom a n).map (memByte s)

/-- Bytes written from `a` on. -/
def cellsWrite : Nat → List Byte → Tab Byte → Tab Byte
  | _, [], t => t
  | a, b :: bs, t => cellsWrite (a + 1) bs (tabPut 0 t a b)

/-- Write bytes of the store. A later fill of a line written does not merge with an earlier one (R563). -/
def memWrite (a : Nat) (d : List Byte) (s : State) : State :=
  { s with mem := cellsWrite a d s.mem,
           fills := s.fills.filter fun e => !(decide (a < 64 * e.1 + 64) && decide (64 * e.1 < a + d.length)) }

/-! ## ECC (R279 to R293) -/

/-- Check-bit state of the word at a word address. (DESIGN CHOICE, log entry 8) -/
def eccAt (s : State) (w : Nat) : Ecc := tabGet .ok s.ecc w

/-- Set it. -/
def eccSet (w : Nat) (v : Ecc) (s : State) : State := { s with ecc := tabPut .ok s.ecc w v }

/-- The words that an access of `n` bytes at `a` touches. -/
def wordsOf (a n : Nat) : List Nat := (natsFrom (a / 8) (cdiv (a % 8 + n) 8)).map (8 * ·)

/-- Who caused an ECC event: SOURCE and FLAGS of the log entry of a UE response. A CE entry has the same FLAGS but
ABORT: a corrected access aborts nothing (R280, R876). -/
structure EccCause where
  source : Nat
  flags : Nat
  deriving DecidableEq, Repr

/-- FLAGS of a CE entry: those of the access without ABORT. -/
def ceFlags (c : EccCause) : Nat := c.flags - atBit (bitsOf c.flags 5 1) 5

/-- Count a correctable error of a physical bank (R284). -/
def ceCount (bank : Nat) (s : State) : State :=
  let off := 0xC00 + 4 * (bank / 2)
  let lo := 16 * (bank % 2)
  let v := regBits s off lo 16
  let s := regAdd 0x818 1 (regOr 0x810 1 (regField off lo 16 (satAdd 65535 v 1) s))
  if 65534 ≤ v then regOr 0x810 8 (regOr (0x900 + 4 * (bank / 32)) (2 ^ (bank % 32)) s) else s

/-- The limit of one CE entry per bank in 1 ms (R281). (DESIGN CHOICE, log entry 18) -/
def ceLog (key : Nat) (i : LogInfo) (s : State) : State :=
  match tabGet? s.lastCe key with
  | some t => if s.ts < t + 1000000 then s else logPut i { s with lastCe := tabSet s.lastCe key s.ts }
  | none => logPut i { s with lastCe := tabSet s.lastCe key s.ts }

/-- A correctable error is found at a word: corrected, written back, counted and logged (R280, R281). -/
def ceFound (c : EccCause) (w : Nat) (s : State) : State :=
  let bank := bankOf s w
  let syn := (freeNow s).toNat % 256
  freeStep (ceLog bank
    { source := c.source, cls := 0, code := 0x20, detail := bank, addr := w, flags := ceFlags c, syndrome := syn }
    (ceCount bank (eccSet w .ok s)))

/-- What reading a word does to it: correction (R280) or poisoning (R282). -/
def eccTouch (c : EccCause) (w : Nat) (s : State) : State :=
  match eccAt s w with
  | .ok => s
  | .correctable => ceFound c w s
  | .uncorrectable => eccSet w .poisoned s
  | .poisoned => s

/-- Does a word answer UE? -/
def eccBad (s : State) (w : Nat) : Bool :=
  match eccAt s w with
  | .uncorrectable => true
  | .poisoned => true
  | _ => false

/-- Is one of the bad words poisoned? -/
def eccPoison (s : State) (ws : List Nat) : Bool := ws.any fun w => eccAt s w == .poisoned

/-- Fresh check bits for whole words (R288, R292). -/
def eccFresh (ws : List Nat) (s : State) : State := ws.foldl (fun s' w => eccSet w .ok s') s

/-- A UE response: DS_EVENT.UE, DS_UE_TOTAL and the log entry with the physical bank as DETAIL (R67, R282, R283, R291,
R872). `win` is what the fabric address of the access has above its local address: 0, or the base of the own node's
window (R37). -/
def ueLogAt (win : Nat) (c : EccCause) (poison : Bool) (addr : Nat) (s : State) : State :=
  let syn := if poison then Config.poisonSyndrome.toNat else (freeNow s).toNat % 256
  freeStep (logPut
    { source := c.source, cls := 1, code := 3, detail := bankOf s addr, addr := win + addr,
      flags := c.flags + b2n poison, syndrome := syn }
    (regAdd 0x81C 1 (regOr 0x810 2 s)))

/-- A UE response to an access by local address. -/
def ueLog (c : EccCause) (poison : Bool) (addr : Nat) (s : State) : State := ueLogAt 0 c poison addr s

/-! ## Semaphores (R249 to R262) -/

def semOf (s : State) (i : Nat) : Sem := tabGet {} s.sems i
def semPut (i : Nat) (v : Sem) (s : State) : State := { s with sems := tabPut {} s.sems i v }

/-- A take of n units is recorded for its owner on a tracked semaphore (R260, R261). -/
def semRecord (i tag n : Nat) (s : State) : State :=
  let m := semOf s i
  if n = 0 || !m.tracked then s
  else match tabGet? m.holds tag with
    | some k => semPut i { m with holds := tabSet m.holds tag (k + n) } s
    | none =>
      if m.holds.length < 8 then semPut i { m with holds := tabSet m.holds tag n } s else regOr 0x810 0x20 s

/-- The owner's record after it signals n units (R260). -/
def holdsGive (h : Tab Nat) (tag n : Nat) : Tab Nat :=
  match tabGet? h tag with
  | some k => if k ≤ n then tabDel h tag else tabSet h tag (k - n)
  | none => h

/-- n units are taken by a tag. -/
def semTake (i tag n : Nat) (s : State) : State :=
  let m := semOf s i
  semRecord i tag n (semPut i { m with value := m.value - n } s)

/-- Where a requester's DS_SEM_RES is kept. -/
def semRes (b : Nat) : Nat := bankKey b 0x884

/-- Tell the party that its queued wait was served (R258); a tile-op's wait is marked served. -/
def semGrant (who : Party) (value : Nat) (s : State) : State :=
  match who with
  | .bank b =>
    let s := regField (semRes b) 0 16 value (regField (semRes b) 29 2 1 s)
    if b = 0 then regOr 0x2020 1 s else if b ≤ 8 then ticPulse (7 + b) s else s
  | .op id => { s with ops := s.ops.map fun e => if e.1 = id then (e.1, { e.2 with waitServed := true }) else e }

/-- Serve the queue from its head (R250, R251). -/
def semServeGo (i : Nat) : List SemWait → State → State
  | [], s => s
  | w :: ws, s =>
    if w.n ≤ (semOf s i).value then
      let s := semPut i { semOf s i with queue := ws } s
      let s := semTake i w.tag w.n s
      semServeGo i ws (semGrant w.who (semOf s i).value s)
    else s

def semServe (i : Nat) (s : State) : State := semServeGo i (semOf s i).queue s

/-- signal(n) (R250, R253): `owner` is the tag whose record it lowers, none for an arrival counter (R265). -/
def semSignal (i n : Nat) (owner : Option Nat) (src det : Nat) (s : State) : State :=
  let m := semOf s i
  let v := m.value + n
  let s := if 65535 < v then
      logPut { source := src, cls := 2, code := 0x11, detail := det } (regOr 0x810 0x10 s) else s
  let holds := match owner with
    | some tag => holdsGive m.holds tag n
    | none => m.holds
  semServe i (semPut i { m with value := min v 65535, holds := holds } s)

/-- Can try(n) or the head of an empty queue take n units (R250, R252)? (DEDUCED, log entry 17) -/
def semCan (s : State) (i n : Nat) : Bool :=
  n == 0 || ((semOf s i).queue.isEmpty && decide (n ≤ (semOf s i).value))

/-- DS_SEM_RES after an operation performed (R256 to R258): OK, GRANTED cleared, INDEX of the armed wait while one is
armed, and the value. -/
def semResult (b i : Nat) (ok : Bool) (s : State) : State :=
  let r := semRes b
  let armed := bitAt (regGet s r).toNat 30
  let idx := if armed then regBits s r 16 12 else i
  regSet r (w32 (atBit (b2n ok) 31 + atBit (b2n armed) 30 + atBit idx 16 + (semOf s i).value % 65536)) s

/-- DS_SEM_RES after an operation that failed or was refused: OK 0 and GRANTED 0, the rest kept (R257). -/
def semFailed (b : Nat) (s : State) : State := regField (semRes b) 31 1 0 (regField (semRes b) 29 1 0 s)

/-- SIGNAL, TRY and READ of DS_SEM_OP (R250, R256). A SIGNAL that grants the requester's own armed wait leaves the
grant in DS_SEM_RES (R258). -/
def semSignalBy (req : Req) (sem n : Nat) (s : State) : State :=
  let b := reqBank req
  let s := semSignal sem n (some (reqTag req)) (reqTag req) (reqDetail req) (semResult b sem true s)
  if bitAt (regGet s (semRes b)).toNat 29 then s else semResult b sem true s
def semTryBy (req : Req) (sem n : Nat) (s : State) : State :=
  let ok := semCan s sem n
  semResult (reqBank req) sem ok (if ok then semTake sem (reqTag req) n s else s)
def semReadBy (req : Req) (sem : Nat) (s : State) : State := semResult (reqBank req) sem true s

def execDsSemSignal (req : Req) (sem : Fin 4096) (n : BitVec 16) (s : State) : Host.Outcome State Fault Refusal :=
  done (guarded req 0x880 (semSignalBy req sem n.toNat) s)
def execDsSemTry (req : Req) (sem : Fin 4096) (n : BitVec 16) (s : State) : Host.Outcome State Fault Refusal :=
  done (guarded req 0x880 (semTryBy req sem n.toNat) s)
def execDsSemRead (req : Req) (sem : Fin 4096) (s : State) : Host.Outcome State Fault Refusal :=
  done (guarded req 0x880 (semReadBy req sem) s)

/-- WAIT_ARM (R257, R258): a second armed wait fails; a wait that can be served is served at once.
(DEDUCED, log entry 17) -/
def semArm (b tag i n : Nat) (s : State) : State :=
  if bitAt (regGet s (semRes b)).toNat 30 then semFailed b s
  else if semCan s i n then
    let s := semTake i tag n s
    semGrant (.bank b) (semOf s i).value (semResult b i true s)
  else
    let m := semOf s i
    let s := semPut i { m with queue := m.queue ++ [⟨.bank b, tag, n⟩] } s
    regField (semRes b) 30 1 1 (semResult b i true s)

def execDsSemWaitArm (req : Req) (sem : Fin 4096) (n : BitVec 16) (s : State) : Host.Outcome State Fault Refusal :=
  done (guarded req 0x880 (semArm (reqBank req) (reqTag req) sem n.toNat) s)

/-- WAIT_CANCEL (R259). The queue behind the removed wait is served. -/
def semCancel (b : Nat) (s : State) : State :=
  if bitAt (regGet s (semRes b)).toNat 30 then
    let i := regBits s (semRes b) 16 12
    let m := semOf s i
    let s := semPut i { m with queue := m.queue.filter fun w => w.who ≠ .bank b } s
    let s := semServe i (regField (semRes b) 30 1 0 s)
    semResult b i true s
  else semFailed b s

def execDsSemWaitCancel (req : Req) (s : State) : Host.Outcome State Fault Refusal :=
  done (guarded req 0x880 (semCancel (reqBank req)) s)

def execSemWaitGrant (sem : Fin 4096) (s : State) : Host.Outcome State Fault Refusal := done (semServe sem s)

/-- SEM_SET clears every record and sets the value (R260); the queue is then served. -/
def semSetTo (i v : Nat) (tracked : Bool) (s : State) : State :=
  semServe i (semPut i { semOf s i with value := v, tracked := tracked, holds := [] } s)

/-- Revocation of a tag on one semaphore (R262): its waits go, its recorded units come back. -/
def semRevoke (tag i : Nat) (s : State) : State :=
  let m := semOf s i
  let banks := m.queue.filterMap fun w => match w.who with
    | .bank b => if w.tag = tag then some b else none
    | .op _ => none
  let s := semPut i { m with queue := m.queue.filter fun w => w.tag ≠ tag } s
  let s := banks.foldl (fun s' b => regField (semRes b) 30 1 0 s') s
  match tabGet? m.holds tag with
  | some k => semSignal i k (some tag) tag 0 s
  | none => semServe i s

/-! ## Handles (R234 to R243) and ring windows (R308, R310) -/

def handleOf (s : State) (i : Nat) : Handle := tabGet {} s.handles i
def handlePut (i : Nat) (h : Handle) (s : State) : State := { s with handles := tabPut {} s.handles i h }

/-- The handle value of an entry (R235). -/
def handleVal (s : State) (i : Nat) : Nat := (handleOf s i).gen * 256 + i

/-- Does a handle value name a valid entry of the present generation? -/
def handleOk (s : State) (hv : Nat) : Bool :=
  hv < 0x10000 && (handleOf s (hv % 256)).valid && decide ((handleOf s (hv % 256)).gen = hv / 256)

/-- The buffer that holds an address, if one does. -/
def bufferAt (s : State) (a : Nat) : Option Nat :=
  (s.handles.find? fun e => e.2.valid && decide (e.2.base ≤ a) && decide (a < e.2.base + 4096 * e.2.units)).map (·.1)

def ringOf (s : State) (r : Nat) : Ring := tabGet {} s.rings r
def ringPut (r : Nat) (v : Ring) (s : State) : State := { s with rings := tabPut {} s.rings r v }

/-- The declared ring in the buffer of a handle entry. -/
def ringOfHandle (s : State) (i : Nat) : Option Nat :=
  (s.rings.find? fun e => e.2.declared && decide (e.2.handle % 256 = i)).map (·.1)

def slotOf (g : Ring) (i : Nat) : Slot := tabGet {} g.tab i

/-- Does a window let its holder make this access now (R310)? -/
def windowAllows (g : Ring) (w : Window) (write : Bool) : Bool :=
  let sl := slotOf g (w.counter % g.slots)
  if w.producer then sl.state == .filling && !sl.committed
  else !write && (sl.state == .full || (sl.state == .shadow && sl.epoch == w.epoch))

/-- The ring check of an access to bytes [off, off + n) of a ring buffer (R308). -/
def ringCheck (s : State) (idx tag off n : Nat) (write : Bool) : Bool :=
  match ringOfHandle s idx with
  | none => false
  | some r =>
    let g := ringOf s r
    let sz := 4096 * g.slotUnits
    s.windows.any fun w => decide (w.ring = r) && decide (w.tag = tag) &&
      decide (w.counter % g.slots * sz ≤ off) && decide (off + n ≤ (w.counter % g.slots + 1) * sz) &&
      windowAllows g w write

/-! ## The access pipeline (R231) -/

/-- Step 1: size and alignment of the view (R225 to R227). -/
def viewOk (r : DsReq) (a : Nat) : Bool :=
  if r.wide then r.size == 64 && a % 64 == 0
  else (r.size == 1 || r.size == 2 || r.size == 4 || r.size == 8) && a % r.size == 0

/-- Bit of RIGHTS that the view needs (R234). -/
def rightBit (r : DsReq) : Nat := 2 * b2n (!r.wide) + b2n r.write

/-- Step 3 for an access to address a in entry i (R240 to R243, R308). -/
def bufferCheck (s : State) (r : DsReq) (i a : Nat) : Nat :=
  let h := handleOf s i
  if !h.ring && decide (r.tag = 0x1C) then 0
  else if !(bitAt h.owner r.tag && bitAt h.rights (rightBit r)) then 2
  else if h.ring && !ringCheck s i r.tag (a - h.base) r.size r.write then 4
  else 0

/-- Steps 1 to 3: response code, address and buffer entry. -/
def dsCheck (s : State) (r : DsReq) : Nat × Nat × Nat :=
  match r.target with
  | .addr a =>
    if !viewOk r a then (5, a, 0)
    else if localSize s < a + r.size then (1, a, 0)
    else match bufferAt s a with
      | none => (2, a, 0)
      | some i => (bufferCheck s r i a, a, i)
  | .handle hv off =>
    let i := hv % 256
    let a := (handleOf s i).base + off
    if !viewOk r off then (5, if handleOk s hv then a else 0, i)
    else if !handleOk s hv then (2, 0, i)
    else if localSize s < a + r.size then (1, a, i)
    else if 4096 * (handleOf s i).units < off + r.size then (2, a, i)
    else (bufferCheck s r i a, a, i)

/-- Step 4: may the bank's group serve the access (R274, R275)? `force` is for the supervisor and the scheduler.
(DESIGN CHOICE, log entry 18) -/
def groupServes (s : State) (g : Nat) (force : Bool) : Bool :=
  match groupOf s g with
  | .on => true
  | .retain => s.autowake || force
  | .toRetain fresh => !fresh && (s.autowake || force)
  | .toOn fresh => !fresh && (s.autowake || force)
  | _ => false

/-- FLAGS of a log entry for an access (R876). A failing access of a pixel core aborts its task (R69). -/
def accFlags (r : DsReq) : Nat :=
  atBit (b2n r.write) 2 + atBit (b2n (r.write && decide (r.size < 8))) 3 + atBit (b2n (decide (r.tag < 16))) 5

/-- The log entry of an error response (R67). UE responses write theirs in `ueLog`. -/
def dsErrLog (r : DsReq) (code a : Nat) (s : State) : State :=
  logPut { source := r.tag, cls := if code = 7 then 3 else if code = 3 then 1 else 2, code := code,
           detail := r.detail, addr := a, flags := accFlags r } s

/-- Arrival counters of a buffer count one wide write (R264, R265). -/
def arrivalOne (k : Nat) (r : DsReq) (s : State) : State :=
  match tabGet? s.arrivals k with
  | none => s
  | some a =>
    if a.stopped then s
    else if a.count + 1 < a.target then
      { s with arrivals := tabSet s.arrivals k { a with count := (a.count + 1) % 2 ^ 32 } }
    else
      let a' := if a.rearm then { a with count := a.count + 1 - a.target }
        else { a with count := a.count + 1, stopped := true }
      let s := { s with arrivals := tabSet s.arrivals k a' }
      match a.sem with
      | some i => semSignal i a.semN none r.tag r.detail s
      | none => s

def arrivalCount (idx : Nat) (r : DsReq) (s : State) : State :=
  (s.arrivals.filter fun e => e.2.idx = idx).foldl (fun s' e => arrivalOne e.1 r s') s

/-- Step 5 and the performing of the access at its bank (R280 to R293). -/
def dsPerformAt (win : Nat) (r : DsReq) (a idx : Nat) (s : State) : State × Reply :=
  let c : EccCause := ⟨r.tag, accFlags r⟩
  let ws := wordsOf a r.size
  if r.write then
    if r.size < 8 then
      if ws.any (eccBad s) then
        let p := eccPoison s ws
        (regOr 0x810 4 (ueLogAt win c p (a / 8 * 8) (ws.foldl (fun s' w => eccTouch c w s') s)), { resp := 3 })
      else (memWrite a r.data (ws.foldl (fun s' w => eccTouch c w s') s), {})
    else
      let s := memWrite a r.data (eccFresh ws s)
      (if r.wide then arrivalCount idx r s else s, {})
  else if ws.any (eccBad s) then
    let p := eccPoison s ws
    (ueLogAt win c p a (ws.foldl (fun s' w => eccTouch c w s') s), { resp := 3 })
  else (ws.foldl (fun s' w => eccTouch c w s') s, { data := memBytes s a r.size })

/-- An access by local address performed. -/
def dsPerform (r : DsReq) (a idx : Nat) (s : State) : State × Reply := dsPerformAt 0 r a idx s

/-- The ring whose BK_r_VIOL counts a RING response. -/
def ringViol (idx : Nat) (s : State) : State :=
  match ringOfHandle s idx with
  | some r => regAdd (0x10088 + 0x200 * r) 1 s
  | none => s

/-- An access refused with a code: the log entry (R67), and BK_r_VIOL for RING. -/
def dsRefuse (r : DsReq) (code a idx : Nat) (s : State) : State :=
  let s := dsErrLog r code a s
  if code = 4 then ringViol idx s else s

/-- One access to the local Deep Store (R231): checks, performing, response, log. `win` stands above the local address
in what is logged (R67). -/
def dsAccessAt (win : Nat) (r : DsReq) (force : Bool) (s : State) : State × Reply :=
  match dsCheck s r with
  | (0, a, i) =>
    let g := bankOf s a / 16
    if groupServes s g (force || decide (r.tag = 0x1C)) then
      dsPerformAt win r a i (if groupOf s g == .on then s else groupWake g s)
    else (dsRefuse r 6 (win + a) i s, { resp := 6 })
  | (code, a, i) => (dsRefuse r code (win + a) i s, { resp := code })

/-- One access by local address. -/
def dsAccess (r : DsReq) (force : Bool) (s : State) : State × Reply := dsAccessAt 0 r force s

/-- Traffic class of a requester's own accesses (R348): host and DMA 4, remote 3, none for Trestle cores and the
supervisor (R349); a pixel core's depends on its unit and is charged there. -/
def bwClassOf (tag : Nat) (write : Bool) : Option Nat :=
  if tag < 16 then some (if write then 2 else 1)
  else if tag = 0x18 || tag = 0x19 then some 4
  else if tag = 0x1A then some 0
  else if tag = 0x1B then some 3
  else none

/-- The narrow piece of an access to [p, p + n) that begins at p (R226): naturally aligned, at most 8 B. -/
def narrowSize (p n : Nat) : Nat :=
  if p % 8 = 0 && 8 ≤ n then 8
  else if p % 4 = 0 && 4 ≤ n then 4
  else if p % 2 = 0 && 2 ≤ n then 2
  else 1

/-- The piece of a host access to [p, p + n) that begins at p (R45): a whole aligned line, or a narrow piece. -/
def pieceSize (p n : Nat) : Nat := if p % 64 = 0 && 64 ≤ n then 64 else narrowSize p n

/-- [p, p + n) cut by a rule for the size of the piece that begins an access: address and size of each piece. The first
argument bounds their number. -/
def cutBy (size : Nat → Nat → Nat) : Nat → Nat → Nat → List (Nat × Nat)
  | 0, _, _ => []
  | f + 1, p, n => if n = 0 then [] else (p, size p n) :: cutBy size f (p + size p n) (n - size p n)

/-- The pieces of a host access (R45), and of an access in the narrow view (R226). -/
def pieces (f p n : Nat) : List (Nat × Nat) := cutBy pieceSize f p n
def narrowPieces (f p n : Nat) : List (Nat × Nat) := cutBy narrowSize f p n

/-- Read a range in pieces: the bytes and the first error response. -/
def dsReadPieces (tag det : Nat) (cls : Option Nat) (force : Bool) :
    List (Nat × Nat) → State → State × Nat × List Byte
  | [], s => (s, 0, [])
  | (a, n) :: ps, s =>
    let s := match cls with | some c => bwCharge c 1 s | none => s
    let q := dsAccess ⟨tag, det, .addr a, decide (n = 64), false, n, []⟩ force s
    let t := dsReadPieces tag det cls force ps q.1
    (t.1, if q.2.resp = 0 then t.2.1 else q.2.resp, q.2.data ++ t.2.2)

/-- Narrow reads of a Trestle core, ended by the first error response. -/
def dsReadUntil (tag det : Nat) : List (Nat × Nat) → State → State × Nat × List Byte
  | [], s => (s, 0, [])
  | (a, n) :: ps, s =>
    let q := dsAccess ⟨tag, det, .addr a, false, false, n, []⟩ false s
    if q.2.resp ≠ 0 then (q.1, q.2.resp, [])
    else
      let t := dsReadUntil tag det ps q.1
      (t.1, t.2.1, q.2.data ++ t.2.2)

/-- Write a range in pieces; a piece that fails is not written, the others are. Answers the first error response.
(DESIGN CHOICE, log entry 15) -/
def dsWritePieces (tag det : Nat) (cls : Option Nat) (force : Bool) :
    List (Nat × Nat) → List Byte → State → State × Nat
  | [], _, s => (s, 0)
  | (a, n) :: ps, d, s =>
    let s := match cls with | some c => bwCharge c 1 s | none => s
    let q := dsAccess ⟨tag, det, .addr a, decide (n = 64), true, n, d.take n⟩ force s
    let t := dsWritePieces tag det cls force ps (d.drop n) q.1
    (t.1, if q.2.resp = 0 then t.2 else q.2.resp)

/-- Supervisor reads and writes of a range of the local store, in the narrow view (R226). -/
def supRead (a n : Nat) (s : State) : State × Nat × List Byte :=
  dsReadPieces 0x1C 0 none true (narrowPieces n a n) s
def supWrite (a : Nat) (d : List Byte) (s : State) : State × Nat :=
  dsWritePieces 0x1C 0 none true (narrowPieces d.length a d.length) d s

/-! ## Accesses of several pieces that wait for the regulator (R351) -/

/-- The pieces of a job in order, each when its class has a unit: a failing piece gives the job its first code, the
others are still made. (DESIGN CHOICE, log entries 15 and 19: the spec does not say what becomes of the other pieces of
an access of which one fails) -/
def jobGo : List (Nat × Nat) → PieceJob → State → State × PieceJob
  | [], j, s => (s, { j with todo := [] })
  | (a, n) :: t, j, s =>
    if bwReady s j.cls then
      let r : DsReq := ⟨j.tag, j.det, .addr a, decide (n = 64), j.write, n, if j.write then j.data.take n else []⟩
      let q := dsAccess r false (bwCharge j.cls 1 s)
      jobGo t { j with data := j.data.drop n, got := j.got ++ q.2.data,
                       code := if j.code = 0 then q.2.resp else j.code } q.1
    else (bwStall j.cls s, { j with todo := (a, n) :: t })

/-- Every piece has been made: the completion of a BAR2 read, all ones after an error (R69; DEDUCED, log entry 15), or
the response to another node (R858). -/
def jobEnd (j : PieceJob) (s : State) : State :=
  match j.who with
  | .bar len =>
    if j.write then s
    else reply 0 (if j.code = 0 then { data := j.got } else { resp := j.code, data := List.replicate len 0xFF }) s
  | .serve tag => xkSend j.det 5 ([b8 tag, b8 j.code] ++ List.replicate 6 0 ++
      (if j.code = 0 && !j.write then j.got else [])) s

/-- A job of several pieces: as far as the regulator lets it go now; the rest waits. -/
def jobRun (j : PieceJob) (s : State) : State :=
  if bwHeld s j.cls then bwHold j.cls (.job j) s
  else
    let q := jobGo j.todo j s
    if q.2.todo.isEmpty then jobEnd q.2 q.1 else bwHold j.cls (.job q.2) q.1

/-! ## Host BAR2 (R44 to R47, R69) -/

/-- A BAR2 read, in pieces of class HOST. -/
def bar2Read (addr len : Nat) (s : State) : State :=
  jobRun { who := .bar len, write := false, tag := 0x18, det := 0, cls := 4, todo := pieces len addr len } s

def execHostBar2Read (addr len : Nat) (s : State) : Host.Outcome State Fault Refusal := done (bar2Read addr len s)

/-- A BAR2 write, in pieces of class HOST. The pieces that get no error are written though another gets one: the rules
speak of an access as one and do not say how far its discard goes. (DESIGN CHOICE, log entry 15) -/
def bar2Write (addr : Nat) (data : List Byte) (s : State) : State :=
  jobRun { who := .bar data.length, write := true, tag := 0x18, det := 0, cls := 4,
           todo := pieces data.length addr data.length, data := data } s

def execHostBar2Write (addr : Nat) (data : List Byte) (s : State) : Host.Outcome State Fault Refusal :=
  done (bar2Write addr data s)

/-! ## Allocation (R236, R237) -/

/-- A range put into a list of ranges in address order. -/
def rangeInsert (r : Nat × Nat) : List (Nat × Nat) → List (Nat × Nat)
  | [] => [r]
  | q :: t => if r.1 ≤ q.1 then r :: q :: t else q :: rangeInsert r t

/-- The allocated ranges, in units of 4 KiB, with the destination of a relocation. -/
def usedRanges (s : State) : List (Nat × Nat) :=
  let l := s.handles.foldr (fun e l => if e.2.valid then rangeInsert (e.2.base / 4096, e.2.units) l else l) []
  match s.reloc with
  | some r => rangeInsert (r.dest / 4096, (handleOf s r.idx).units) l
  | none => l

/-- The free ranges between used ones, from unit `c` up to `total`. -/
def gapsFrom (total : Nat) : Nat → List (Nat × Nat) → List (Nat × Nat)
  | c, [] => if c < total then [(c, total - c)] else []
  | c, (b, n) :: t => if c < b then (c, b - c) :: gapsFrom total (b + n) t else gapsFrom total (max c (b + n)) t

def gaps (s : State) : List (Nat × Nat) := gapsFrom (localSize s / 4096) 0 (usedRanges s)

/-- DS_FREE_UNITS and DS_LARGEST_FREE. -/
def freeUnits (s : State) : Nat := (gaps s).foldl (fun n g => n + g.2) 0
def largestFree (s : State) : Nat := (gaps s).foldl (fun n g => max n g.2) 0

/-- The lowest free range of n units, in bytes (DESIGN CHOICE: R236 leaves the pick open).
(DESIGN CHOICE, log entry 16) -/
def freeBase (s : State) (n : Nat) : Option Nat := ((gaps s).find? fun g => n ≤ g.2).map fun g => 4096 * g.1

/-- The lowest free entry (DESIGN CHOICE, as above). (DESIGN CHOICE, log entry 16) -/
def freeEntry (s : State) : Option Nat := (natsFrom 0 256).find? fun i => !(handleOf s i).valid

/-- Allocate a buffer of n units: its entry, or none for NO_RESOURCE (R236, R237). (DESIGN CHOICE, log entry 16) -/
def allocate (n rights owner : Nat) (cls : HandleClass) (ring : Bool) (s : State) : Option (State × Nat) :=
  match freeEntry s, freeBase s n with
  | some i, some b =>
    some (handlePut i { valid := true, gen := (handleOf s i).gen, base := b, units := n, rights := rights,
                        owner := owner, cls := cls, ring := ring, lock := none } s, i)
  | _, _ => none

/-- May an entry not be freed: its buffer is locked (R245), or an arrival counter is bound to it (R267)? -/
def handleKept (s : State) (i : Nat) : Bool :=
  (handleOf s i).lock.isSome || s.arrivals.any fun e => decide (e.2.idx = i)

/-- Free an entry (R238): VALID clears and GEN advances, from 255 to 1. A relocation of the buffer ends with it. -/
def freeHandle (i : Nat) (s : State) : State :=
  let g := (handleOf s i).gen
  handlePut i { gen := if g = 255 then 1 else g + 1 }
    { s with reloc := if s.reloc.any fun r => decide (r.idx = i) then none else s.reloc }

/-! ## Spare copy, relocation, scrubber -/

/-- The words of a logical bank with a mark. -/
def marksOf (s : State) (p : Nat → Bool) : List Nat := (s.ecc.filter fun e => p e.1).map (·.1)

/-- One word copied to the spare: correctable corrected, uncorrectable or poisoned written poisoned with a UE entry
(R220, R896). -/
def copyWord (w : Nat) (s : State) : State :=
  match eccAt s w with
  | .correctable => ceFound ⟨0x1C, 0⟩ w s
  | .uncorrectable => ueLog ⟨0x1C, 0⟩ false w (eccSet w .poisoned s)
  | .poisoned => ueLog ⟨0x1C, 0⟩ true w s
  | .ok => s

/-- The state group 16 takes while a spare is mapped: the most awake of groups 0 to 15 (R222). -/
def spareGroupFollow (s : State) : State :=
  if s.bankMap.any (fun e => decide (256 ≤ e.2)) then
    let gs := (natsFrom 0 16).map (groupOf s)
    if gs.contains .on then groupSet 16 .on s
    else if gs.contains .retain then groupSet 16 .retain s
    else if gs.all (· == .off) then groupSet 16 .off s else s
  else s

/-- The copy is complete, with group 16 ON: the map switches, the old bank is mapped out (R219, R895).
A supervisor makes the switch: during a takeover nothing changes (R684). (DESIGN CHOICE, log entries 20 and 46) -/
def spareDone (s : State) : State :=
  match (if s.sup.failed then none else s.copy), groupOf s 16 with
  | some c, .on =>
    let old := physBank s c.logical
    let s := (marksOf s fun w => logicalBank w = c.logical).foldl (fun s' w => copyWord w s') s
    let s := { s with copy := none, bankMap := tabSet s.bankMap c.logical c.dest,
                      bankOut := if s.bankOut.contains old then s.bankOut else old :: s.bankOut }
    longDone (fun l => l.opcode == 0x0704) 0 0 (leBytes 2 c.dest ++ leBytes 2 0) (spareGroupFollow s)
  | _, _ => s

def execSpareCopyDone (s : State) : Host.Outcome State Fault Refusal := done (spareDone s)

/-- Entries of a table moved from [a, a + n) to [b, b + n); what stood there goes. -/
def tabMove {α : Type} (a n b : Nat) (t : Tab α) : Tab α :=
  let kept := t.filter fun e => !(decide (b ≤ e.1) && decide (e.1 < b + n))
  (t.filter fun e => decide (a ≤ e.1) && decide (e.1 < a + n)).foldl
    (fun t' e => tabSet t' (b + (e.1 - a)) e.2) kept

/-- An address of the range [b, b + n) once the range lies at d. -/
def addrMove (b n d a : Nat) : Nat := if b ≤ a ∧ a < b + n then a - b + d else a

/-- What a dispatched tile-op still has to do in a range that has moved. -/
def opMove (b n d : Nat) (o : TileOp) : TileOp :=
  let region (r : Region) : Region :=
    if r.space = 0 ∧ b ≤ r.lo ∧ r.lo < b + n then { r with lo := r.lo - b + d, hi := r.hi - b + d } else r
  let piece (p : Piece) : Piece :=
    match p with
    | .read a k c => .read (addrMove b n d a) k c
    | .write a x c => .write (addrMove b n d a) x c
    | .stop k a w => .stop k (addrMove b n d a) w
    | .zeros k => .zeros k
    | .index => .index
  { o with dst := o.dst.map region, srcs := o.srcs.map region, todo := o.todo.map piece }

/-- The relocation's copy is complete: BASE changes, and what goes by the handle follows (R247, R248).
(DESIGN CHOICE, log entry 20) -/
def relocFinish (s : State) : State :=
  match s.reloc with
  | none => s
  | some r =>
    let h := handleOf s r.idx
    let n := 4096 * h.units
    handlePut r.idx { h with base := r.dest }
      { s with reloc := none, mem := tabMove h.base n r.dest s.mem, ecc := tabMove h.base n r.dest s.ecc, fills := [],
               ops := s.ops.map fun e => (e.1, opMove h.base n r.dest e.2) }

/-- One word met by the scrubber (R285). A word already poisoned is passed over. -/
def scrubWord (w : Nat) (s : State) : State :=
  match eccAt s w with
  | .correctable => ceFound ⟨0x1C, 0x10⟩ w s
  | .uncorrectable => ueLog ⟨0x1C, 0x10⟩ false w (eccSet w .poisoned s)
  | _ => s

/-- The scrubber reads one line of every ON group and moves on (R285, R287). (DESIGN CHOICE, log entry 18) -/
def scrubStep (s : State) : State :=
  let l := regBits s 0x824 0 16
  let ws := marksOf s fun w => decide (lineIdx s w = l) && (groupOf s (bankOf s w / 16) == .on)
  let s := ws.foldl (fun s' w => scrubWord w s') s
  if l = 65535 then regField 0x820 0 16 (regBits s 0x820 0 16 + 1) (regSet 0x824 0 s)
  else regSet 0x824 (w32 (l + 1)) s

def execScrubLine (s : State) : Host.Outcome State Fault Refusal := done (scrubStep s)

end Sys2Proof.Machine
end

