-- ==== Sys2Proof/Machine/Rings.lean ====
section
/-! DEFINITION. Basket rings (05_baskets_streams.md): counters, slot transitions, windows, the operations of BK_r_OP,
epochs, resets. -/

namespace Sys2Proof.Machine

open Sys2Proof

/-- WRAP (R298). -/
def wrapOf (g : Ring) : Nat := g.slots * (65536 / g.slots)

/-- The distance of counter c from TAIL in modular order. -/
def fromTail (g : Ring) (c : Nat) : Nat := (c + wrapOf g - g.tail) % wrapOf g

/-- Occupancy (R299). -/
def occOf (g : Ring) : Nat := fromTail g g.head

/-- The slot of a counter. -/
def slotAt (g : Ring) (c : Nat) : Slot := slotOf g (c % g.slots)

/-- A ring with the slot of a counter changed. -/
def slotPut (c : Nat) (v : Slot) (g : Ring) : Ring := { g with tab := tabPut {} g.tab (c % g.slots) v }

/-- Base of a ring's registers. -/
def bkBase (r : Nat) : Nat := 0x10000 + 0x200 * r

/-- Local address of the slot of a counter (R296). -/
def slotAddr (s : State) (g : Ring) (c : Nat) : Nat :=
  (handleOf s (g.handle % 256)).base + 4096 * g.slotUnits * (c % g.slots)

/-! ## Tile-cache lines by core and number -/

def tcKey (core line : Nat) : Nat := core * 2 ^ 24 + line
def tcCore (key : Nat) : Nat := key / 2 ^ 24
def tcLineNo (key : Nat) : Nat := key % 2 ^ 24

/-- A line leaves a tile cache, with what it holds dirty. -/
def tcDrop (core line : Nat) (s : State) : State := { s with tcache := tabDel s.tcache (tcKey core line) }

/-- The lines of a core, by number, that satisfy p. -/
def tcLines (s : State) (core : Nat) (p : Nat → TcLine → Bool) : List Nat :=
  (s.tcache.filter fun e => decide (tcCore e.1 = core) && p (tcLineNo e.1) e.2).map fun e => tcLineNo e.1

/-- Drop the lines of a core that satisfy p, with what they hold dirty. -/
def tcDropAll (core : Nat) (p : Nat → TcLine → Bool) (s : State) : State :=
  (tcLines s core p).foldl (fun s' n => tcDrop core n s') s

/-- Is a line inside a byte range? -/
def lineIn (lo hi n : Nat) : Bool := decide (lo < 64 * n + 64) && decide (64 * n < hi)

/-- The lines of some cores inside the slot of a counter go: what a release does to the releaser's (R317). -/
def slotForget (cores : List Nat) (r c : Nat) (s : State) : State :=
  let a := slotAddr s (ringOf s r) c
  let n := 4096 * (ringOf s r).slotUnits
  cores.foldl (fun s' core => tcDropAll core (fun l _ => lineIn a (a + n) l) s') s

/-! ## Publication and TAIL (R303 to R305) -/

/-- The slot at PUB becomes FULL with its reference count (R304). -/
def publishedSlot (g : Ring) (sl : Slot) : Slot :=
  let rc := g.refs - b2n (g.autoUp && sl.last) - b2n (g.autoDown && sl.first) - sl.early
  { state := if rc = 0 then .draining else .full, rc := rc, first := sl.first, last := sl.last }

/-- Publish in counter order while the slot at PUB is committed (R303); the number published. -/
def publishGo : Nat → Ring → Ring × Nat
  | 0, g => (g, 0)
  | f + 1, g =>
    let sl := slotAt g g.pub
    if g.pub ≠ g.head && sl.committed && (sl.state == .filling || sl.state == .shadow) then
      let q := publishGo f { slotPut g.pub (publishedSlot g sl) g with pub := (g.pub + 1) % wrapOf g }
      (q.1, q.2 + 1)
    else (g, 0)

/-- TAIL advances past every slot whose references are all released (R302, R305). -/
def tailGo : Nat → Ring → Ring
  | 0, g => g
  | f + 1, g =>
    if g.tail ≠ g.pub && (slotAt g g.tail).state == .draining then
      tailGo f { slotPut g.tail {} g with tail := (g.tail + 1) % wrapOf g }
    else g

/-- Stripe events of a ring: EV_k for each stream k that feeds it (R30, R306). -/
def stripeEvents (r n : Nat) (s : State) : State :=
  let ks := (s.streams.filter fun e => e.2.ring == some r && e.2.state != .stopped).map (·.1)
  (natsFrom 0 n).foldl (fun s' _ => ks.foldl (fun s'' k => evPulse k s'') s') s

/-! ## Serving acquires (R312, R313, R316, R324, R325) -/

/-- The table of windows has room (R307). -/
def windowFree (s : State) : Bool := decide (s.windows.length < 2048)

/-- Does a slot belong to an unconfirmed epoch? -/
def slotUnconfirmed (sl : Slot) : Bool := sl.epoch.isSome && !sl.conf

/-- The slots in FILLING or SHADOW. -/
def openSlots (g : Ring) : List Slot :=
  (g.tab.filter fun e => e.2.state == .filling || e.2.state == .shadow).map (·.2)

/-- May a producer acquire with this epoch be served now, the window table aside? -/
def prodReady (g : Ring) (ep : Option Nat) : Bool :=
  decide (occOf g < g.slots) && (slotAt g g.head).state == .empty &&
  (match ep with
   | none => !(openSlots g).any slotUnconfirmed
   | some _ => (openSlots g).all fun sl => sl.epoch.isNone || sl.epoch == ep)

/-- May a consumer acquire of counter c be served now? -/
def consReady (g : Ring) (c : Nat) (ep : Option Nat) : Bool :=
  decide (fromTail g c < occOf g) &&
  ((slotAt g c).state == .full || ((slotAt g c).state == .shadow && ep.isSome && (slotAt g c).epoch == ep))

/-- Must a speculative consumer acquire wait for another epoch (R324)? -/
def consEpochOk (g : Ring) (ep : Option Nat) : Bool :=
  ep.isNone || (openSlots g).all fun sl => sl.epoch.isNone || sl.epoch == ep

/-- Tell the party that its queued acquire was served (R320). -/
def ringGrant (who : Party) (r c slot : Nat) (s : State) : State :=
  match who with
  | .bank b =>
    let off := bankKey b (bkBase r + 0x24)
    let s := regField off 0 16 c (regField off 16 6 slot (regField off 24 5 0 (regField off 29 2 1 s)))
    if b = 0 then regOr 0x2020 2 s else if b ≤ 8 then ticPulse (15 + b) s else s
  | .op id =>
    let m (q : Nat × Option Nat) : Bool := decide (q.1 = r) && (q.2.isNone || q.2 == some c)
    let f (e : Nat × TileOp) : Nat × TileOp :=
      if e.1 = id then
        let prod := e.2.toAcquire.any fun q => m q && q.2.isNone
        (e.1, { e.2 with toAcquire := e.2.toAcquire.filter (fun q => !m q), held := e.2.held ++ [(r, c, prod)] })
      else e
    { s with ops := s.ops.map f }

/-- The producer takes counter HEAD (R302): the slot, the window, HEAD. Answers the counter. -/
def takeHead (r tag : Nat) (ep : Option Nat) (s : State) : State :=
  let g := ringOf s r
  let c := g.head
  let s := ringPut r { slotPut c { state := .filling, epoch := ep } g with head := (c + 1) % wrapOf g } s
  { s with windows := s.windows ++ [⟨r, c, tag, true, ep⟩] }

/-- A consumer window on counter c. -/
def takeCons (r tag c : Nat) (ep : Option Nat) (s : State) : State :=
  { s with windows := s.windows ++ [⟨r, c, tag, false, ep⟩] }

/-- A waiting acquire that finds the window table full counts in BK_WIN_WAIT, once (R307). -/
def winWait (r : Nat) (a : Acquire) (s : State) : State :=
  if a.counted then s
  else
    let g := ringOf s r
    let mark (x : Acquire) : Acquire := if x = a then { x with counted := true } else x
    regAdd 0x101F0 1 (ringPut r { g with waitP := g.waitP.map mark, waitC := g.waitC.map mark } s)

/-- Serve the waiting producers one at a time in arrival order (R312). -/
def serveProd (r : Nat) : List Acquire → State → State
  | [], s => s
  | a :: t, s =>
    let g := ringOf s r
    if !prodReady g a.epoch then s
    else if !windowFree s then winWait r a s
    else
      let s := takeHead r a.tag a.epoch (ringPut r { g with waitP := t } s)
      serveProd r t (ringGrant a.who r g.head (g.head % g.slots) s)

/-- A waiting consumer acquire fails with RANGE (R313). -/
def consFail (who : Party) (r : Nat) (s : State) : State :=
  match who with
  | .bank b =>
    let off := bankKey b (bkBase r + 0x24)
    let s := regField off 24 5 3 (regField off 29 2 0 s)
    if b = 0 then regOr 0x2020 2 s else if b ≤ 8 then ticPulse (15 + b) s else s
  | .op id => { s with ops := s.ops.map fun e => if e.1 = id then (e.1, { e.2 with failed := some 3 }) else e }

/-- Serve or fail the waiting consumers (R313). -/
def serveCons (r : Nat) : List Acquire → State → State
  | [], s => s
  | a :: t, s =>
    let g := ringOf s r
    let c := a.counter.getD 0
    if g.slots ≤ fromTail g c then
      serveCons r t (consFail a.who r (ringPut r { g with waitC := g.waitC.filter (· ≠ a) } s))
    else if !(consReady g c a.epoch && consEpochOk g a.epoch) then serveCons r t s
    else if !windowFree s then serveCons r t (winWait r a s)
    else
      let s := takeCons r a.tag c a.epoch (ringPut r { g with waitC := g.waitC.filter (· ≠ a) } s)
      serveCons r t (ringGrant a.who r c (c % g.slots) s)

/-- A list without the first element that satisfies p. -/
def dropFirst {α : Type} (p : α → Bool) : List α → List α
  | [] => []
  | a :: t => if p a then t else a :: dropFirst p t

/-- The acquires of a party on a ring leave its queues. -/
def dropAcquires (r : Nat) (p : Acquire → Bool) (s : State) : State :=
  let g := ringOf s r
  ringPut r { g with waitP := g.waitP.filter (fun a => !p a), waitC := g.waitC.filter (fun a => !p a) } s

/-- One window of a tag on a counter goes. -/
def dropWindow (r c tag : Nat) (producer : Bool) (s : State) : State :=
  let p (w : Window) : Bool :=
    decide (w.ring = r) && decide (w.counter = c) && decide (w.tag = tag) && w.producer == producer
  { s with windows := dropFirst p s.windows }

/-- The queued waits and acquires of a tile-op go. -/
def opUnqueue (id : Nat) (s : State) : State :=
  let s := (s.sems.filter fun e => e.2.queue.any fun w => w.who == .op id).foldl
    (fun s' e => semServe e.1 (semPut e.1 { semOf s' e.1 with
      queue := (semOf s' e.1).queue.filter fun w => w.who ≠ .op id } s')) s
  (s.rings.filter fun e => (e.2.waitP ++ e.2.waitC).any fun a => a.who == .op id).foldl
    (fun s' e => dropAcquires e.1 (fun a => a.who == .op id) s') s

/-- The queued waits and acquires of a tile-op go; the consumer windows it was granted go without a release. -/
def opForget (id : Nat) (o : TileOp) (tag : Nat) (s : State) : State :=
  let s := opUnqueue id s
  (o.held.filter fun h => !h.2.2).foldl (fun s' h => dropWindow h.1 h.2.1 tag false s') s

/-- Core set of a stream group. -/
def groupCs (s : State) (g : Nat) : Nat := match tabGet? s.sgroups g with | some x => x.cs | none => 0

/-- Squash tile-ops (R507, R533, R538): queued ones go and count in GLB_SQUASHED; issued ones finish with their data
and signal discarded, a SEM_WAIT without the units it still waits for. -/
def squashOps (p : TileOp → Bool) (s : State) : State :=
  let gone := s.ops.filter fun e => p e.2 && !e.2.issued
  let keep := (s.ops.filter fun e => !(p e.2 && !e.2.issued)).map fun e =>
    if p e.2 then (e.1, { e.2 with dropped := true }) else e
  let late := s.ops.filter fun e => p e.2 && e.2.issued && !e.2.waitServed
  let s := late.foldl (fun s' e => opUnqueue e.1 s') { s with ops := keep }
  let s := gone.foldl (fun s' e => opForget e.1 e.2 (groupCs s e.2.group) s') s
  if gone.isEmpty then s else regAdd 0x780 gone.length s

/-- The counter of the slot committed LAST among the `n` counters published from `c` on, if one is. -/
def lastAmong (g : Ring) (c n : Nat) : Option Nat :=
  ((natsFrom 0 n).map fun k => (c + k) % wrapOf g).find? fun c' => (slotAt g c').last

/-- The driver ring of a running task publishes its LAST slot: later stripes are squashed (R507). -/
def driverLast (r : Nat) (old : Ring) (n : Nat) (s : State) : State :=
  s.sgroups.foldl (fun s' e =>
    match e.2.task with
    | some t =>
      if t.driver = r && t.lastStripe.isNone && e.2.phase == .running then
        match lastAmong (ringOf s r) old.pub n with
        | some c =>
          let k := (c + wrapOf old - tabGet 0 t.ringBase r) % wrapOf old
          squashOps (fun o => decide (o.group = e.1) && decide (o.phase = 1) && decide (k < o.stripe))
            { s' with sgroups := tabSet s'.sgroups e.1 { e.2 with task := some { t with lastStripe := some k } } }
        | none => s'
      else s'
    | none => s') s

/-- What follows a change of a ring in the same cycle: publication, TAIL, producers, consumers (R316). The LAST slot of
a driver ring takes effect before any consumer is served (R507). -/
def ringSettle (r : Nat) (s : State) : State :=
  let g := ringOf s r
  let q := publishGo g.slots g
  let s := driverLast r g q.2 (ringPut r q.1 s)
  let s := ringPut r (tailGo g.slots (ringOf s r)) s
  let s := stripeEvents r q.2 (if q.2 = 0 then s else regAdd (bkBase r + 0x80) q.2 s)
  let s := serveProd r (ringOf s r).waitP s
  serveCons r (ringOf s r).waitC s

/-- Every ring in turn, after a window has gone. -/
def ringsSettle (s : State) : State := s.rings.foldl (fun s' e => ringSettle e.1 s') s

/-! ## Commit and release (R311, R314) -/

/-- Does a tag hold a window of a role on a counter? -/
def holdsWindow (s : State) (r c tag : Nat) (producer : Bool) : Bool :=
  s.windows.any fun w => decide (w.ring = r) && decide (w.counter = c) && decide (w.tag = tag) && w.producer == producer

/-- A slot committed (R302): SHADOW under an unconfirmed epoch, else COMMITTED. -/
def commitEffect (r c tag : Nat) (first last : Bool) (s : State) : State :=
  let g := ringOf s r
  let sl := slotAt g c
  let sl := { sl with first := first, last := last }
  let sl := if slotUnconfirmed sl then { sl with state := .shadow } else { sl with committed := true }
  dropWindow r c tag true (ringPut r (slotPut c sl g) s)

def ringCommit (r c tag : Nat) (first last : Bool) (s : State) : State :=
  ringSettle r (commitEffect r c tag first last s)

/-- A release of counter c on its slot (R302, R311). -/
def releaseSlotOf (r c : Nat) (s : State) : State :=
  let g := ringOf s r
  let sl := slotAt g c
  if decide (fromTail g c < occOf g) && sl.state == .shadow then
    ringPut r (slotPut c { sl with early := sl.early + 1 } g) s
  else if decide (fromTail g c < occOf g) && sl.state == .full && decide (0 < sl.rc) then
    ringPut r (slotPut c { sl with rc := sl.rc - 1, state := if sl.rc = 1 then .draining else .full } g) s
  else regAdd (bkBase r + 0x88) 1 s

def ringRelease (r c tag : Nat) (s : State) : State := ringSettle r (releaseSlotOf r c (dropWindow r c tag false s))

/-! ## Acquires that may wait -/

/-- A producer acquire: served, or queued behind those that wait (R307, R312). -/
def prodAcquire (who : Party) (r tag : Nat) (ep : Option Nat) (s : State) : State :=
  let g := ringOf s r
  if g.waitP.isEmpty && prodReady g ep then
    if windowFree s then ringGrant who r g.head (g.head % g.slots) (takeHead r tag ep s)
    else ringPut r { g with waitP := [⟨who, tag, none, ep, true⟩] } (regAdd 0x101F0 1 s)
  else ringPut r { g with waitP := g.waitP ++ [⟨who, tag, none, ep, false⟩] } s

/-- A consumer acquire whose counter is in range (R307, R313). -/
def consAcquire (who : Party) (r tag c : Nat) (ep : Option Nat) (s : State) : State :=
  let g := ringOf s r
  if consReady g c ep && consEpochOk g ep then
    if windowFree s then ringGrant who r c (c % g.slots) (takeCons r tag c ep s)
    else ringPut r { g with waitC := g.waitC ++ [⟨who, tag, some c, ep, true⟩] } (regAdd 0x101F0 1 s)
  else ringPut r { g with waitC := g.waitC ++ [⟨who, tag, some c, ep, false⟩] } s

/-! ## The operations of BK_r_OP (R318 to R322, R1008) -/

/-- Where a requester's BK_r_RES is kept. -/
def bkRes (b r : Nat) : Nat := bankKey b (bkBase r + 0x24)

/-- BK_r_RES after an operation: OK, ERR, GRANTED cleared, ARMED kept. -/
def bkResult (b r : Nat) (ok : Bool) (err : Nat) (s : State) : State :=
  regField (bkRes b r) 31 1 (b2n ok) (regField (bkRes b r) 29 1 0 (regField (bkRes b r) 24 5 err s))

/-- SLOT and COUNTER of BK_r_RES. -/
def bkCounter (b r c : Nat) (s : State) : State :=
  regField (bkRes b r) 0 16 c (regField (bkRes b r) 16 6 (c % (ringOf s r).slots) s)

/-- The tag an operation acts under (R321). -/
def actTag (req : Req) (forDma : Bool) : Nat := if forDma then 0x19 else reqTag req

/-- PROD_TRY. -/
def bkProdTry (b tag r : Nat) (s : State) : State :=
  let g := ringOf s r
  if !g.declared then bkResult b r false 9 s
  else if g.producer ≠ tag then bkResult b r false 2 s
  else if !(g.waitP.isEmpty && prodReady g none) then bkResult b r false 1 s
  else if !windowFree s then bkResult b r false 5 s
  else bkCounter b r g.head (bkResult b r true 0 (takeHead r tag none s))

/-- CONS_TRY. -/
def bkConsTry (b tag r c : Nat) (s : State) : State :=
  let g := ringOf s r
  if !g.declared then bkResult b r false 9 s
  else if g.slots ≤ fromTail g c then bkCounter b r c (bkResult b r false 3 s)
  else if !consReady g c none then bkCounter b r c (bkResult b r false 1 s)
  else if !windowFree s then bkCounter b r c (bkResult b r false 5 s)
  else bkCounter b r c (bkResult b r true 0 (takeCons r tag c none s))

/-- NO_WINDOW (R322): counted, logged with the slot's address. (DESIGN CHOICE, log entry 18) -/
def noWindow (b r c src det : Nat) (s : State) : State :=
  let a := slotAddr s (ringOf s r) c
  bkCounter b r c (bkResult b r false 4 (regAdd (bkBase r + 0x88) 1
    (logPut { source := src, cls := 2, code := 0x12, detail := det, addr := a } s)))

/-- COMMIT. The result stands before the ring serves its queue: a grant to the requester's own armed acquire made by
this very operation stays in BK_r_RES until its next write to BK_r_OP (R318, R320). -/
def bkCommit (b tag src det r c : Nat) (first last : Bool) (s : State) : State :=
  if !(ringOf s r).declared then bkResult b r false 9 s
  else if !holdsWindow s r c tag true then noWindow b r c src det s
  else ringCommit r c tag first last (bkCounter b r c (bkResult b r true 0 s))

/-- RELEASE, its result written first like COMMIT's. -/
def bkRelease (b tag src det r c : Nat) (s : State) : State :=
  if !(ringOf s r).declared then bkResult b r false 9 s
  else if !holdsWindow s r c tag false then noWindow b r c src det s
  else ringRelease r c tag (bkCounter b r c (bkResult b r true 0 s))

/-- Is an acquire of the requester armed on the ring? -/
def bkArmed (s : State) (b r : Nat) : Bool := bitAt (regGet s (bkRes b r)).toNat 30

/-- ARMED is set while the acquire waits in the queue. -/
def bkArmedFlag (b r : Nat) (s : State) : State :=
  let g := ringOf s r
  if (g.waitP ++ g.waitC).any fun a => a.who == .bank b then regField (bkRes b r) 30 1 1 s else s

/-- PROD_ARM. (DEDUCED, log entry 17) -/
def bkProdArm (b tag r : Nat) (s : State) : State :=
  let g := ringOf s r
  if !g.declared then bkResult b r false 9 s
  else if g.producer ≠ tag then bkResult b r false 2 s
  else if bkArmed s b r then bkResult b r false 6 s
  else bkArmedFlag b r (prodAcquire (.bank b) r tag none (bkResult b r true 0 s))

/-- CONS_ARM. (DEDUCED, log entry 17) -/
def bkConsArm (b tag r c : Nat) (s : State) : State :=
  let g := ringOf s r
  if !g.declared then bkResult b r false 9 s
  else if bkArmed s b r then bkResult b r false 6 s
  else if g.slots ≤ fromTail g c then bkCounter b r c (bkResult b r false 3 s)
  else bkArmedFlag b r (consAcquire (.bank b) r tag c none (bkCounter b r c (bkResult b r true 0 s)))

/-- ARM_CANCEL. (DEDUCED, log entry 17) -/
def bkArmCancel (b r : Nat) (s : State) : State :=
  if !(ringOf s r).declared then bkResult b r false 9 s
  else if !bkArmed s b r then bkResult b r false 10 s
  else
    let s := regField (bkRes b r) 30 1 0 (dropAcquires r (fun a => a.who == .bank b) s)
    bkResult b r true 0 (ringSettle r s)

/-! ## Epochs (R323 to R328) -/

/-- EPOCH_CONFIRM on one ring: SHADOW slots of the epoch become COMMITTED, FILLING ones commit as others do; acquires of
the epoch that wait go on as confirmed work, without an epoch (R302, R532). -/
def ringConfirm (ep r : Nat) (s : State) : State :=
  let f (e : Nat × Slot) : Nat × Slot :=
    if e.2.epoch == some ep then
      (e.1, { e.2 with conf := true, committed := e.2.committed || e.2.state == .shadow })
    else e
  let free (a : Acquire) : Acquire := if a.epoch == some ep then { a with epoch := none } else a
  let g := ringOf s r
  ringSettle r (ringPut r { g with tab := g.tab.map f, waitP := g.waitP.map free, waitC := g.waitC.map free } s)

/-- Is this slot returned by the cancellation of an epoch? -/
def slotCancelled (ep : Nat) (sl : Slot) : Bool :=
  (sl.state == .filling || sl.state == .shadow) && sl.epoch == some ep && !sl.conf

/-- The counters of a ring from TAIL to HEAD − 1. -/
def liveCounters (g : Ring) : List Nat := (natsFrom 0 (occOf g)).map fun k => (g.tail + k) % wrapOf g

/-- Cancellation of an epoch on one ring (R327). -/
def ringCancel (ep r : Nat) (s : State) : State :=
  let g := ringOf s r
  let cs := (liveCounters g).filter fun c => slotCancelled ep (slotAt g c)
  let g' := cs.foldl (fun g c => slotPut c {} g) g
  let head := match cs with | c :: _ => c | [] => g.head
  let s := { s with windows := s.windows.filter fun w => !(decide (w.ring = r) && w.epoch == some ep) }
  let s := dropAcquires r (fun a => a.epoch == some ep) (ringPut r { g' with head := head } s)
  ringSettle r (if cs.isEmpty then s else regAdd (bkBase r + 0x84) cs.length s)

/-- A declared ring with a slot in use, a window or an armed acquire: it is neither redeclared nor undeclared (R297). An
acquire of a tile-op waits without being armed. -/
def ringInUse (s : State) (r : Nat) : Bool :=
  let g := ringOf s r
  let armed (a : Acquire) : Bool := match a.who with | .bank _ => true | .op _ => false
  g.declared && ((g.tab.any fun e => e.2.state != .empty) || (s.windows.any fun w => decide (w.ring = r)) ||
    (g.waitP ++ g.waitC).any armed)

/-! ## Reset (R333) and what an abort does to an EXTERNAL ring (R334) -/

/-- A dropped armed acquire shows ERR RESET and ARMED 0. -/
def bkResetRes (r : Nat) (a : Acquire) (s : State) : State :=
  match a.who with
  | .bank b => regField (bkRes b r) 24 5 7 (regField (bkRes b r) 29 2 0 s)
  | .op _ => s

/-- Ring reset. Acquires of tile-ops, which are not armed, go on waiting. -/
def ringReset (r : Nat) (s : State) : State :=
  let g := ringOf s r
  let s := (g.waitP ++ g.waitC).foldl (fun s' a => bkResetRes r a s') s
  let isOp (a : Acquire) : Bool := match a.who with | .op _ => true | .bank _ => false
  let g' := { g with tail := g.head, pub := g.head, tab := [], waitP := g.waitP.filter isOp,
                     waitC := g.waitC.filter isOp }
  ringSettle r (ringPut r g' { s with windows := s.windows.filter fun w => w.ring ≠ r })

/-- Every consumer window of a tag on a ring goes as by RELEASE; the number of windows. -/
def releaseAll (r tag : Nat) (s : State) : State :=
  (s.windows.filter fun w => decide (w.ring = r) && decide (w.tag = tag) && !w.producer).foldl
    (fun s' w => releaseSlotOf r w.counter (dropWindow r w.counter tag false s')) s

/-- The slots from PUB to HEAD − 1 return to EMPTY and HEAD goes back to PUB (R334). -/
def ringUnproduce (r : Nat) (s : State) : State :=
  let g := ringOf s r
  let cs := (liveCounters g).drop (fromTail g g.pub)
  let g' := cs.foldl (fun g c => slotPut c {} g) g
  let s := { s with windows := s.windows.filter fun w => !(decide (w.ring = r) && w.producer) }
  ringPut r { g' with head := g.pub } s

/-- A task abort of core set `tag` on an EXTERNAL ring (R334). -/
def ringAbortExternal (r tag : Nat) (s : State) : State :=
  let s := dropAcquires r (fun a => a.tag = tag) (releaseAll r tag s)
  ringSettle r (if (ringOf s r).producer = tag then ringUnproduce r s else s)

end Sys2Proof.Machine
end

