-- ==== Sys2Proof/Machine/Tasks.lean ====
section
/-! DEFINITION. Tasks of stream groups (08_tile_ops.md): members, journal, stripe publication, speculative epochs, task
abort, and the drain after an abort. -/

namespace Sys2Proof.Machine

open Sys2Proof

/-! ## Core sets, groups, models -/

/-- The logical cores of a core set, ascending (R479). -/
def csMembers (s : State) (cs : Nat) : List Nat := (natsFrom 0 64).filter fun c => bitAt (tabGet 0 s.coreSets cs) c

/-- The core set a logical core belongs to. -/
def csOfCore (s : State) (c : Nat) : Option Nat := (s.coreSets.find? fun e => bitAt e.2 c).map (·.1)

def groupGet (s : State) (g : Nat) : Option Group := tabGet? s.sgroups g
def groupPut (g : Nat) (x : Group) (s : State) : State := { s with sgroups := tabSet s.sgroups g x }

/-- Change a bound group. -/
def groupMod (g : Nat) (f : Group → Group) (s : State) : State :=
  match groupGet s g with
  | some x => groupPut g (f x) s
  | none => s

/-- Change the task of a group. -/
def taskMod (g : Nat) (f : Task → Task) (s : State) : State :=
  groupMod g (fun x => { x with task := x.task.map f }) s

/-- The group and its task, if it has one. -/
def taskOf (s : State) (g : Nat) : Option (Group × Task) :=
  match groupGet s g with
  | some x => x.task.map fun t => (x, t)
  | none => none

/-- A physical core's number as requester detail of accesses of a logical core (R872). -/
def physCore (s : State) (c : Nat) : Option Nat := tabGet? s.coreMap c

/-- The image of a loaded model slot. -/
def modelOf (s : State) (m : Nat) : Option Model := tabGet? s.models m

/-- Physical semaphore of an image semaphore (R500). -/
def imgSem (md : Model) (i : Nat) : Nat := md.semBase + i

/-- The rings bound to an image. -/
def modelRings (md : Model) : List Nat := md.rings.map (·.2)

/-- Identity of an epoch of a core set in slots and windows. -/
def epochId (cs e : Nat) : Nat := 256 * cs + e

/-! ## Progress journal (R519 to R523) -/

/-- A stripe word (R520). -/
def stripeWord (t : Task) (k : Nat) (r : StripeRec) : Nat :=
  b2n r.issued + atBit (b2n r.computed) 1 + atBit (b2n r.stored) 2 + atBit (b2n r.published) 3 +
    atBit (b2n (r.epoch != 0)) 4 + atBit (b2n r.cancelled) 5 + atBit (b2n r.aborted) 6 + atBit (r.epoch % 256) 8 +
    atBit (r.error % 256) 16 + atBit (k % 65536) 32 + atBit (t.rep % 65536) 48

/-- Write the stripe word of stripe k, if the stripe reached ISSUED (R521). -/
def journalStripe (g k : Nat) (s : State) : State :=
  match taskOf s g with
  | none => s
  | some (x, t) =>
    match tabGet? t.stripes k with
    | none => s
    | some r =>
      if r.issued then
        (supWrite ((handleOf s x.journal).base + 8 * (r.q % x.jwords)) (leBytes 8 (stripeWord t k r)) s).1
      else s

/-- Change the record of a stripe and write its word. -/
def stripeMod (g k : Nat) (f : StripeRec → StripeRec) (s : State) : State :=
  match taskOf s g with
  | none => s
  | some (_, t) =>
    let r := (tabGet? t.stripes k).getD { q := (t.qFirst + k) % 2 ^ 32 }
    journalStripe g k (taskMod g (fun t => { t with stripes := tabSet t.stripes k (f r) }) s)

/-- A task record (R523): STATE 1 RUNNING, 2 DONE, 3 ABORTED. (DEDUCED, log entry 38) -/
def taskRecord (t : Task) (state tsEnd : Nat) : List Byte :=
  leBytes 4 t.rep ++ [b8 state, b8 t.cause, b8 t.source, 0] ++ leBytes 8 t.tsStart ++ leBytes 8 tsEnd ++
    leBytes 8 t.lxStart ++ leBytes 4 t.qFirst ++ leBytes 4 t.issued ++ leBytes 4 t.published ++
    leBytes 2 t.confirms ++ leBytes 2 t.cancels ++ leBytes 4 t.releases ++ List.replicate 12 0

/-- Write the task record of the group's task at index REPEAT mod 256. -/
def journalTask (g state tsEnd : Nat) (s : State) : State :=
  match taskOf s g with
  | none => s
  | some (x, t) =>
    (supWrite ((handleOf s x.journal).base + 8 * x.jwords + 64 * (t.rep % 256)) (taskRecord t state tsEnd) s).1

/-! ## Stripe publication (R517, R518) -/

/-- Stripe groups of a core set: N / G (R479). -/
def stripeGroups (s : State) (x : Group) (md : Model) : Nat := (csMembers s x.cs).length / imgG md.image

/-- The members that run stripe k (R480). -/
def stripeMembers (s : State) (x : Group) (md : Model) (k : Nat) : List Nat :=
  let n := stripeGroups s x md
  if n = 0 then [] else natsFrom (k % n * imgG md.image) (imgG md.image)

/-- Has member m dispatched all of its program for stripe k? -/
def pastStripe (t : Task) (m k : Nat) : Bool :=
  let c := tabGet {} t.cursors m
  decide (2 ≤ c.phase) || (decide (c.phase = 1) && decide (k < c.stripe))

/-- COMPUTED (R517): every tile-op of the stripe's programs has completed. -/
def stripeComputed (s : State) (g : Nat) (x : Group) (md : Model) (t : Task) (k : Nat) : Bool :=
  (stripeMembers s x md k).all (fun m => pastStripe t m k) &&
    s.ops.all fun e => !(decide (e.2.group = g) && decide (e.2.phase = 1) && decide (e.2.stripe = k))

/-- Counter of a ring operand for stripe k: B' + k + REL, B' the ring's TAIL at task start (R488). A producer's counters
run from HEAD at task start, since its acquires take HEAD (R312); the two differ only on a ring that still holds slots
of an earlier repeat. (DEDUCED, log entry 76) -/
def ringCounter (s : State) (t : Task) (r : Nat) (k : Nat) (o : Opd) : Nat :=
  let w := wrapOf (ringOf s r)
  let b := tabGet 0 (if ringProd o then t.headBase else t.ringBase) r
  ((b : Int) + k + ringRel o + w).toNat % w

/-- Is a counter's slot past publication (not between PUB and HEAD)? -/
def counterPublished (g : Ring) (c : Nat) : Bool :=
  !(decide (fromTail g g.pub ≤ fromTail g c) && decide (fromTail g c < occOf g))

/-- No output slot of stripe k waits for publication or is SHADOW. -/
def stripeOutputsFull (s : State) (md : Model) (t : Task) (k : Nat) : Bool :=
  ((stripeRings md.image).filter ringCmt).all fun o =>
    match tabGet? md.rings o.slot with
    | some r => counterPublished (ringOf s r) (ringCounter s t r k o)
    | none => true

/-- Mark the COMPUTED and STORED stripes, and publish in stripe order (R517, R518). -/
def publishStripes (g : Nat) : Nat → State → State
  | 0, s => s
  | f + 1, s =>
    match taskOf s g with
    | none => s
    | some (x, t) =>
      match modelOf s x.model, tabGet? t.stripes t.pubNext with
      | some md, some r =>
        let k := t.pubNext
        if r.cancelled then publishStripes g f (taskMod g (fun t => { t with pubNext := k + 1 }) s)
        else if r.stored && stripeOutputsFull s md t k then
          let s := taskMod g (fun t => { t with pubNext := k + 1, published := t.published + 1 }) s
          let s := stripeMod g k (fun r => { r with published := true }) s
          publishStripes g f (evPulse (112 + x.cs) s)
        else s
      | _, _ => s

/-- COMPUTED and STORED of the stripes in work, then publication. -/
def stripesProgress (g : Nat) (s : State) : State :=
  match taskOf s g with
  | none => s
  | some (x, t) =>
    match modelOf s x.model with
    | none => s
    | some md =>
      if x.phase != .running && x.phase != .boundary then s
      else
        let s := t.stripes.foldl (fun s' e =>
          if e.2.issued && !e.2.computed && stripeComputed s' g x md t e.1 then
            stripeMod g e.1 (fun r => { r with computed := true, stored := true }) s'
          else s') s
        publishStripes g (t.stripes.length + 1) s

/-! ## Epochs (R530 to R536) -/

def epochState (t : Task) (e : Nat) : EpochState := tabGet .idle t.epochs e

/-- Does a tile-op belong to epoch e of group g? -/
def opInEpoch (g e : Nat) (o : TileOp) : Bool :=
  decide (o.group = g) && opSpec o.w0 && decide (opEpoch o.w0 = e)

/-- The epoch semaphores of an epoch, from the EPOCHSEMS section (R496): image semaphore in [11:0] of an entry, the
epoch in the low byte of the next. -/
def epochSems (m : List Byte) (e : Nat) : List Nat :=
  let x := imgSec m 7
  ((natsFrom 0 (x.size / 4)).filter fun i => decide (leAt m (x.off + 4 * i + 2) 1 = e)).map
    fun i => leAt m (x.off + 4 * i) 2 % 4096

/-- An IDLE or OPEN epoch becomes CANCELLED with the effects of R535. -/
def cancelEffects (g e : Nat) (x : Group) (md : Model) (s : State) : State :=
  let s := taskMod g (fun t => { t with epochs := tabPut .idle t.epochs e .cancelled, cancels := t.cancels + 1 }) s
  let s := regAdd 0x788 1 (regOr 0x704 2 s)
  let s := squashOps (opInEpoch g e) s
  let s := (modelRings md).foldl (fun s' r => ringCancel (epochId x.cs e) r s') s
  let s := (epochSems md.image e).foldl (fun s' i =>
    let p := imgSem md i
    semSetTo p 0 (semOf s' p).tracked s') s
  match taskOf s g with
  | none => s
  | some (_, t) => t.stripes.foldl (fun s' k =>
      if k.2.epoch = e && !k.2.published then stripeMod g k.1 (fun r => { r with cancelled := true }) s' else s') s

/-- Cancel one epoch (R533): a CONFIRMED one is left and CANCEL_VOID set; a CANCELLED one stays as it is. -/
def cancelEpoch (g e : Nat) (s : State) : State :=
  match taskOf s g with
  | none => s
  | some (x, t) =>
    match modelOf s x.model with
    | none => s
    | some md =>
      match epochState t e with
      | .confirmed => regOr 0x704 8 s
      | .cancelled => s
      | _ => stripesProgress g (cancelEffects g e x md s)

/-- Cancel the epochs 1 to 255 of a group that `p` accepts. (DEDUCED, log entry 38) -/
def cancelEpochs (g : Nat) (p : EpochState → Bool) (s : State) : State :=
  (natsFrom 1 255).foldl (fun s' e =>
    match taskOf s' g with
    | some (_, t) => if p (epochState t e) then cancelEpoch g e s' else s'
    | none => s') s

/-- The running groups of a core set. -/
def groupsOfCs (s : State) (cs : Nat) : List Nat := (s.sgroups.filter fun e => e.2.cs = cs).map (·.1)

/-- GLB_EPOCH_CANCEL with GO (R533): one epoch, or for 0 every one not CONFIRMED. -/
def epochCancelOp (cs e : Nat) (s : State) : State :=
  (groupsOfCs s cs).foldl (fun s' g =>
    if e = 0 then cancelEpochs g (fun st => st == .idle || st == .open_) s' else cancelEpoch g e s') s

/-- EPOCH_CONFIRM (R532). -/
def confirmEpoch (g e : Nat) (s : State) : State :=
  match taskOf s g with
  | none => s
  | some (x, t) =>
    match modelOf s x.model with
    | none => s
    | some md =>
      match epochState t e with
      | .cancelled => regOr 0x704 4 s
      | .confirmed => s
      | _ =>
        let s := taskMod g
          (fun t => { t with epochs := tabPut .idle t.epochs e .confirmed, confirms := t.confirms + 1 }) s
        let s := (modelRings md).foldl (fun s' r => ringConfirm (epochId x.cs e) r s') (regAdd 0x784 1 s)
        stripesProgress g s

/-! ## Task abort (R537 to R539) -/

/-- The releases that the task's programs make on the slot of stripe j of a ring (R329, R488): its own and its
neighbours' halo releases. -/
def releasesOwed (s : State) (md : Model) (r j : Nat) (isFirst isLast : Bool) : Nat :=
  let g := ringOf s r
  ((stripeRings md.image).filter fun o => ringRls o && tabGet? md.rings o.slot == some r).foldl (fun n o =>
    n + b2n (decide (ringRel o ≤ (j : Int)))
      + b2n (ringHalo o && g.autoUp && !isLast) + b2n (ringHalo o && g.autoDown && !isFirst)) 0

/-- The EXTERNAL rings of a model: the ring slots it did not declare itself. -/
def externalRings (md : Model) : List Nat := (modelRings md).filter fun r => !md.ownRings.contains r

/-- Stripes that take a number q: up to the highest that reached ISSUED (R520, R883). -/
def stripesUsed (t : Task) : Nat := t.stripes.foldl (fun n e => if e.2.issued then max n (e.1 + 1) else n) 0

/-- Abort the task of a group with a cause and the owner tag of its source. A task already aborting keeps its first
cause (R888). (DEDUCED, log entry 38) -/
def abortTask (g cause source : Nat) (s : State) : State :=
  match taskOf s g with
  | none => s
  | some (x, t) =>
    if x.phase != .running && x.phase != .boundary then s
    else match modelOf s x.model with
      | none => s
      | some md =>
        let s := groupMod g (fun x => { x with phase := .aborting }) s
        let s := taskMod g (fun t => { t with cause := cause, source := source }) s
        let s := squashOps (fun o => o.group = g) s
        let s := { s with xk := { s.xk with colls := s.xk.colls.filter fun l => decide (l.group ≠ g) } }
        let s := cancelEpochs g (· == .open_) s
        let s := md.ownRings.foldl (fun s' r => ringReset r s') s
        let consumed := (externalRings md).filter fun r => (ringOf s r).producer ≠ x.cs
        let s := (externalRings md).foldl (fun s' r =>
          let ws := s'.windows.filter fun w => decide (w.ring = r) && decide (w.tag = x.cs) && !w.producer
          let s' := taskMod g (fun t => { t with relDone := ws.foldl (fun d w =>
            tabMod 0 d (65536 * r + w.counter) (· + 1)) t.relDone }) s'
          ringAbortExternal r x.cs (ws.foldl (fun s'' w => slotForget (csMembers s'' x.cs) r w.counter s'') s')) s
        let s := { s with accs := s.accs.filter fun e => !(csMembers s x.cs).contains e.1 }
        let s := t.stripes.foldl (fun s' k =>
          match taskOf s' g with
          | some (_, t') =>
            if ((tabGet? t'.stripes k.1).map (·.published)) == some false then
              stripeMod g k.1 (fun r =>
                { r with aborted := true, error := if r.error = 0 then 0x80 + cause else r.error }) s'
            else s'
          | none => s') s
        let drains := consumed.map fun r => ({ ring := r, next := tabGet 0 t.ringBase r, owed := [] } : Drain)
        let used := match taskOf s g with | some (_, t') => stripesUsed t' | none => 0
        let s := groupMod g (fun x =>
          { x with drains := drains, awaits := true, bases := [], q := (x.q + used) % 2 ^ 32 }) s
        let s := journalTask g 3 s.ts s
        evPulse (128 + x.cs) (regAdd 0x78C 1 (regOr 0x704 1 s))

/-- Abort the tasks of every group bound to a core set. -/
def abortCs (cs cause source : Nat) (s : State) : State :=
  (groupsOfCs s cs).foldl (fun s' g => abortTask g cause source s') s

/-- Drain one slot of an aborted repeat (R539): the releases still owed are made on it once it is FULL. -/
def drainSlot (s : State) (md : Model) (t : Task) (d : Drain) (c : Nat) : State :=
  let g := ringOf s d.ring
  let w := wrapOf g
  let sl := slotAt g c
  let owed := releasesOwed s md d.ring ((c + w - tabGet 0 t.ringBase d.ring) % w) sl.first sl.last
  let n := owed - tabGet 0 t.relDone (65536 * d.ring + c)
  ringSettle d.ring ((natsFrom 0 n).foldl (fun s' _ => releaseSlotOf d.ring c s') s)

/-- Go on with one drain while slots of the aborted repeat are FULL; none left when LAST has been passed. -/
def drainGo (g : Nat) : Nat → Drain → State → State × Option Drain
  | 0, d, s => (s, some d)
  | f + 1, d, s =>
    let q := ringOf s d.ring
    match taskOf s g with
    | none => (s, none)
    | some (x, t) =>
      match modelOf s x.model with
      | none => (s, none)
      | some md =>
        if !(q.declared) then (s, none)
        else if counterPublished q d.next && decide (fromTail q d.next < occOf q) then
          let last := (slotAt q d.next).last
          let s := drainSlot s md t d d.next
          let c := (d.next + 1) % wrapOf q
          if last then (groupMod g (fun x => { x with bases := tabSet x.bases d.ring c }) s, none) else drainGo g f { d with next := c } s
        else if decide (fromTail q d.next < q.slots) then (s, some d)
        else drainGo g f { d with next := (d.next + 1) % wrapOf q } s

/-- Every drain of a group. -/
def drainGroup (g : Nat) (s : State) : State :=
  match groupGet s g with
  | none => s
  | some x =>
    if x.drains.isEmpty then s
    else
      let q := x.drains.foldl (fun (p : State × List Drain) d =>
        let r := drainGo g 65536 d p.1
        (r.1, p.2 ++ r.2.toList)) (s, [])
      groupMod g (fun x => { x with drains := q.2 }) q.1

/-- Does every logical core of a core set have a core that serves it (R434, R435)? -/
def csReady (s : State) (cs : Nat) : Bool :=
  (csMembers s cs).all fun c =>
    match physCore s c with
    | some p => (tabGet {} s.cores p).state == .mapped || (tabGet {} s.cores p).state == .pending
    | none => false

/-! ## Between tasks -/

/-- A core's state changes. -/
def coreMod (p : Nat) (f : Core → Core) (s : State) : State := { s with cores := tabMod {} s.cores p f }

/-- Map a logical core to a physical core that is IDLE (R433, R434); REMAP is set. -/
def remapCore (c p : Nat) (s : State) : State :=
  regOr 0x570 0x10 { coreMod p (fun x => { x with state := .mapped, mapTo := none }) s with
    coreMap := tabSet s.coreMap c p }

/-- What logical core `c` kept in its physical core goes: cached lines and accumulators. -/
def coreForget (c : Nat) (s : State) : State :=
  { s with coreMap := tabDel s.coreMap c, tcache := s.tcache.filter fun e => decide (e.1 / 2 ^ 24 ≠ c),
           accs := tabDel s.accs c }

/-- The logical core leaves its physical core; a replacement that is IDLE serves it at once, one that is WAKING serves
it when it is up; with none, or one that another command has taken meanwhile, it is left unmapped (R433 to R435). -/
def moveCore (c : Nat) (rep : Option Nat) (s : State) : State :=
  let s := coreForget c s
  match rep with
  | none => regOr 0x570 0x20 s
  | some r =>
    let k := tabGet {} s.cores r
    if k.state == .idle then remapCore c r s
    else if k.state == .waking && k.mapTo.isNone then coreMod r (fun x => { x with mapTo := some c }) s
    else regOr 0x570 0x20 s

/-- A core goes to OFF (R905). (DESIGN CHOICE, log entry 43) -/
def coreOff (p : Nat) (s : State) : State :=
  { coreMod p (fun x => { x with state := .off, disable := none, mapTo := none }) s with
    pwr := { s.pwr with doms := tabSet s.pwr.doms p { on := false, trans := some (false, s.ts) } } }

/-- A graceful disable takes effect on a core (R428, R436). -/
def coreLeaves (p : Nat) (s : State) : State :=
  let k := tabGet {} s.cores p
  match k.disable with
  | none => s
  | some d =>
    let c := (s.coreMap.find? fun e => e.2 = p).map (·.1)
    let s := if d.keepPowered then coreMod p (fun x => { x with state := .idle, disable := none }) s else coreOff p s
    let s := match c with
      | some c => moveCore c d.replacement s
      | none => s
    let np := match c, d.replacement with
      | some _, some r => r
      | _, _ => 0xFF
    longDone (fun l => l.opcode == 0x0701 && decide (l.obj = p)) 0 0 [b8 (c.getD 0xFF), b8 np, 0, 0] s

/-- Is an access to the near store of logical core `c` in flight: a tile-op issued on it, or one that reads or writes it
(R434)? -/
def coreInFlight (s : State) (c : Nat) : Bool :=
  s.ops.any fun e => e.2.issued && (decide (e.2.core = c) || (e.2.dst.toList ++ e.2.srcs).any fun r => decide (r.space = c + 1))

/-- A core whose boundary has come leaves as soon as nothing is in flight (R434). -/
def coreDepart (p : Nat) (s : State) : State :=
  let due := ((tabGet {} s.cores p).disable.map (·.due)).getD false
  let busy := (s.coreMap.find? fun e => e.2 = p).any fun e => coreInFlight s e.1
  if due && !busy then coreLeaves p s else s

/-- The boundary at which a pending core leaves has come (R428). -/
def coreDue (p : Nat) (s : State) : State :=
  coreDepart p (coreMod p (fun k => { k with disable := k.disable.map fun d => { d with due := true } }) s)

/-- The repeat of the next task of a group. -/
def nextRepeat (s : State) (x : Group) : Nat := x.due.headD ((s.lt.repeatCount.toNat + 1) % 2 ^ 32)

/-- The repeat of the last task of a group, 0 before the first. -/
def lastRepeat (x : Group) : Nat := match x.task with | some t => t.rep | none => 0

/-- What waits for the end of a task of a core set: graceful disables (R428), a pending image (R504), a stop. -/
def betweenTasks (g : Nat) (s : State) : State :=
  match groupGet s g with
  | none => s
  | some x =>
    let s := (csMembers s x.cs).foldl (fun s' c =>
      match physCore s' c with
      | some p => if (tabGet {} s'.cores p).state == .pending then coreDue p s' else s'
      | none => s') s
    let s := match x.pendModel with
      | some m =>
        let s := groupMod g (fun x => { x with model := m, pendModel := none }) s
        longDone (fun l => l.opcode == 0x0308 && decide (l.obj = g)) 0 0 (leBytes 4 (nextRepeat s x)) s
      | none => s
    if x.stopping then
      let s := groupMod g (fun x => { x with stopping := false, started := false, due := [] }) s
      longDone (fun l => l.opcode == 0x0307 && decide (l.obj = g)) 0 0 (leBytes 4 (lastRepeat x)) s
    else s

/-- An aborting task whose issued tile-ops have all completed is over. -/
def abortOver (g : Nat) (s : State) : State :=
  match groupGet s g with
  | none => s
  | some x =>
    if x.phase == .aborting && s.ops.all (fun e => e.2.group ≠ g) then
      let clear (t : Task) : Task := { t with arrivals := [], cursors := [] }
      betweenTasks g (groupMod g (fun x => { x with phase := .waiting, task := x.task.map clear }) s)
    else s

/-- Tile-ops whose wait failed abort their task (R313, R323). -/
def failedOps (s : State) : State :=
  s.ops.foldl (fun s' e =>
    match e.2.failed with
    | some c => abortTask e.2.group c (groupCs s' e.2.group) s'
    | none => s') s

/-- A stripe reaches ISSUED when a tile-op of it has acquired its slot of the driver ring (R520). -/
def issuedStripes (s : State) : State :=
  s.ops.foldl (fun s' e =>
    match taskOf s' e.2.group with
    | some (_, t) =>
      let has := e.2.held.any fun h => decide (h.1 = t.driver) && !h.2.2
      let was := ((tabGet? t.stripes e.2.stripe).map (·.issued)) == some true
      if decide (e.2.phase = 1) && has && !was then
        stripeMod e.2.group e.2.stripe (fun r => { r with issued := true })
          (taskMod e.2.group (fun t => { t with issued := t.issued + 1 }) s')
      else s'
    | none => s') s

/-- What the scheduler does after any command that moves rings or tile-ops: failed waits, publication, drains, the end
of aborts, cores whose leaving waited for accesses in flight. -/
def schedTick (s : State) : State :=
  let s := failedOps (issuedStripes s)
  let s := s.sgroups.foldl (fun s' e => abortOver e.1 (drainGroup e.1 (stripesProgress e.1 s'))) s
  (s.cores.filter fun e => e.2.disable.isSome).foldl (fun s' e => coreDepart e.1 s') s

end Sys2Proof.Machine
end

