-- ==== Sys2Proof/Machine/Ingest.lean ====
section
/-! DEFINITION. The ingest stage (03_sensor_ports.md): the correction chain and the conversion, line stamps and status,
the stream FIFO, the assembly of stripes into ring slots, and the end of reception. -/

namespace Sys2Proof.Machine

open Sys2Proof

/-! ## Ports and streams -/

def portOf (s : State) (p : Nat) : Port := tabGet {} s.ports p
def portMod (p : Nat) (f : Port → Port) (s : State) : State := { s with ports := tabMod {} s.ports p f }
def streamOf (s : State) (k : Nat) : Stream := tabGet { cxpId := k % 4 } s.streams k
def streamMod (k : Nat) (f : Stream → Stream) (s : State) : State :=
  { s with streams := tabMod { cxpId := k % 4 } s.streams k f }

/-- Base of a stream's registers. -/
def strBase (k : Nat) : Nat := 0xA100 + 0x400 * (k / 4) + 0x40 * (k % 4)

/-- The port is UP or DEGRADED: it accepts lines (R149). -/
def portUp (p : Port) : Bool := p.link == .up || p.link == .degraded

/-- Is the device connection up on the port (R161), whatever the link state of the port? -/
def devUp (p : Port) (dev : Nat) : Bool := p.conns.any fun e => e.2.up && decide (e.2.devId = dev)

/-- The stream receives lines: RUNNING, or stopping AT_REPEAT. -/
def streamTakes (m : Stream) : Bool := m.state == .running || m.state == .atRepeat

/-- Planes after ingest (R166). -/
def planesOf (m : Stream) : Nat := if m.cls == .rgb then 3 else 1

/-- ROW_PITCH and DATA_OFFSET (R200). -/
def rowPitch (m : Stream) : Nat := cdiv (m.width * (if m.bf16 then 2 else 1)) 64 * 64
def dataOffset (m : Stream) : Nat := cdiv (64 + 16 * m.stripeH) 64 * 64

/-- Bytes of a stripe in its slot (R200). -/
def stripeBytes (m : Stream) : Nat := dataOffset m + planesOf m * m.stripeH * rowPitch m

/-! ## The correction chain (R172 to R177, R185, R186) -/

/-- A column entry of a bank of a port, and its fields (R179). -/
def colKey (port bank i : Nat) : Nat := (2 * port + bank) * 131072 + i
def colEntry (s : State) (port bank i : Nat) : Nat := (tabGet 0 s.cols (colKey port bank i)).toNat
def colBlack (e : Nat) : Nat := bitsOf e 0 18
def colGain (e : Nat) : Nat := bitsOf e 18 18
def colSubst (e : Nat) : Nat := bitsOf e 36 3

/-- Unpack, black level and gain (R173 to R175). -/
def correctSample (bits e p : Nat) : Nat :=
  min (2 ^ 20 - 1) (((p * 2 ^ (20 - bits) - colBlack e) * colGain e + 2 ^ 15) / 2 ^ 16)

/-- The nearest non-defective column among the first 4 of a list of (entry, y) (R177). -/
def nearGood (l : List (Nat × Nat)) : Option Nat := ((l.take 4).find? fun e => colSubst e.1 = 0).map (·.2)

/-- Defective-column substitution of one column, given the columns to its left, nearest first, and to its right
(R176, R177). -/
def substColumn (left : List (Nat × Nat)) (c : Nat × Nat) (right : List (Nat × Nat)) : Nat :=
  let k := colSubst c.1
  if k = 1 then (nearGood left).getD 0
  else if k = 2 then (nearGood right).getD 0
  else if k = 3 then
    (match nearGood left, nearGood right with
     | some a, some b => (a + b + 1) / 2
     | some a, none => a
     | none, some b => b
     | none, none => 0)
  else if k = 4 then 4 * colBlack c.1
  else c.2

/-- Every column of a plane in turn. -/
def substPlane : List (Nat × Nat) → List (Nat × Nat) → List Nat
  | _, [] => []
  | left, c :: right => substColumn left c right :: substPlane (c :: left) right

/-- The BF16 encoding of y × 2^-e, rounded to nearest even (R186). -/
def bfOfNat (y e : Nat) : Nat :=
  if y = 0 then 0
  else
    let m := Nat.log2 y
    let f := if m ≤ 7 then y * 2 ^ (7 - m) else (divEven (y : Int) (2 ^ (m - 7))).toNat
    let q := if f = 256 then (128, m + 1) else (f, m)
    (q.2 + 127 - e) * 128 + (q.1 - 128)

/-- One converted element, little-endian (R185, R186). -/
def convertSample (m : Stream) (y : Nat) : List Byte :=
  if m.bf16 then leBytes 2 (bfOfNat y m.bfExp)
  else
    let v : Int := ((if m.shift = 0 then y else (y + 2 ^ (m.shift - 1)) / 2 ^ m.shift : Nat) : Int) + m.offset
    leBytes 1 (unsgn 8 (satS 8 v))

/-- Bytes with zeros after them up to a length. -/
def padTo (n : Nat) (l : List Byte) : List Byte := l ++ List.replicate (n - l.length) 0

/-- The bytes of a packed line that hold sample i of N bits: the first of them and their number. -/
def sampleSpan (bits i : Nat) : Nat × Nat := (i * bits / 8, (i * bits + bits - 1) / 8 + 1 - i * bits / 8)

/-- Sample i of a packed line (R166): the samples follow one another without gaps, most significant bit first
(PRESUMED: the packing of CoaXPress 2.1, log entry 79). Bytes that have not come count as 0. -/
def sampleOf (bits : Nat) (bytes : Tab Byte) (i : Nat) : Nat :=
  let sp := sampleSpan bits i
  let v := (natsFrom sp.1 sp.2).foldl (fun a o => 256 * a + (tabGet 0 bytes o).toNat) 0
  v / 2 ^ (8 * sp.2 - i * bits % 8 - bits) % 2 ^ bits

/-- Has every byte of the sample come? -/
def sampleHere (bits : Nat) (bytes : Tab Byte) (i : Nat) : Bool :=
  (natsFrom (sampleSpan bits i).1 (sampleSpan bits i).2).all fun o => (tabGet? bytes o).isSome

/-- A corrected plane as a row of ROW_PITCH bytes. -/
def planeRow (s : State) (k bank plane : Nat) (bytes : Tab Byte) : List Byte :=
  let m := streamOf s k
  let cols := (natsFrom 0 m.width).map fun c =>
    let e := colEntry s (k / 4) bank (m.colBase + plane * m.width + c)
    (e, correctSample m.bits e (sampleOf m.bits bytes (c * planesOf m + plane)))
  padTo (rowPitch m) ((substPlane [] cols).flatMap (convertSample m))

/-- The corrected line. -/
def lineData (s : State) (k bank : Nat) (bytes : Tab Byte) : List Byte :=
  (natsFrom 0 (planesOf (streamOf s k))).flatMap fun p => planeRow s k bank p bytes

/-- The columns of which a sample is missing. -/
def lostColumns (m : Stream) (bytes : Tab Byte) : List Nat :=
  (natsFrom 0 m.width).filter fun c =>
    (natsFrom 0 (planesOf m)).any fun p => !sampleHere m.bits bytes (c * planesOf m + p)

/-- A line of zeros. -/
def zeroLine (m : Stream) : List Byte := List.replicate (planesOf m * rowPitch m) 0

/-- The data of the previous recorded line of the repeat, or zeros (R194). -/
def prevLine (m : Stream) : List Byte := if m.prev.isEmpty then zeroLine m else m.prev

/-- LOST_FILL (R193, R194). -/
def lostFill (m : Stream) : List Byte := if m.fillPrevious then prevLine m else zeroLine m

/-- The bytes of the lost columns come from the previous line (R193). -/
def substLost (m : Stream) (lost : List Nat) (data : List Byte) : List Byte :=
  let e := if m.bf16 then 2 else 1
  let old := prevLine m
  (natsFrom 0 data.length).map fun i =>
    if lost.contains (i % rowPitch m / e) then old.getD i 0 else data.getD i 0

/-! ## Repeats of stamps (R196) -/

/-- The repeat that holds a stamp. LX that has reached the pending boundary is in the repeat that it begins. -/
def repOf (s : State) (stamp : Nat) : Nat :=
  let n := s.lt.repeatCount.toNat
  if s.lt.boundary ≤ stamp then (n + 1) % 2 ^ 32
  else match s.lt.lastBoundary with
    | some b => if b ≤ stamp then n else (n + 2 ^ 32 - 1) % 2 ^ 32
    | none => n

/-- Repeat a comes after repeat b (R109). -/
def repAfter (a b : Nat) : Bool := let d := (a + 2 ^ 32 - b) % 2 ^ 32; decide (0 < d) && decide (d < 2 ^ 31)

/-! ## The writer: from the FIFO to the slot (R195 to R205) -/

/-- A line descriptor (R203). -/
def lineDesc (l : Line) : List Byte :=
  leBytes 7 l.head.stamp ++
    [b8 (l.status + atBit (b2n l.head.suspect) 2 + atBit (b2n l.head.untrig) 3 + atBit l.head.bank 4)] ++
    leBytes 4 l.row ++ leBytes 4 l.head.ts

/-- A PAD descriptor (R193, R197). -/
def padDesc : List Byte := List.replicate 7 0 ++ [3] ++ List.replicate 8 0

/-- The slot header (R201). -/
def slotHeader (k : Nat) (m : Stream) (o : Stripe) (last degraded : Bool) : List Byte :=
  let fl := b2n o.first + atBit (b2n last) 1 + atBit (b2n (decide (o.rows < m.stripeH))) 2 +
    atBit (b2n degraded) 3 + atBit (b2n (m.areaLines != 0)) 4
  [b8 k, b8 fl, b8 (b2n m.bf16), b8 (planesOf m)] ++ leBytes 2 m.stripeH ++ leBytes 2 o.rows ++ leBytes 4 o.rep ++
    leBytes 4 o.idx ++ leBytes 8 o.stamp0 ++ leBytes 8 o.stamp1 ++ leBytes 8 o.ts0 ++ leBytes 2 o.nLost ++
    leBytes 2 o.nSubst ++ leBytes 2 o.nSuspect ++ leBytes 2 0 ++ leBytes 4 m.width ++ leBytes 4 (rowPitch m) ++
    leBytes 4 (dataOffset m) ++ leBytes 4 0

/-- A write of the ingest stage to the store: class INGEST, tag 0x1A. (DEDUCED, log entry 28) -/
def ingestWrite (k a : Nat) (d : List Byte) (s : State) : State :=
  (dsWritePieces 0x1A k (some 0) false (pieces d.length a d.length) d s).1

/-- A read of the ingest stage: class INGEST, tag 0x1A. After an error response the bytes are undefined (R66). -/
def ingestRead (k a n : Nat) (s : State) : State × List Byte :=
  let q := dsReadPieces 0x1A k (some 0) false (pieces n a n) s
  if q.2.1 = 0 then (q.1, q.2.2) else freeBytes n q.1

/-! ## The FIFO buffer (R204, R205) -/

/-- Bytes of one line, and the address of a place of the FIFO buffer. -/
def lineBytes (m : Stream) : Nat := planesOf m * rowPitch m
def fifoAddr (s : State) (m : Stream) (p : Nat) : Nat := (handleOf s (m.fifoIdx.getD 256)).base + p * lineBytes m

/-- The lowest place of the FIFO buffer that no queued line has. (DESIGN CHOICE, log entry 28) -/
def fifoPlace (m : Stream) : Nat :=
  let used (p : Nat) : Bool := m.fifo.any fun i => match i with | .line l => l.place == some p | _ => false
  ((natsFrom 0 64).find? fun p => !used p).getD 0

/-- A line that has to wait enters the FIFO: its data goes to the buffer (R204, R205). -/
def fifoEnter (k : Nat) (s : State) : State :=
  let m := streamOf s k
  match m.fifo.getLast? with
  | some (.line l) =>
    if l.inFifo && l.place.isNone then
      let p := fifoPlace m
      let s := ingestWrite k (fifoAddr s m p) l.data s
      streamMod k (fun m => { m with fifo := m.fifo.dropLast ++ [.line { l with place := some p, data := [] }] }) s
    else s
  | _ => s

/-- The data of a line that leaves the queue. -/
def lineFetch (k : Nat) (l : Line) (s : State) : State × List Byte :=
  match l.place with
  | some p => ingestRead k (fifoAddr s (streamOf s k) p) (lineBytes (streamOf s k)) s
  | none => (s, l.data)

/-- Address of the open slot of a stream. -/
def stripeAddr (s : State) (m : Stream) (o : Stripe) : Nat := slotAddr s (ringOf s (m.ring.getD 128)) o.counter

/-- The open stripe is closed and its slot committed (R197, R199, R202). A slot whose window a ring reset took is
lost: the commit finds no window. (DEDUCED, log entry 28) -/
def closeStripe (k : Nat) (last cut : Bool) (s : State) : State :=
  let m := streamOf s k
  match m.open_, m.ring with
  | some o, some r =>
    let a := stripeAddr s m o
    let n := m.stripeH - o.rows
    let degraded := o.degraded || cut
    let s := (natsFrom 0 (planesOf m)).foldl (fun s' p =>
      ingestWrite k (a + dataOffset m + (p * m.stripeH + o.rows) * rowPitch m)
        (List.replicate (n * rowPitch m) 0) s') s
    let head := slotHeader k m o last degraded ++ o.descs ++ (List.replicate n padDesc).flatten
    let s := ingestWrite k a (padTo (dataOffset m) head) s
    let s := streamMod k (fun m => { m with open_ := none }) s
    if holdsWindow s r o.counter 0x1A true then ringCommit r o.counter 0x1A o.first last s
    else regAdd (bkBase r + 0x88) 1
      (logPut { source := 0x1A, cls := 2, code := 0x12, detail := k, addr := a } s)
  | _, _ => s

/-- A slot is acquired for the next stripe, if the ring has one (R195, R302); a wait for the window table counts once
(R307). -/
def openStripe (k : Nat) (l : Line) (s : State) : State :=
  let m := streamOf s k
  match m.ring with
  | none => s
  | some r =>
    let g := ringOf s r
    if !(g.declared && g.producer == 0x1A && g.waitP.isEmpty && prodReady g none) then s
    else if !windowFree s then
      if m.winWait then s else regAdd 0x101F0 1 (streamMod k (fun m => { m with winWait := true }) s)
    else
      let idx := if l.opens then 0 else m.stripeIdx
      let o : Stripe := ⟨g.head, decide (idx = 0), l.head.rep, idx, 0, l.head.stamp, l.head.stamp, l.head.ts,
        0, 0, 0, false, []⟩
      streamMod k (fun m => { m with open_ := some o, stripeIdx := idx + 1, winWait := false })
        (takeHead r 0x1A none s)

/-- A line is written to the open stripe (R200, R203). A full stripe of an area frame of which lines are still to come is
committed; any other full stripe once it is known whether it is the LAST (R195, R199). (DEDUCED, log entry 28) -/
def writeLine (k : Nat) (l : Line) (o : Stripe) (s : State) : State :=
  let m := streamOf s k
  let a := stripeAddr s m o + dataOffset m
  let q := lineFetch k l s
  let s := (natsFrom 0 (planesOf m)).foldl (fun s' p =>
    ingestWrite k (a + (p * m.stripeH + o.rows) * rowPitch m)
      ((q.2.drop (p * rowPitch m)).take (rowPitch m)) s') q.1
  let o := { o with
    rows := o.rows + 1, stamp1 := l.head.stamp, nLost := o.nLost + b2n (l.status == 1),
    nSubst := o.nSubst + b2n (l.status == 2), nSuspect := o.nSuspect + b2n l.head.suspect,
    degraded := o.degraded || l.status == 1 || l.unrec, descs := o.descs ++ lineDesc l }
  let s := streamMod k (fun m => { m with open_ := some o }) s
  if l.more && decide (m.stripeH ≤ o.rows) then closeStripe k false false s else s

/-- Has the open stripe of a stream all its rows? -/
def stripeFull (m : Stream) : Bool := (m.open_.map fun o => decide (m.stripeH ≤ o.rows)).getD false

/-- One item leaves the queue of a stream, if it can: otherwise it waits, for a slot or for a unit of class INGEST. The end
of reception cuts only a stripe that lacks rows (R211). -/
def drainItem (k : Nat) (it : IngestItem) (s : State) : State × Bool :=
  let m := streamOf s k
  match it with
  | .closeRepeat => (closeStripe k true false s, true)
  | .finish last => (closeStripe k last (!last && !stripeFull m) s, true)
  | .line l =>
    let s := if m.open_.isSome then s else openStripe k l s
    match (streamOf s k).open_ with
    | none => (s, false)
    | some o => if bwReady s 0 then (writeLine k l o s, true) else (bwStall 0 s, false)

/-- The stripe that a waiting line closes is closed even while the line waits. (DEDUCED, log entry 28) -/
def closeBefore (k : Nat) (it : IngestItem) (s : State) : State :=
  match it, (streamOf s k).open_ with
  | .line l, some o =>
    if l.opens || decide ((streamOf s k).stripeH ≤ o.rows) then closeStripe k l.opens false s else s
  | _, _ => s

/-- The queue of a stream drains as far as it can (R205, R211). -/
def drainGoStream (k : Nat) : List IngestItem → State → State
  | [], s => s
  | it :: t, s =>
    let q := drainItem k it (closeBefore k it s)
    if q.2 then drainGoStream k t (streamMod k (fun m => { m with fifo := t }) q.1) else q.1

def drainStream (k : Nat) (s : State) : State := drainGoStream k (streamOf s k).fifo s

/-- Places taken in the FIFO, and in the descriptor queue. -/
def fifoLevel (m : Stream) : Nat := (m.fifo.filter fun i => match i with | .line l => l.inFifo | _ => false).length
def descLevel (m : Stream) : Nat := (m.fifo.filter fun i => match i with | .line l => !l.inFifo | _ => false).length

/-- An item joins the queue of a stream, which drains. -/
def pushItem (k : Nat) (it : IngestItem) (s : State) : State :=
  let s := fifoEnter k (drainStream k (streamMod k (fun m => { m with fifo := m.fifo ++ [it] }) s))
  streamMod k (fun m => { m with fifoMax := max m.fifoMax (fifoLevel m) }) s

/-! ## Recording a line (R193, R203, R206, R207) -/

/-- The current stripe is DEGRADED by a line dropped without record (R202, R207): the stripe of the last recorded line, or,
before the first one of the repeat, the stripe that opens it. (DEDUCED, log entry 28) -/
def markDropped (m : Stream) : Stream :=
  if m.opensNext then { m with dropped := true }
  else match m.fifo.reverse with
    | .line l :: t => { m with fifo := t.reverse ++ [.line { l with unrec := true }] }
    | _ => { m with open_ := m.open_.map fun o => { o with degraded := true } }

/-- A line dropped without record (R207). -/
def dropLine (k : Nat) (s : State) : State :=
  spEvent (k / 4) (12 + k % 4) (regAdd (strBase k + 0x1C) 1
    (streamMod k (fun m => { markDropped m with row := m.row + 1 }) s))

/-- The line starts a repeat or frame: ROW and the previous line start anew. (DEDUCED, log entry 27) -/
def enterRepeat (k : Nat) (h : LineHead) (s : State) : State :=
  let m := streamOf s k
  if m.rowRep = some h.rep && !(m.areaLines != 0 && decide (m.frameRow = 0)) then s
  else streamMod k (fun m => { m with
    rowRep := some h.rep, row := 0, prev := [], opensNext := true, dropped := false }) s

/-- A line is recorded with a status; `missing` for one that never arrived (R190). -/
def recordLine (k : Nat) (h : LineHead) (status : Nat) (lost : List Nat) (data : List Byte) (missing : Bool)
    (s : State) : State :=
  let s := enterRepeat k h s
  let m := streamOf s k
  let past := decide (64 ≤ fifoLevel m)
  let s := if past && !missing then spEvent (k / 4) (8 + k % 4) s else s
  if (past || missing) && decide (4096 ≤ descLevel m) then dropLine k s
  else
    let st := if past || missing then 1 else status
    let d := if st = 1 then lostFill m else if st = 2 then substLost m lost data else data
    let s := if st = 0 then regAdd64 (strBase k + 8) 1 s
      else regAdd (strBase k + (if st = 1 then 0x10 else 0x14)) 1 s
    let l : Line := { head := h, status := st, row := m.row, opens := m.opensNext, inFifo := !(past || missing),
                      unrec := m.dropped, more := !missing && decide (m.frameRow + 1 < m.areaLines), data := d }
    pushItem k (.line l) (streamMod k (fun m => { m with
      row := m.row + 1, prev := d, opensNext := false, dropped := false, recorded := m.recorded + 1 }) s)

/-! ## Completed repeats (R199, R209) -/

/-- No line or trigger of repeat n or before is still to come on the stream. (DEDUCED, log entry 28) -/
def repeatOver (s : State) (m : Stream) (n : Nat) : Bool :=
  repAfter s.lt.repeatCount.toNat n && m.rx.isNone && m.frame.isNone && m.missed.isEmpty &&
    m.trigQ.all fun e => repAfter e.rep n

/-- A complete repeat closes its last stripe; an AT_REPEAT stop ends with it. -/
def checkRepeat (k : Nat) (s : State) : State :=
  let m := streamOf s k
  if !streamTakes m then s
  else
    let s := match m.rowRep with
      | some n => if m.areaLines = 0 && repeatOver s m n then
          pushItem k .closeRepeat (streamMod k (fun m => { m with rowRep := none }) s) else s
      | none => s
    match m.state, m.stopRep with
    | .atRepeat, some n =>
      if repeatOver s m n then
        pushItem k (.finish true)
          (streamMod k (fun m => { m with state := .draining, stopRep := none, trigQ := [], late := 0, missed := [] }) s)
      else s
    | _, _ => s

/-- What a repeat boundary is to the ports: column-table switches count it (R183), complete repeats close. -/
def ingestBoundary (s : State) : State :=
  let sw (p : Port) : Port := match p.pendSwitch with
    | some (.repeatBoundary (n + 1)) => { p with pendSwitch := some (.repeatBoundary n) }
    | _ => p
  let f (e : Nat × Port) : Nat × Port := (e.1, sw e.2)
  let s : State := { s with ports := s.ports.map f }
  s.streams.foldl (fun s' e => checkRepeat e.1 s') s

/-! ## Receiving a line (R145, R148, R187 to R192) -/

/-- The pending bank of a port becomes active (R183). (DEDUCED, log entry 29) -/
def switchBank (port : Nat) (s : State) : State :=
  portMod port (fun p => { p with bank := 1 - p.bank, pendSwitch := none }) s

/-- Is the switch point reached for a line with this stamp? -/
def switchDue (p : Port) (stamp : Nat) : Bool :=
  match p.pendSwitch with
  | some (.repeatBoundary n) => n == 0
  | some (.position x) => decide (x ≤ stamp)
  | none => false

/-- A line begins under a head. A discarded one is counted, each line of an area frame by itself (R190, R191); a pending
table whose switch point is reached becomes active before a line that is kept, between two lines of a frame too (R183). -/
def startLine (k : Nat) (h : LineHead) (s : State) : State :=
  let port := k / 4
  let s := match h.drop with
    | .behind => regAdd (strBase k + 0x18) 1 s
    | .late => spEvent port (16 + k % 4) (regAdd (strBase k + 0x24) 1 s)
    | _ => s
  let s := if h.drop = .keep && switchDue (portOf s port) h.stamp then switchBank port s else s
  streamMod k (fun m => { m with rx := some ⟨{ h with bank := (portOf s port).bank }, []⟩ }) s

/-- The first line of a head begins: the head is that of every line of an area frame (R168, R191, R209). -/
def beginHead (k : Nat) (h : LineHead) (drop : Drop) (s : State) : State :=
  let m := streamOf s k
  let past := match m.stopRep with | some n => m.state == .atRepeat && repAfter h.rep n | none => false
  let h := { h with drop := if drop = .keep && past then .past else drop }
  startLine k h (streamMod k (fun m => { m with frame := if m.areaLines = 0 then none else some h }) s)

/-- What a line stamped while behind comes to (R191). -/
def dropBehind (behind : Bool) : Drop := if behind then .behind else .keep

/-- The first packet of a line arrives (R187 to R190). -/
def beginLine (k : Nat) (s : State) : State :=
  let m := streamOf s k
  let lx := lxNow s
  let here : LineHead := ⟨lx, s.ts, decide (0 < s.lt.suspect), false, 0, repOf s lx, .keep⟩
  match m.frame with
  | some h => startLine k { h with ts := s.ts } s
  | none =>
    if m.stampTrigger then
      match m.trigQ with
      | e :: q =>
        beginHead k ⟨e.target, s.ts, e.suspect, false, 0, e.rep, .keep⟩ (dropBehind e.behind)
          (streamMod k (fun m => { m with trigQ := q, late := 0 }) s)
      | [] =>
        if 0 < m.late then beginHead k here .late (streamMod k (fun m => { m with late := m.late - 1 }) s)
        else
          let s := spEvent (k / 4) (20 + k % 4) (regAdd (strBase k + 0x20) 1 s)
          beginHead k { here with untrig := true } (dropBehind s.lt.behind) s
    else beginHead k here (dropBehind s.lt.behind) s

/-- The line in reception counts in its frame; a full frame closes (R168). (DEDUCED, log entry 27) -/
def frameStep (k : Nat) (s : State) : State :=
  let m := streamOf s k
  if m.frame.isNone then s
  else if m.areaLines ≤ m.frameRow + 1 then
    let s := streamMod k (fun m => { m with frame := none, frameRow := 0, rowRep := none }) s
    match m.rx with
    | some x => if x.head.drop = .keep then pushItem k .closeRepeat s else s
    | none => s
  else streamMod k (fun m => { m with frameRow := m.frameRow + 1 }) s

/-- A missing line is recorded (R190, R191). A missing line of an area stream is a frame of its own.
(DEDUCED, log entry 26) -/
def recordMissing (k : Nat) (e : TrigEntry) (s : State) : State :=
  let h : LineHead := ⟨e.target, e.ts, e.suspect, false, (portOf s (k / 4)).bank, e.rep, .keep⟩
  if e.behind then regAdd (strBase k + 0x18) 1 s
  else
    let s := recordLine k h 1 [] [] true s
    if (streamOf s k).areaLines = 0 then s else pushItem k .closeRepeat (streamMod k (fun m => { m with rowRep := none }) s)

/-- The missing lines that waited for the end of a line or frame (R190). -/
def recordMissed (k : Nat) (s : State) : State :=
  let m := streamOf s k
  if m.rx.isSome || m.frame.isSome then s
  else m.missed.foldl (fun s' e => recordMissing k e s') (streamMod k (fun m => { m with missed := [] }) s)

/-- The line in reception ends; `cut` when reception itself ends (R193, R210). (DEDUCED, log entry 27) -/
def finishLine (k : Nat) (cut : Bool) (s : State) : State :=
  let m := streamOf s k
  match m.rx with
  | none => s
  | some x =>
    let s := if x.head.drop ≠ .keep then s
      else
        let lost := lostColumns m x.bytes
        let st := if cut || decide (m.substMax < lost.length) then 1 else if lost.isEmpty then 0 else 2
        recordLine k x.head st lost (if st = 1 then [] else lineData s k x.head.bank x.bytes) false s
    checkRepeat k (recordMissed k (streamMod k (fun m => { m with rx := none }) (frameStep k s)))

/-- Bytes join the packed line from an offset on. -/
def addBytes : Nat → List Byte → Tab Byte → Tab Byte
  | _, [], t => t
  | i, v :: vs, t => addBytes (i + 1) vs (tabSet t i v)

/-- Does a packet belong to a line after the one in reception? (DEDUCED, log entry 26) -/
def newLine (pkt : StreamPkt) (x : RxLine) : Bool :=
  pkt.begins || x.bytes.any fun e => decide (pkt.first ≤ e.1)

/-- A packet for a stream that receives; one that fails its check comes here without payload. (DEDUCED, log entry
27) -/
def streamPacketTo (k : Nat) (pkt : StreamPkt) (s : State) : State :=
  let s := match (streamOf s k).rx with
    | some x => if newLine pkt x then finishLine k false s else s
    | none => s
  if !streamTakes (streamOf s k) then s
  else
    let s := if (streamOf s k).rx.isNone then beginLine k s else s
    let add (m : Stream) : Stream := { m with rx := m.rx.map fun x =>
      if x.head.drop = .keep then { x with bytes := addBytes pkt.first pkt.payload x.bytes } else x }
    let s := streamMod k add s
    if pkt.ends then finishLine k false s else s

/-- STREAM_PACKET (R145, R147, R148, R193): a packet on a connection of the port. One that fails its check is counted
and its bytes are lost to the line it belongs to. (DEDUCED, log entry 27) -/
def streamPacket (port conn : Nat) (pkt : StreamPkt) (s : State) : State :=
  let p := portOf s port
  if !(portUp p && (tabGet {} p.conns conn).up) then s
  else
    let bound := (natsFrom (4 * port) 4).find? fun k =>
      streamTakes (streamOf s k) && decide ((streamOf s k).cxpId = pkt.id)
    if !pkt.crcOk || decide (16384 < pkt.payload.length) then
      let s := spEvent port 5 (regAdd (0xA010 + 0x400 * port) 1 s)
      match bound with
      | some k => streamPacketTo k { pkt with payload := [] } s
      | none => s
    else
      match bound with
      | some k => streamPacketTo k pkt s
      | none => regAdd (0xA014 + 0x400 * port) 1 s

/-- A rising TRIGGER firing joins the queue of a STAMP TRIGGER stream; a full queue loses its oldest (R188, R189).
(DEDUCED, log entry 26) -/
def trigPush (target instant k : Nat) (s : State) : State :=
  let e : TrigEntry := ⟨target, instant, s.lt.behind, decide (0 < s.lt.suspect), repOf s target⟩
  streamMod k (fun m => { m with trigQ := (if m.trigQ.length < 64 then m.trigQ else m.trigQ.drop 1) ++ [e] }) s

/-- TRIGGER_ENTRY_TIMEOUT (R190): the oldest entry whose time has run out is a missing line, recorded after the line or
frame in reception. A stream that takes no lines only loses the entry. (DEDUCED, log entry 26) -/
def trigTimeout (k : Nat) (s : State) : State :=
  let m := streamOf s k
  match m.trigQ with
  | e :: q =>
    if s.ts < e.ts + 1000 * m.lineTimeout then s
    else if !streamTakes m then streamMod k (fun m => { m with trigQ := q }) s
    else checkRepeat k (recordMissed k (streamMod k (fun m => { m with
      trigQ := q, late := m.late + 1, missed := m.missed ++ [e] }) s))
  | [] => s

/-! ## End of reception (R210 to R212) -/

/-- Reception of a stream ends at once. -/
def endReception (k : Nat) (s : State) : State :=
  if streamTakes (streamOf s k) then
    let s := match (streamOf s k).rx with
      | some _ => finishLine k true s
      | none => s
    if streamTakes (streamOf s k) then
      let s := recordMissed k (streamMod k (fun m => { m with frame := none, frameRow := 0 }) s)
      pushItem k (.finish false) (streamMod k (fun m => { m with
        state := .draining, stopRep := none, trigQ := [], late := 0 }) s)
    else s
  else s

/-- Reception of every stream of a port ends. -/
def endPort (port : Nat) (s : State) : State := (natsFrom (4 * port) 4).foldl (fun s' k => endReception k s') s

/-- STREAM_DRAINED (R211): the stream is STOPPED, its FIFO buffer goes unless it may not be freed (R245, R267), its stop commands complete; one that a stop NOW
overrode (`aux` 9) with DETAIL 1 (R739). -/
def streamDrained (k : Nat) (s : State) : State :=
  let m := streamOf s k
  if m.state == .draining && m.fifo.isEmpty then
    let s := match m.fifoIdx with
      | some i => if handleKept s i then s else freeHandle i s
      | none => s
    let s := streamMod k (fun m => { m with
      state := .stopped, fifoIdx := none, rowRep := none, row := 0, stripeIdx := 0, prev := [], opensNext := false,
      dropped := false }) s
    let stops (aux : Nat) (l : LongCmd) : Bool := l.opcode == 0x0203 && decide (l.obj = k) && (l.aux == 9) == (aux == 9)
    longDone (stops 0) 0 0 (leBytes 4 m.recorded) (longDone (stops 9) 0 1 (leBytes 4 m.recorded) s)
  else s

end Sys2Proof.Machine
end

