-- ==== Sys2Proof/Machine/LineTime.lean ====
section
/-! DEFINITION. The line time unit (02_line_time.md): encoders, the line master, LX and the high-water mark, press
states, repeats, the mains phase tracker, the line calendar and the strobe outputs. Positions named `pos` are in
internal units of 2^-16 L (R80), LX targets in 48.8, instants in ns of TS. -/

namespace Sys2Proof.Machine

open Sys2Proof

/-- Change the line time unit. -/
def ltMod (f : LineTime → LineTime) (s : State) : State := { s with lt := f s.lt }

/-- Change an encoder. -/
def encMod (n : Nat) (f : Encoder → Encoder) (s : State) : State :=
  { s with lt := { s.lt with encs := tabMod (encDefault n) s.lt.encs n f } }

/-- LX in internal units. -/
def posNow (s : State) : Nat := posAt s.lt (masterScale s) s.ts

/-! ## LX moves: high-water mark, behind, reversal (R101 to R105) -/

/-- A calendar entry. -/
def calOf (s : State) (n : Nat) : CalEntry := tabGet {} s.cal n
def calPut (n : Nat) (e : CalEntry) (s : State) : State := { s with cal := tabPut {} s.cal n e }

/-- Occurrences counted in LT_CAL_SKIP. -/
def calSkip (n : Nat) (s : State) : State := if n = 0 then s else regAdd 0x30A0 n s

/-- Deferred gated occurrences are dropped and counted (R103). -/
def dropDeferred (s : State) : State :=
  calSkip (s.cal.foldl (fun n e => n + e.2.deferred.length) 0)
    { s with cal := s.cal.map fun e => (e.1, { e.2 with deferred := [] }) }

/-- At a reversal the scheduler cancels every unconfirmed epoch (R104, R105). -/
def reversal (s : State) : State :=
  let s := ltEvent 14 s.lt.master (ltMod (fun l => { l with revDone := true }) s)
  schedTick (s.sgroups.foldl (fun s' e => cancelEpochs e.1 (fun st => st == .idle || st == .open_) s') s)

/-- What the LT cycles up to the present make of LX (R101, R102, R104). (DEDUCED, log entry 24) -/
def lxTouch (s : State) : State :=
  let x := lxNow s
  if s.lt.hwm < x then ltMod (fun l => { l with hwm := x, behind := false, revDone := false }) s
  else if x < s.lt.hwm then
    let s := if s.lt.behind then s else dropDeferred (ltMod (fun l => { l with behind := true }) s)
    if !s.lt.revDone && decide (s.lt.revTol < s.lt.hwm - x) then reversal s else s
  else s

/-- TS moves to `t`, and LX with it. (DESIGN CHOICE, log entry 13) -/
def timeTo (t : Nat) (s : State) : State := lxTouch (tsTo t s)

/-! ## Mains phase (R113 to R121) -/

/-- The phase at an instant, with MAINS_OFFSET (R114). -/
def mainsPhase (l : LineTime) (t : Nat) : Nat :=
  if l.mPeriod = 0 then l.mainsOffset % 65536
  else ((((t : Int) - l.mRef) * 65536 / (l.mPeriod : Int) + l.mainsOffset) % 65536).toNat

/-- The mean of candidate periods, in whole ns. (DESIGN CHOICE, log entry 23) -/
def meanOf (l : List Nat) : Nat :=
  let n := l.length
  let t := l.foldl (· + ·) 0
  if n = 0 then 0 else if t % n = 0 then t / n else if Config.roundsUp (t : Int) n then t / n + 1 else t / n

/-- Is a candidate period within 2 % of one before it (R117, R118)? -/
def mainsClose (c p : Nat) : Bool := decide (50 * ((c : Int) - p).natAbs ≤ p)

/-- Are candidate periods, newest first, within 2 % of one another (R117)? -/
def mainsAgree : List Nat → Bool
  | [] => true
  | c :: ps => ps.all (mainsClose c) && mainsAgree ps

/-- A marking edge while the tracker acquires (R117, R118): a candidate far from the one before it restarts the count; the
tracker locks at an edge that ends seven candidates within 2 % of one another. (DEDUCED, log entry 25) -/
def mainsAcquire (t : Nat) (l : LineTime) : LineTime :=
  match l.mLast with
  | none => { l with mLast := some t, mRun := 1, mPeriods := [] }
  | some u =>
    let c := t - u
    let near := (l.mPeriods.take 1).all (mainsClose c)
    if decide (1000000000 ≤ 65 * c) && decide (45 * c ≤ 1000000000) && near then
      let ps := (c :: l.mPeriods).take 7
      let l := { l with mLast := some t, mRun := l.mRun + 1, mPeriods := ps }
      if 8 ≤ l.mRun && mainsAgree ps then
        { l with mLock := true, mPeriod := meanOf ps, mRef := t, mHold := 0, mFall := false } else l
    else { l with mLast := some t, mRun := 1, mPeriods := [] }

/-- Is an edge within MAINS_WIN of an expected instant (R116)? -/
def mainsNear (l : LineTime) (t e : Nat) : Bool :=
  decide (100 * ((t : Int) - e).natAbs ≤ l.mainsWin * l.mPeriod)

/-- A phase-0 edge while locked: accepted inside the window; the phase realigns, holdover ends, and a period that holds
no disturbed cycle enters the mean (R115, R116, R120). -/
def mainsRise (t : Nat) (l : LineTime) : LineTime :=
  if mainsNear l t (l.mRef + (l.mHold + 1) * l.mPeriod) then
    let ps := match l.mLast with
      | some u => if l.mHold = 0 && decide (2 * (t - u) < 3 * l.mPeriod) then ((t - u) :: l.mPeriods).take 8
        else l.mPeriods
      | none => l.mPeriods
    { l with mPeriods := ps, mPeriod := meanOf ps, mRef := t, mLast := some t, mHold := 0, mFall := false }
  else l

/-- A falling edge in mode both, expected at phase 0x8000 (R113). (DEDUCED, log entry 25) -/
def mainsFall (t : Nat) (l : LineTime) : LineTime :=
  if mainsNear l t (l.mRef + l.mHold * l.mPeriod + l.mPeriod / 2) then
    { l with mRef := t - l.mPeriod / 2, mHold := 0, mLast := if l.mHold = 0 then l.mLast else none, mFall := true }
  else l

/-- A filtered edge of MAINS_SENSE. -/
def mainsStep (level : Bool) (t : Nat) (l : LineTime) : LineTime :=
  let l' := { l with mLevel := level }
  if level == l.mLevel then l
  else
    let marks := match l.mainsEdge with
      | .off => false
      | .rising => level
      | .falling => !level
      | .both => level
    if marks then (if l.mLock then mainsRise t l' else mainsAcquire t l')
    else if l.mainsEdge == .both && l.mLock then mainsFall t l'
    else l'

/-- MAINS_EDGE: a change of MAINS_SENSE that the input then holds for `held` ns is filtered (R113). -/
def execMainsEdge (level : Bool) (e : PinEdge) (s : State) : Host.Outcome State Fault Refusal :=
  done (ltMod (fun l => if e.held < 1000 * l.mainsFilt then l else mainsStep level e.t l) (timeTo e.t s))

/-- A period has passed without an accepted edge (R116, R119, R121). A period whose falling edge was accepted, in mode both,
is none: the phase runs on into the next one. -/
def mainsDisturbed (t : Nat) (s : State) : State :=
  let l := s.lt
  if l.mLock && decide (l.mainsWin * l.mPeriod < 100 * (t - (l.mRef + (l.mHold + 1) * l.mPeriod))) then
    if l.mFall then ltMod (fun l => { l with mRef := l.mRef + l.mPeriod, mFall := false }) s
    else
      let s := if l.mHold = 0 then ltEvent 16 0 s else s
      if l.mHold = 4 then
        ltEvent 17 0 (ltMod (fun l => { l with mLock := false, mHold := 0, mRun := 0, mPeriods := [], mLast := none }) s)
      else ltMod (fun l => { l with mHold := l.mHold + 1 }) s
  else s

def execMainsDisturbedCycle (t : Nat) (s : State) : Host.Outcome State Fault Refusal :=
  done (mainsDisturbed t (timeTo t s))

/-! ## Actions of a firing (R129 to R134) -/

/-- Drive a strobe output. Within one LT cycle of 2 ns the highest entry number decides (R131). -/
def strobeDrive (out entry instant : Nat) (active : Bool) (s : State) : State :=
  let o := tabGet {} s.strobes out
  let key := (instant / 2, entry)
  if o.lastOp.1 = key.1 && decide (entry < o.lastOp.2) then s
  else
    let s := { s with strobes := tabPut {} s.strobes out { o with active := active, lastOp := key } }
    if o.active == active then s else emit (.strobe out active instant) s

/-- STROBE SET, CLEAR and PULSE (R129, R132). -/
def strobeFire (out entry instant : Nat) (op : StrobeOp) (s : State) : State :=
  match op with
  | .set => strobeDrive out entry instant true s
  | .clear => strobeDrive out entry instant false s
  | .pulse w =>
    let s := strobeDrive out entry instant true s
    let o := tabGet {} s.strobes out
    { s with strobes := tabPut {} s.strobes out { o with ends := o.ends ++ [(entry, instant + w)] } }

/-- The trailing edges of a strobe output that are due (R132). -/
def pulseEnd (out t : Nat) (s : State) : State :=
  let o := tabGet {} s.strobes out
  let due := o.ends.filter fun e => decide (e.2 ≤ t)
  let s := { s with strobes := tabPut {} s.strobes out { o with ends := o.ends.filter fun e => decide (t < e.2) } }
  due.foldl (fun s' e => strobeDrive out e.1 e.2 false s') s

def execPulseEnd (output : Fin 16) (t : Nat) (s : State) : Host.Outcome State Fault Refusal :=
  done (pulseEnd output t (timeTo t s))

/-- The control packet of an outstanding transaction goes out again from its start (R162). -/
def controlResend (port : Nat) (c : CtrlTxn) (s : State) : State :=
  let s := regAdd (0xA018 + 0x400 * port) 1 s
  match tabGet? s.sup.longs c.cmd with
  | none => s
  | some l =>
    emit (.control port c.conn (l.opcode == 0x0206) (leAt l.payload 4 4) (leAt l.payload 2 2)
      (if l.opcode = 0x0206 then l.payload.drop 8 else [])) s

/-- A trigger breaks off the control packet that is being sent on its connection (R162). The spec gives no duration of
a control packet, so a free value says whether the outstanding one is still being sent (DESIGN CHOICE, log entry 72). -/
def triggerBreaks (port conn : Nat) (s : State) : State :=
  match (portOf s port).ctrl with
  | none => s
  | some c =>
    if (tabGet {} (portOf s port).conns c.conn).devId = conn then
      (if bitAt (freeNow s).toNat 0 then controlResend port c (freeStep s) else freeStep s)
    else s

/-- Is an output a trigger packet of the same connection and LT cycle (2 ns) by a higher entry (R133)? -/
def trigAfter (port conn instant entry : Nat) : Emit → Bool
  | .trigger p c _ i n => p == port && c == conn && i / 2 == instant / 2 && decide (entry < n)
  | _ => false

/-- A trigger packet takes its place among the outputs: before the packets of higher entries that leave in the same LT cycle
on the same connection (R133). The outputs stand newest first. -/
def trigPlace (port conn instant entry : Nat) (e : Emit) (l : List Emit) : List Emit :=
  let n := ((natsFrom 1 l.length).filter fun k => ((l.drop (k - 1)).head?.map (trigAfter port conn instant entry)).getD false).getLastD 0
  l.take n ++ e :: l.drop n

/-- A trigger packet leaves (R133, R161). -/
def trigSend (port conn : Nat) (rising : Bool) (instant entry : Nat) (s : State) : State :=
  { s with emitted := trigPlace port conn instant entry (.trigger port conn rising instant entry) s.emitted }

/-- TRIGGER (R129, R161, R162, R188). (DEDUCED, log entry 26) -/
def triggerFire (port conn : Nat) (rising : Bool) (entry target instant : Nat) (s : State) : State :=
  let s := if rising then
      ((natsFrom (4 * port) 4).filter fun k => (streamOf s k).stampTrigger).foldl
        (fun s' k => trigPush target instant k s') s
    else s
  if devUp (portOf s port) conn then triggerBreaks port conn (trigSend port conn rising instant entry s)
  else spEvent port 7 (regAdd (0xA01C + 0x400 * port) 1 s)

/-- A pulse or request of the calendar: entries that name the same one at the same instant give one (R34, R618).
(DEDUCED, log entry 25) -/
def calOnce (key instant : Nat) (f : State → State) (s : State) : State :=
  if tabGet? s.lt.evLast key = some instant then s
  else f (ltMod (fun l => { l with evLast := tabSet l.evLast key instant }) s)

/-- RELEASE to a core set: the release count of its running task grows (R513). -/
def releaseFire (cs : Nat) (s : State) : State :=
  (groupsOfCs s cs).foldl (fun s' g =>
    match groupGet s' g with
    | some x => if x.phase == .running then taskMod g (fun t => { t with releases := t.releases + 1 }) s' else s'
    | none => s') s

/-- A request of the calendar on a line: one for all its sources at one instant (R618). -/
def calRequest (instant line : Nat) (s : State) : State := calOnce (256 + line) instant (dmaRequest line) s

/-- The action of a firing (R129). -/
def calAction (entry target instant : Nat) (a : CalAction) (s : State) : State :=
  match a with
  | .strobe out op => strobeFire out entry instant op s
  | .trigger port conn rising => triggerFire port conn rising entry target instant s
  | .release cs => schedTick (releaseFire cs s)
  | .dmaReq line => calRequest instant line s
  | .irq bit => ticPulse 51 (regOr 0x3090 (2 ^ bit) s)
  | .event ev => calOnce ev instant (evPulseBy (calRequest instant) ev) s

/-! ## Gating (R137 to R143) -/

/-- Is a phase inside [start, end), which wraps when start > end (R122, R137)? -/
def inGate (start fin p : Nat) : Bool :=
  if start ≤ fin then decide (start ≤ p) && decide (p < fin) else decide (start ≤ p) || decide (p < fin)

/-- The first instant after t at which the phase equals g (R139), from the period estimate, to 1 ns. -/
def gateInstant (l : LineTime) (t g : Nat) : Nat :=
  let off : Int := ((g : Int) - l.mainsOffset) % 65536
  let k : Int := (((t : Int) - l.mRef) * 65536 / (l.mPeriod : Int) - off) / 65536
  let at_ (k : Int) : Int := l.mRef - -((off + 65536 * k) * (l.mPeriod : Int)) / 65536
  let a := at_ k
  if (t : Int) < a then a.toNat else (at_ (k + 1)).toNat

/-- |v| × d in internal units, for a time d (R140). -/
def advanceIn (s : State) (d : Nat) : Nat :=
  let v := velAt s.lt (masterScale s) s.ts
  v.1.natAbs * d / v.2

/-- The instant of the last deferred occurrence of an entry: no later occurrence fires before it (R143). -/
def lastDeferred (s : State) (entry : Nat) : Nat := ((calOf s entry).deferred.map (·.instant)).foldl max 0

/-- Put an occurrence among the deferred ones of an entry; while behind, or where the gate opens more than MAX_DEFER
lines beyond the target, it is dropped (R103, R139, R140). It fires no sooner than an earlier one (R143).
(DEDUCED, log entry 25) -/
def calDefer (entry : Nat) (o : Occurrence) (d : Nat) (s : State) : State :=
  if s.lt.behind || decide (o.fields.maxDefer * 65536 < o.beyond + advanceIn s (d - o.instant)) then calSkip 1 s
  else
    let ds := (calOf s entry).deferred ++ [{ o with instant := max d (lastDeferred s entry) }]
    calPut entry { calOf s entry with deferred := ds } s

/-- An occurrence fires ungated; never before an earlier one that is deferred (R143). -/
def calFireNow (entry : Nat) (o : Occurrence) (s : State) : State :=
  if o.instant < lastDeferred s entry then
    let ds := (calOf s entry).deferred ++ [{ o with instant := lastDeferred s entry }]
    calPut entry { calOf s entry with deferred := ds } s
  else calAction entry o.target o.instant o.fields.action s

/-- An occurrence at its instant, through its gate (R137 to R142). (DEDUCED, log entry 25) -/
def calFire (entry : Nat) (o : Occurrence) (s : State) : State :=
  let f := o.fields
  if f.gate == .none then calFireNow entry o s
  else if !s.lt.mLock then (if f.fireUnlocked then calFireNow entry o s else calSkip 1 s)
  else if inGate f.gateStart f.gateEnd (mainsPhase s.lt o.instant) then calFireNow entry o s
  else if f.gate == .skip then calSkip 1 s
  else calDefer entry o (gateInstant s.lt o.instant f.gateStart) s

/-! ## Occurrences (R95, R123 to R127, R1011, R1012) -/

/-- Is the press STOPPED? -/
def stopped (s : State) : Bool := s.lt.press == .stopped

/-- Does the entry's grid have a point j (R1011)? -/
def gridHas (f : CalFields) (j : Nat) : Bool := f.count == 0 || decide (j < f.count)

/-- Does the LX grid time the entry now: CLOCK LX, or HYBRID while not STOPPED (R123)? -/
def lxTimed (s : State) (f : CalFields) : Bool :=
  f.mode != .off && (f.clock == .lx || (f.clock == .hybrid && !stopped s))

/-- The index of the first PERIODIC grid point above the high-water mark. -/
def gridAbove (f : CalFields) (hwm : Nat) : Nat :=
  if hwm < f.target then 0 else if f.period = 0 then 0 else (hwm - f.target) / f.period + 1

/-- The position above which the next LX occurrence of an entry lies: the high-water mark, and the target of an occurrence
already committed, which fires with the content it has (R127, R128). -/
def lxFloor (s : State) (e : CalEntry) : Nat := max s.lt.hwm ((e.committed.map (·.target)).getD 0)

/-- The next LX target of an entry that takes part from now on (R124, R126 to R128). -/
def lxStart (s : State) (e : CalEntry) : CalEntry :=
  let f := e.f
  let e := { e with nextLx := none, moreLx := [] }
  match f.mode with
  | .off => e
  | .once =>
    if e.committed.map (·.target) = some f.target then { e with fired := true }
    else if s.lt.hwm < f.target && !e.fired then { e with nextLx := some f.target } else e
  | .periodic =>
    let j := max (gridAbove f (lxFloor s e)) e.lxIdx
    if gridHas f j then { e with nextLx := some (f.target + j * f.period), lxIdx := j } else { e with lxIdx := j }
  | .repeat =>
    match s.lt.lastBoundary with
    | some b => if lxFloor s e < b + f.target && decide (f.target < 256 * s.lt.runLen) then
        { e with nextLx := some (b + f.target) } else e
    | none => e

/-- The entry's next LX target after one has been committed or caught up. -/
def lxAdvance (e : CalEntry) : CalEntry :=
  match e.f.mode with
  | .periodic =>
    let j := e.lxIdx + 1
    { e with lxIdx := j, nextLx := if gridHas e.f j then some (e.f.target + j * e.f.period) else none }
  | .repeat => { e with nextLx := e.moreLx.head?, moreLx := e.moreLx.drop 1 }
  | _ => { e with nextLx := none, fired := true }

/-- Has an entry with CLOCK HYBRID no further LX occurrence in any press state (R124, R1011)? -/
def hybridSpent (s : State) (e : CalEntry) : Bool :=
  match e.f.mode with
  | .off => true
  | .once => e.fired
  | .periodic => !gridHas e.f (max (gridAbove e.f s.lt.hwm) e.lxIdx)
  | .repeat => false

/-- TS occurrences of a HYBRID entry in the STOPPED period begun at `stoppedAt` (R124): from the first point at or
after the present. -/
def hybridStart (s : State) (e : CalEntry) : CalEntry :=
  if e.f.tsPeriod = 0 || hybridSpent s e then { e with tsOn := false, nextLx := none, moreLx := [] }
  else { e with tsOn := true, nextLx := none, moreLx := [],
                tsIdx := max 1 (cdiv (s.ts - s.lt.stoppedAt) e.f.tsPeriod) }

/-- The instant of the entry's TS grid point j. (DEDUCED, log entry 25) -/
def tsPoint (s : State) (e : CalEntry) (j : Nat) : Nat :=
  if e.f.clock == .hybrid then s.lt.stoppedAt + j * e.f.tsPeriod else e.f.tsTarget + j * e.f.tsPeriod

/-- The first TS point of an entry with CLOCK TS that takes part now: of those past, only the latest, which fires in this
LT cycle (R1012). -/
def tsStart (s : State) (e : CalEntry) : CalEntry :=
  let f := e.f
  let past := if s.ts < f.tsTarget then none else some s.ts
  if f.mode == .periodic && f.tsPeriod != 0 then
    let j := if s.ts < f.tsTarget then 0 else (s.ts - f.tsTarget) / f.tsPeriod
    { e with tsOn := true, tsIdx := if f.count = 0 then j else min j (f.count - 1), tsPast := past }
  else { e with tsOn := true, tsIdx := 0, tsPast := past }

/-- An entry takes part with its fields from the present LT cycle on. -/
def calStart (s : State) (e : CalEntry) : CalEntry :=
  let e := { e with tsPast := none }
  if e.f.mode == .off then { e with nextLx := none, moreLx := [], tsOn := false }
  else match e.f.clock with
    | .lx => lxStart s { e with tsOn := false }
    | .ts => tsStart s { e with nextLx := none, moreLx := [] }
    | .hybrid => if stopped s then hybridStart s e else lxStart s { e with tsOn := false }

/-- Is the entry armed with an LX target at or below the high-water mark (R127)? -/
def calLate (s : State) (f : CalFields) : Bool :=
  (f.mode == .once || f.mode == .periodic) && f.clock != .ts && decide (f.target ≤ s.lt.hwm)

/-- Does a REPEAT entry miss the running repeat because TARGET is not below its length (R126)? -/
def repeatMissed (s : State) (f : CalFields) : Bool :=
  f.mode == .repeat && s.lt.lastBoundary.isSome && decide (256 * s.lt.runLen ≤ f.target)

/-- Arm an entry with new fields (R126 to R128): a committed occurrence and deferred ones keep the old content. -/
def calArm (n : Nat) (f : CalFields) (s : State) : State :=
  let e := calOf s n
  let spent := f.mode == .once && calLate s f
  let s := calPut n (calStart s { e with f := f, lxIdx := 0, tsIdx := 0, fired := spent }) s
  let s := calSkip (b2n (repeatMissed s f)) s
  if calLate s f then regOr 0x3034 0x40000 (regAdd 0x3098 1 s) else s

/-- HYBRID entries change their clock with the press state (R124). -/
def hybridSwitch (s : State) : State :=
  { s with cal := s.cal.map fun e =>
      if e.2.f.clock == .hybrid && e.2.f.mode != .off then (e.1, calStart s e.2) else e }

/-- The TS at which interpolation reaches an LX target, if it does before the next edge (R92, R95). -/
def instantOf (s : State) (target : Nat) : Option Nat :=
  let l := s.lt
  let goal := 256 * target
  match velEdges l with
  | none => if goal ≤ l.pos then some s.ts else none
  | some ((t1, p1), (t0, p0)) =>
    if goal ≤ l.pos then some t1
    else if masterScale s ≤ goal - l.pos || t1 ≤ t0 || !l.fwd then none
    else
      let n := min (l.edges.length - 1) l.velWin
      let late := t1 + (t1 - t0) / n + 1
      some (if p1 ≤ p0 then late else min late (t1 + cdiv ((goal - l.pos) * (t1 - t0)) (p1 - p0)))

/-- INSTANT_COMMIT (R95, R139): the occurrence is fixed once its instant lies 200 ns ahead. -/
def instantCommit (n : Nat) (s : State) : State :=
  let e := calOf s n
  match e.nextLx, e.committed with
  | some g, none =>
    if s.lt.behind || !lxTimed s e.f then s
    else match instantOf s g with
      | some i => if i ≤ s.ts + 200 then
          calPut n { lxAdvance e with committed := some { instant := i, target := g, fields := e.f } } s else s
      | none => s
  | _, _ => s

def execInstantCommit (entry : Fin 2048) (t : Nat) (s : State) : Host.Outcome State Fault Refusal :=
  done (instantCommit entry (timeTo t s))

/-- CALENDAR_LX_FIRING (R103, R125): the committed occurrence fires at its instant. While behind it does not fire, and
its target, which LX has not reached, stays the next one of the entry, unless the entry has been rewritten or disabled
meanwhile: then the occurrence is dropped, uncounted (DESIGN CHOICE, log entry 24). -/
def lxFire (n t : Nat) (s : State) : State :=
  let e := calOf s n
  match e.committed with
  | none => s
  | some o =>
    if t < o.instant then s
    else
      let e' := { e with committed := none }
      if s.lt.behind then
        if e.f = o.fields && decide (s.lt.hwm < o.target) then
          calPut n { e' with nextLx := some o.target, lxIdx := e.lxIdx - 1, fired := false,
                             moreLx := e.nextLx.toList ++ e.moreLx } s
        else calPut n e' s
      else calFire n o (calPut n e' s)

def execCalendarLxFiring (entry : Fin 2048) (t : Nat) (s : State) : Host.Outcome State Fault Refusal :=
  done (lxFire entry t (timeTo t s))

/-- CALENDAR_TS_FIRING (R100, R123, R135, R1012): the occurrence fires at its target TS, or, where that was past when the
entry first took part, in that LT cycle. A HYBRID entry whose LX grid jogging has exhausted occurs no more (R1011). -/
def tsFire (n t : Nat) (s : State) : State :=
  let e := calOf s n
  if !e.tsOn || e.f.mode == .off || (e.f.clock == .hybrid && !stopped s) then s
  else if e.f.clock == .hybrid && hybridSpent s e then calPut n { e with tsOn := false } s
  else
    let i := e.tsPast.getD (tsPoint s e e.tsIdx)
    if t < i then s
    else
      let more := e.f.tsPeriod != 0 &&
        (e.f.clock == .hybrid || (e.f.mode == .periodic && gridHas e.f (e.tsIdx + 1)))
      let s := calPut n { e with tsIdx := e.tsIdx + 1, tsOn := more, tsPast := none } s
      calFire n { instant := i, target := lxNow s, fields := e.f } s

def execCalendarTsFiring (entry : Fin 2048) (t : Nat) (s : State) : Host.Outcome State Fault Refusal :=
  done (tsFire entry t (timeTo t s))

/-- DEFERRED_FIRING (R139, R141, R143). -/
def deferredFire (n t : Nat) (s : State) : State :=
  let ds := (calOf s n).deferred
  let s := calPut n { calOf s n with deferred := ds.filter fun o => decide (t < o.instant) } s
  (ds.filter fun o => decide (o.instant ≤ t)).foldl
    (fun s' o => calAction n o.target o.instant o.fields.action s') s

def execDeferredFiring (entry : Fin 2048) (t : Nat) (s : State) : Host.Outcome State Fault Refusal :=
  done (deferredFire entry t (timeTo t s))

/-! ## Repeats (R82, R83, R107 to R112, R126) -/

/-- One checker is compared with the master (R82, R83). One enabled within the interval is compared with the part of its
sum it has (DESIGN CHOICE, log entry 24). -/
def checkOne (n : Nat) (s : State) : State :=
  let e := encOf s n
  if e.en && n != s.lt.master then
    let d : Int := e.sum - ((posNow s : Int) - s.lt.sumBase)
    if s.lt.checkTol * 65536 < d.natAbs then ltEvent (8 + n) n s else s
  else s

/-- Restart of the checker sums and the master's (R82, R1009). -/
def sumsRestart (s : State) : State :=
  let s := (natsFrom 0 4).foldl (fun s' n => encMod n (fun e => { e with sum := 0 }) s') s
  ltMod (fun l => { l with sumBase := posNow s }) s

/-- The REPEAT entries get the occurrence of the repeat that begins, or count it as missed (R123, R126). -/
def repeatEntry (b : Nat) (n : Nat) (s : State) : State :=
  let e := calOf s n
  if repeatMissed s e.f then calSkip 1 s
  else if e.f.mode == .repeat && lxTimed s e.f then
    let g := b + e.f.target
    calPut n (match e.nextLx with
      | none => { e with nextLx := some g }
      | some _ => { e with moreLx := e.moreLx ++ [g] }) s
  else s

/-- A started group owes a task for the repeat (R527). After an abort, the boundary at which the drain has ended lets the
next task start (R539). (DEDUCED, log entry 78) -/
def repeatDue (rep : Nat) (s : State) : State :=
  { s with sgroups := s.sgroups.map fun e =>
      if e.2.started && !e.2.stopping then
        (e.1, { e.2 with due := e.2.due ++ [rep], awaits := e.2.awaits && !e.2.drains.isEmpty })
      else e }

/-- One repeat boundary (R108). -/
def boundaryOccurs (s : State) : State :=
  let b := s.lt.boundary
  let s := sumsRestart ((natsFrom 0 4).foldl (fun s' n => checkOne n s') s)
  let s := ltMod (fun l => { l with repeatCount := l.repeatCount + 1, lastBoundary := some b, runLen := l.repeatLen,
                                    boundary := b + 256 * l.repeatLen }) s
  let s := ingestBoundary (repeatDue s.lt.repeatCount.toNat s)
  let s := s.cal.foldl (fun s' e => repeatEntry b e.1 s') s
  schedTick (evPulse 163 s)

/-- The boundaries that LX has reached, not behind. The first argument bounds their number. -/
def boundariesGo : Nat → State → State
  | 0, s => s
  | f + 1, s => if !s.lt.behind && decide (s.lt.boundary ≤ lxNow s) then boundariesGo f (boundaryOccurs s) else s

def boundaries (s : State) : State :=
  boundariesGo ((lxNow s + 256 * s.lt.repeatLen - s.lt.boundary) / (256 * s.lt.repeatLen)) s

def execRepeatBoundary (t : Nat) (s : State) : Host.Outcome State Fault Refusal := done (boundaries (timeTo t s))

/-! ## Press state (R97, R98, R124) -/

/-- |v| is below k × STOP_SPEED. -/
def slowerThan (s : State) (k : Nat) : Bool :=
  let v := velAt s.lt (masterScale s) s.ts
  decide (v.1.natAbs * 1000000000 < k * s.lt.stopSpeed * 65536 * v.2)

/-- Since when |v| has been below STOP_SPEED without a break (R91, R97): as noted at the last edge or change of STOP_SPEED
or VEL_WIN, or since the decay after the mean interval of the window took it there. -/
def slowFrom (s : State) : Option Nat :=
  let l := s.lt
  match velEdges l with
  | none => l.slowSince
  | some ((t1, _), (t0, _)) =>
    let n := min (l.edges.length - 1) l.velWin
    if t1 ≤ t0 || decide ((s.ts - t1) * n ≤ t1 - t0) then l.slowSince
    else
      let decay := t1 + (t1 - t0) / n + 1
      let slow := t1 + masterScale s * 1000000000 / (l.stopSpeed * 65536) + 1
      if slow ≤ decay || (decide (decay ≤ l.judgedAt) && l.slowSince.isSome) then some (l.slowSince.getD decay)
      else if slow ≤ s.ts then some slow else none

/-- |v| is judged anew after a change of STOP_SPEED or VEL_WIN: it is slow since it was, or since now (R97). -/
def speedJudge (was : Option Nat) (s : State) : State :=
  let now := if slowerThan s 1 then some (was.getD s.ts) else none
  ltMod (fun l => { l with slowSince := now, judgedAt := s.ts }) s

/-- The press state changes: EV_164, and the HYBRID entries change their clock. -/
def pressTo (p : Press) (s : State) : State :=
  let s := ltMod (fun l => { l with press := p, stoppedAt := if p == .stopped then s.ts else l.stoppedAt }) s
  evPulse 164 (hybridSwitch s)

/-- PRESS_STOPPED (R97). -/
def pressStopped (s : State) : State :=
  if stopped s then s
  else match slowFrom s with
    | some u => if s.lt.stopHold * 100000 ≤ s.ts - u then pressTo .stopped s else s
    | none => s

def execPressStopped (t : Nat) (s : State) : Host.Outcome State Fault Refusal := done (pressStopped (timeTo t s))

/-- The press state after an accepted master count (R97). -/
def pressEdge (s : State) : State :=
  let l := s.lt
  match l.press with
  | .stopped =>
    if slowerThan s 2 then s
    else if 0 < (velAt l (masterScale s) s.ts).1 then pressTo .forward s else pressTo .reverse s
  | .forward => if 4 ≤ l.run && !l.runFwd then pressTo .reverse s else s
  | .reverse => if 4 ≤ l.run && l.runFwd then pressTo .forward s else s

/-! ## Encoders (R76 to R87, R1009) -/

/-- A new line master (R87, R1009): LX keeps its value. Position suspect, with the counts it still needs, is carried over
(DESIGN CHOICE, log entry 24). -/
def masterTo (n : Nat) (s : State) : State :=
  let p := posNow s
  let slow := (slowFrom s).getD s.ts
  sumsRestart (ltMod (fun l => { l with
    master := n, pos := p, edges := [], hold := none, run := 0, zRef := none, masterSince := s.ts, lastCount := none,
    slowSince := some slow }) s)

/-- Do the conditions of failover hold (R86)? Illegal transitions count from before the encoder became master too
(DESIGN CHOICE, log entry 24). -/
def failoverDue (s : State) : Bool :=
  match s.lt.backup with
  | none => false
  | some b =>
    (match (encOf s s.lt.master).illegals[3]? with
     | some t => decide (s.ts ≤ t + 1000000)
     | none => false) ||
    (decide (max s.lt.masterSince (s.lt.lastCount.getD 0) + 1000000 ≤ s.ts) &&
     match (encOf s b).recent[15]? with
     | some t => decide (s.ts ≤ t + 1000000)
     | none => false)

/-- MASTER_FAILOVER (R86, R87). -/
def masterFailover (s : State) : State :=
  match failoverDue s, s.lt.backup with
  | true, some b =>
    let old := s.lt.master
    ltEvent 13 old (ltMod (fun l => { l with backup := none, failover := true }) (masterTo b s))
  | _, _ => s

def execMasterFailover (t : Nat) (s : State) : Host.Outcome State Fault Refusal := done (masterFailover (timeTo t s))

/-- The count of a transition of (A, B) with DIR_INVERT 0 (R76). -/
def quadCount (decode : Nat) (a b a' b' : Bool) : Int :=
  let up : Bool := (!a && !b && a' && !b') || (a && !b && a' && b') || (a && b && !a' && b') || (!a && b && !a' && !b')
  let counted : Bool :=
    if decode = 4 then true
    else if decode = 2 then a != a'
    else a != a' && !b
  if a == a' && b == b' || !counted then 0 else if up then 1 else -1

/-- An accepted count of the master moves LX (R80, R90, R93, R97, R79). Past 2^48 L the position grows on, and what shows
it is cut to its width (DESIGN CHOICE, log entry 24). -/
def masterCount (up : Bool) (t : Nat) (s : State) : State :=
  let l := s.lt
  let slow := slowFrom s
  let sc := masterScale s
  let s := if !up && decide (l.pos < sc) then ltEvent 15 l.master s else s
  let p := if up then l.pos + sc else l.pos - sc
  let z := l.zRef.map fun z => (z.1 + (if up then 1 else -1), z.2.1 || up, z.2.2 || !up)
  let s := ltMod (fun l => { l with
    pos := p, edges := ((t, p) :: l.edges).take 65, hold := none, fwd := up, run := if l.runFwd == up then l.run + 1 else 1,
    runFwd := up, lastCount := some t, suspect := l.suspect - 1, zRef := z }) s
  let s := ltMod (fun l => { l with slowSince := if slowerThan s 1 then some (slow.getD t) else none }) s
  pressEdge (lxTouch s)

/-- Targets that the edge shows passed and whose instants are not committed fire at once (R96); one that lies exactly at
the edge counts as passed. (DEDUCED, log entry 24) -/
def catchUpGo (n : Nat) : Nat → State → State
  | 0, s => s
  | f + 1, s =>
    let e := calOf s n
    match e.nextLx with
    | none => s
    | some g =>
      if !s.lt.behind && lxTimed s e.f && decide (g ≤ lxNow s) then
        let s := calPut n (lxAdvance e) s
        catchUpGo n f (calFire n ⟨s.ts, g, e.f, posNow s - 256 * g⟩ (regOr 0x3034 0x80000 (regAdd 0x309C 1 s)))
      else s

/-- A bound on the targets of one entry that one edge can pass. -/
def catchUpBound (s : State) (e : CalEntry) : Nat :=
  match e.nextLx with
  | some g => if e.f.mode == .periodic then (lxNow s - g) / max 1 e.f.period + 1 else e.moreLx.length + 1
  | none => 0

/-- Every entry, in ascending number (R131). (DEDUCED, log entry 24) -/
def catchUp (s : State) : State :=
  s.cal.foldl (fun s' e => catchUpGo e.1 (catchUpBound s' (calOf s' e.1)) s') s

/-- A counting transition: accepted, or rejected beyond MAX_STEP (R78, R79, R82). -/
def encCount (n : Nat) (up : Bool) (t : Nat) (s : State) : State :=
  let s := encMod n (fun e => if e.win = t / 1000 then e else { e with win := t / 1000, winCount := 0, winRej := false }) s
  let e := encOf s n
  if e.maxStep ≤ e.winCount then
    let s := if e.winRej then s else ltEvent (4 + n) n s
    let s := encMod n (fun e => { e with winRej := true, reject := satAdd 65535 e.reject 1 }) s
    if n = s.lt.master then ltMod (fun l => { l with suspect := 64 }) s else s
  else
    let d : Int := if up then 1 else -1
    let s := encMod n (fun e => { e with
      winCount := e.winCount + 1, count := e.count + BitVec.ofInt 32 d, recent := (t :: e.recent).take 16,
      sum := if n = s.lt.master then e.sum else e.sum + d * (e.scale : Int) }) s
    if n = s.lt.master then catchUp (boundaries (masterCount up t s)) else s

/-- ENCODER_EDGE (R76, R77). -/
def encoderEdge (n : Nat) (a b : Bool) (t : Nat) (s : State) : State :=
  let e := encOf s n
  let s := encMod n (fun e => { e with a := a, b := b }) s
  if !e.en then s
  else if a != e.a && b != e.b then
    masterFailover (ltEvent n n (encMod n (fun e => { e with
      illegal := satAdd 255 e.illegal 1, illegals := (t :: e.illegals).take 4 }) s))
  else
    let d := quadCount e.decode e.a e.b a b
    if d = 0 then s else masterFailover (encCount n ((d == 1) != e.inv) t s)

/-- Has an input held its new level long enough to be accepted (R73)? -/
def encHeld (s : State) (n held : Nat) : Bool := decide (5 * (encOf s n).filt ≤ held)

/-- ENCODER_EDGE: a change of A or B (or of both in one sample) at `t`, which the inputs then hold for `held` ns; its time
stamp is `t` (R72 to R74). -/
def execEncoderEdge (enc : Fin 4) (a b : Bool) (e : PinEdge) (s : State) : Host.Outcome State Fault Refusal :=
  done (if encHeld s enc e.held then encoderEdge enc a b e.t (timeTo e.t s) else timeTo e.t s)

/-- ENCODER_Z_EDGE (R84, R85). -/
def zEdge (n : Nat) (level : Bool) (s : State) : State :=
  let e := encOf s n
  let s := encMod n (fun e => { e with z := level }) s
  if !level || e.z || !e.en || n != s.lt.master then s
  else
    let bad := match s.lt.zRef with
      | some (net, f, b) => s.lt.countsPerZ != 0 && !(f && b) && decide (2 < ((net.natAbs : Int) - s.lt.countsPerZ).natAbs)
      | none => false
    let s := if bad then ltEvent 12 n s else s
    ltMod (fun l => { l with zLatch := lxNow s, zRef := some (0, false, false) }) s

/-- ENCODER_Z_EDGE: a change of Z, held for `held` ns (R73). -/
def execEncoderZEdge (enc : Fin 4) (level : Bool) (e : PinEdge) (s : State) : Host.Outcome State Fault Refusal :=
  done (if encHeld s enc e.held then zEdge enc level (timeTo e.t s) else timeTo e.t s)

end Sys2Proof.Machine
end

