-- ==== Sys2Proof/Machine/Crc.lean ====
section
/-! DEFINITION. The check codes of the spec: CRC-16 (R714) and CRC-32C (R501, R624, R775). -/

namespace Sys2Proof.Machine

open Sys2Proof

/-- `n` steps of a reflected CRC register. -/
def crcRight (poly : Nat) : Nat → Nat → Nat
  | 0, c => c
  | n + 1, c => crcRight poly n (if c % 2 = 1 then (c / 2) ^^^ poly else c / 2)

/-- The CRC-32C register after more bytes. -/
def crc32cRun (c : Nat) (d : List Byte) : Nat := d.foldl (fun c b => crcRight 0x82F63B78 8 (c ^^^ b.toNat)) c

/-- CRC-32C of bytes. -/
def crc32c (d : List Byte) : Nat := crc32cRun 0xFFFFFFFF d ^^^ 0xFFFFFFFF

/-- `n` steps of a CRC-16 register, most significant bit first, polynomial 0x1021. -/
def crcLeft : Nat → Nat → Nat
  | 0, c => c
  | n + 1, c => crcLeft n (if 0x8000 ≤ c then (2 * c % 0x10000) ^^^ 0x1021 else 2 * c)

/-- CRC-16 of bytes (R714). -/
def crc16 (d : List Byte) : Nat := d.foldl (fun c b => crcLeft 8 (c ^^^ (256 * b.toNat))) 0xFFFF

end Sys2Proof.Machine
end

