-- ==== Sys2Proof/Machine/Float.lean ====
section
/-! DEFINITION. Number formats of the pixel cores (R369 to R375): FP32 and BF16 as bit patterns, exact dyadic values in
between, round to nearest even, subnormals read and written as zeros of their sign, one canonical NaN; and the special
functions' exact and special results (R447, R450, R451). -/

namespace Sys2Proof.Machine

open Sys2Proof

/-- What an FP32 pattern stands for: a NaN, an infinity, a zero with its sign, or m × 2^e with m not 0. -/
inductive Fl where
  | nan
  | inf (neg : Bool)
  | zero (neg : Bool)
  | num (m : Int) (e : Int)
  deriving DecidableEq, Repr

/-- The canonical NaN in FP32 and BF16 (R375). -/
def nan32 : Nat := 0x7FC00000
def nan16 : Nat := 0x7FC0

/-- Read an FP32 pattern (R374). -/
def flOf (b : Nat) : Fl :=
  let neg := bitAt b 31
  let ex := bitsOf b 23 8
  let fr := bitsOf b 0 23
  if ex = 255 then (if fr = 0 then .inf neg else .nan)
  else if ex = 0 then .zero neg
  else
    let m : Int := ((fr + 2 ^ 23 : Nat) : Int)
    .num (if neg then -m else m) ((ex : Int) - 150)

/-- Number of bits of a natural number. -/
def bitLen (n : Nat) : Nat := if n = 0 then 0 else Nat.log2 n + 1

/-- m × 2^e rounded to nearest even as an FP32 pattern (R373); a subnormal result is a zero of its sign (R374).
(DESIGN CHOICE, log entry 22) -/
def roundNum (m : Int) (e : Int) : Nat :=
  if m = 0 then 0
  else
    let sign := if m < 0 then 2 ^ 31 else 0
    let n := m.natAbs
    let top : Int := e + bitLen n - 1
    let q : Int := if top - 23 < -149 then -149 else top - 23
    let k : Int := q - e
    let v : Nat := if 0 < k then (divEven (n : Int) (2 ^ k.toNat)).toNat else n * 2 ^ (-k).toNat
    let (v, q) := if v = 2 ^ 24 then (2 ^ 23, q + 1) else (v, q)
    if v < 2 ^ 23 then sign
    else if 104 < q then sign + 0x7F800000
    else sign + (q + 150).toNat * 2 ^ 23 + (v - 2 ^ 23)

/-- The FP32 pattern of a value. -/
def flBits : Fl → Nat
  | .nan => nan32
  | .inf neg => if neg then 0xFF800000 else 0x7F800000
  | .zero neg => if neg then 0x80000000 else 0
  | .num m e => roundNum m e

/-- The exact sum of two values. -/
def flAdd (a b : Fl) : Fl :=
  match a, b with
  | .nan, _ => .nan
  | _, .nan => .nan
  | .inf x, .inf y => if x == y then .inf x else .nan
  | .inf x, _ => .inf x
  | _, .inf y => .inf y
  | .zero x, .zero y => .zero (x && y)
  | .zero _, v => v
  | v, .zero _ => v
  | .num m e, .num n f =>
    let g := if e < f then e else f
    let t := m * 2 ^ (e - g).toNat + n * 2 ^ (f - g).toNat
    if t = 0 then .zero false else .num t g

/-- The sign of a value. -/
def flNeg? : Fl → Bool
  | .nan => false
  | .inf x => x
  | .zero x => x
  | .num m _ => decide (m < 0)

/-- The exact product of two values. -/
def flMul (a b : Fl) : Fl :=
  match a, b with
  | .nan, _ => .nan
  | _, .nan => .nan
  | .inf _, .zero _ => .nan
  | .zero _, .inf _ => .nan
  | .inf x, v => .inf (x != flNeg? v)
  | v, .inf x => .inf (x != flNeg? v)
  | .zero x, v => .zero (x != flNeg? v)
  | v, .zero x => .zero (x != flNeg? v)
  | .num m e, .num n f => .num (m * n) (e + f)

/-- The quotient, exact or with a sticky last bit far below the rounding place. -/
def flDiv (a b : Fl) : Fl :=
  match a, b with
  | .nan, _ => .nan
  | _, .nan => .nan
  | .inf _, .inf _ => .nan
  | .zero _, .zero _ => .nan
  | .inf x, v => .inf (x != flNeg? v)
  | v, .inf x => .zero (x != flNeg? v)
  | .zero x, v => .zero (x != flNeg? v)
  | v, .zero x => .inf (x != flNeg? v)
  | .num m e, .num n f =>
    let q := m.natAbs * 2 ^ 64 / n.natAbs
    let r := m.natAbs * 2 ^ 64 % n.natAbs
    let t : Int := ((2 * q + (if r = 0 then 0 else 1) : Nat) : Int)
    .num (if decide (m < 0) == decide (n < 0) then t else -t) (e - f - 65)

/-- FP32 operations, each with one rounding. -/
def fAdd (a b : Nat) : Nat := flBits (flAdd (flOf a) (flOf b))
def fMul (a b : Nat) : Nat := flBits (flMul (flOf a) (flOf b))
def fDiv (a b : Nat) : Nat := flBits (flDiv (flOf a) (flOf b))
def fma32 (a b c : Nat) : Nat := flBits (flAdd (flMul (flOf a) (flOf b)) (flOf c))

/-- The pattern with the opposite sign; a NaN stays the canonical NaN. -/
def fNeg (a : Nat) : Nat :=
  match flOf a with
  | .nan => nan32
  | _ => flBits (flOf (if bitAt a 31 then a - 2 ^ 31 else a + 2 ^ 31))
def fAbs (a : Nat) : Nat :=
  match flOf a with
  | .nan => nan32
  | _ => flBits (flOf (if bitAt a 31 then a - 2 ^ 31 else a))
def fSub (a b : Nat) : Nat := fAdd a (fNeg b)

/-- The pattern as stored: subnormals as zeros, one NaN (R374, R375). -/
def fCanon (a : Nat) : Nat := flBits (flOf a)

def fIsNan (a : Nat) : Bool := flOf a == .nan

/-- a < b as numbers; false with a NaN, and for two zeros. -/
def fLt (a b : Nat) : Bool :=
  match flOf a, flOf b with
  | .nan, _ => false
  | _, .nan => false
  | .inf x, .inf y => x && !y
  | .inf x, _ => x
  | _, .inf y => !y
  | .zero _, .zero _ => false
  | .zero _, .num n _ => decide (0 < n)
  | .num m _, .zero _ => decide (m < 0)
  | .num m e, .num n f =>
    let g := if e < f then e else f
    decide (m * 2 ^ (e - g).toNat < n * 2 ^ (f - g).toNat)

/-- Equal as numbers: zeros of either sign are equal, a NaN equals nothing. -/
def fEq (a b : Nat) : Bool := !fIsNan a && !fIsNan b && !fLt a b && !fLt b a

/-- The larger value; +0 is larger than −0; a NaN gives the canonical NaN (R399, R416). -/
def fMax (a b : Nat) : Nat :=
  if fIsNan a || fIsNan b then nan32
  else if fLt a b then fCanon b
  else if fLt b a then fCanon a
  else if bitAt a 31 then fCanon b else fCanon a
def fMin (a b : Nat) : Nat :=
  if fIsNan a || fIsNan b then nan32
  else if fLt a b then fCanon a
  else if fLt b a then fCanon b
  else if bitAt a 31 then fCanon a else fCanon b

/-- FP32 of an integer (R404). -/
def fOfInt (v : Int) : Nat := roundNum v 0

/-- Nearest integer, ties to even, of a value within bounds [lo, hi]; outside, the bound; a NaN gives 0. -/
def fToInt (lo hi : Int) (a : Nat) : Int :=
  match flOf a with
  | .nan => 0
  | .inf neg => if neg then lo else hi
  | .zero _ => if 0 < lo then lo else 0
  | .num m e =>
    let v := if 0 ≤ e then m * 2 ^ e.toNat else divEven m (2 ^ (-e).toNat)
    if v < lo then lo else if hi < v then hi else v

/-- Whether rounding to an integer goes beyond the bounds. -/
def fToIntSat (lo hi : Int) (a : Nat) : Bool :=
  match flOf a with
  | .nan => false
  | .inf _ => true
  | .zero _ => false
  | .num m e =>
    let v := if 0 ≤ e then m * 2 ^ e.toNat else divEven m (2 ^ (-e).toNat)
    decide (v < lo) || decide (hi < v)

/-! ## BF16 (R372) and the output conversions (R408, R409) -/

/-- FP32 pattern of a BF16 pattern, subnormals read as zeros. -/
def bfWiden (b : Nat) : Nat := fCanon (b % 65536 * 65536)

/-- m × 2^e rounded once to 8 significant bits, to nearest even, as a BF16 pattern (R373). -/
def bfNum (m e : Int) : Nat :=
  let k := bitLen m.natAbs
  let v := divEven (m.natAbs : Int) (2 ^ (k - 8))
  roundNum (if m < 0 then -v else v) (e + ((k - 8 : Nat) : Int)) / 65536

/-- FP32 rounded to BF16, no limit: infinities stay. -/
def bfRound (a : Nat) : Nat :=
  match flOf a with
  | .nan => nan16
  | .num m e => bfNum m e
  | v => flBits v / 65536

/-- BF16 of an INT32 value, rounded once (R373, R417): it never reaches the limit of R409. -/
def bfOfInt (v : Int) : Nat := bfNum v 0

/-- Output as BF16 (R409): limited to the largest finite value. -/
def bfOut (a : Nat) : Nat :=
  let b := bfRound a
  if b = 0x7F80 then 0x7F7F else if b = 0xFF80 then 0xFF7F else b

/-- Did the limit of R409 change the output? -/
def bfSat (a : Nat) : Bool := bfRound a == 0x7F80 || bfRound a == 0xFF80

/-- Output as INT8 (R408), as a byte. -/
def i8Out (a : Nat) : Nat := unsgn 8 (fToInt (-128) 127 a)
def i8Sat (a : Nat) : Bool := fToIntSat (-128) 127 a

/-! ## Formats of stored elements: 0 INT8, 1 BF16, 2 INT32, 3 FP32 (R485) -/

/-- Bytes of an element of a format. -/
def fmtBytes (f : Nat) : Nat := if f = 0 then 1 else if f = 1 then 2 else 4

/-! ## Special functions -/

/-- Is the value ±2^n with n in [lo, hi]? The exponent. -/
def pow2Exp (m e : Int) : Option Int :=
  let n := m.natAbs
  let k := bitLen n - 1
  if n = 2 ^ k then some (e + (k : Int)) else none

/-- A power of two. -/
def flPow (neg : Bool) (n : Int) : Fl := .num (if neg then -1 else 1) n

/-- FP32 patterns used below. -/
def one32 : Nat := 0x3F800000
def half32 : Nat := 0x3F000000
def inf32 : Nat := 0x7F800000
def ninf32 : Nat := 0xFF800000
def nzero32 : Nat := 0x80000000
def f16c : Nat := 0x41800000   -- 16.0
def f8c : Nat := 0x41000000    -- 8.0

/-- The exact and special results of the built-in functions (R447, R450, R451), where the spec states one. -/
def sfuExact (fn u : Nat) : Option Nat :=
  match flOf u with
  | .nan => some nan32
  | v =>
    match fn with
    | 0 => -- EXP2
      match v with
      | .zero _ => some one32
      | .inf neg => some (if neg then 0 else inf32)
      | .num m e =>
        if !fLt u 0x43000000 then some inf32
        else if fLt u 0xC2FC0000 then some 0
        else if 0 ≤ e then some (flBits (flPow false (m * 2 ^ e.toNat)))
        else if m % ((2 ^ (-e).toNat : Nat) : Int) = 0 then
          some (flBits (flPow false (m / ((2 ^ (-e).toNat : Nat) : Int))))
        else none
      | .nan => some nan32
    | 1 => -- LOG2
      match v with
      | .zero _ => some ninf32
      | .inf neg => some (if neg then nan32 else inf32)
      | .num m e => if m < 0 then some nan32 else (pow2Exp m e).map fOfInt
      | .nan => some nan32
    | 2 => -- RECIP
      match v with
      | .zero neg => some (if neg then ninf32 else inf32)
      | .inf neg => some (if neg then nzero32 else 0)
      | .num m e =>
        if !fLt (fAbs u) 0x7E800000 then some (if m < 0 then nzero32 else 0)
        else (pow2Exp m e).map fun n => flBits (flPow (decide (m < 0)) (-n))
      | .nan => some nan32
    | 3 => -- RSQRT
      match v with
      | .zero neg => some (if neg then ninf32 else inf32)
      | .inf neg => some (if neg then nan32 else 0)
      | .num m e =>
        if m < 0 then some nan32
        else match pow2Exp m e with
          | some n => if n % 2 = 0 then some (flBits (flPow false (-(n / 2)))) else none
          | none => none
      | .nan => some nan32
    | 4 => -- SQRT
      match v with
      | .zero neg => some (if neg then nzero32 else 0)
      | .inf neg => some (if neg then nan32 else inf32)
      | .num m e =>
        if m < 0 then some nan32
        else match pow2Exp m e with
          | some n => if n % 2 = 0 then some (flBits (flPow false (n / 2))) else none
          | none => none
      | .nan => some nan32
    | 5 => -- SIGMOID
      if !fLt u f16c then some one32 else if fLt u (fNeg f16c) then some 0
      else (match v with | .zero _ => some half32 | _ => none)
    | 6 => -- TANH
      if !fLt u f8c then some one32 else if fLt u (fNeg f8c) then some (fNeg one32)
      else (match v with | .zero _ => some (flBits v) | _ => none)
    | 7 => -- GELU
      if !fLt u f8c then some (fCanon u) else if fLt u (fNeg f8c) then some nzero32
      else (match v with | .zero _ => some (flBits v) | _ => none)
    | 8 => -- SILU
      if !fLt u f16c then some (fCanon u) else if fLt u (fNeg f16c) then some nzero32
      else (match v with | .zero _ => some (flBits v) | _ => none)
    | 9 => -- SOFTPLUS
      if !fLt u f16c then some (fCanon u) else if fLt u (fNeg f16c) then some 0 else none
    | _ => none

end Sys2Proof.Machine
end

