-- ==== Sys2Proof/Machine/Special.lean ====
section
/-! DEFINITION. The special functions (R442 to R457): the band of results that the accuracy bounds allow around the exact
value, a monotonic choice within it, and the user table. -/

namespace Sys2Proof.Machine

open Sys2Proof

/-! ## Exact values in fixed point

A value is an integer count of 2^−200. Each function is off by less than 2^−120 at the arguments at which it is used. -/

/-- 1 in fixed point. -/
def fxOne : Int := 2 ^ 200

def fxMul (a b : Int) : Int := a * b / fxOne
def fxDiv (a b : Int) : Int := a * fxOne / b

/-- A value in fixed point; 0 for what is not a number above 2^−200. -/
def fxOf (v : Fl) : Int :=
  match v with
  | .num m e => if -200 ≤ e then m * 2 ^ (e + 200).toNat else m / 2 ^ (-(e + 200)).toNat
  | .nan | .inf _ | .zero _ => 0

/-- The sum of z^(2k+1) / (2k+1) over `n` values of k from `k` on, `p` being z^(2k+1) and `z2` the square of z. -/
def fxOddSum (z2 : Int) : Nat → Nat → Int → Int
  | 0, _, _ => 0
  | n + 1, k, p => p / (2 * k + 1) + fxOddSum z2 n (k + 1) (fxMul p z2)

/-- Twice the inverse hyperbolic tangent, for |z| up to 1/3. -/
def fxAtanh2 (z : Int) : Int := 2 * fxOddSum (fxMul z z) 70 0 z

/-- The inverse tangent of 1/q. -/
def fxAtanInv (q : Int) : Int := fxOddSum (-fxOne / (q * q)) 70 0 (fxOne / q)

def fxLn2 : Int := fxAtanh2 (fxOne / 3)
def fxPi : Int := 16 * fxAtanInv 5 - 4 * fxAtanInv 239

/-- The sum of x^k / k! over `n` values of k from `k` on, `p` being the term of k. -/
def fxExpSum (x : Int) : Nat → Nat → Int → Int
  | 0, _, _ => 0
  | n + 1, k, p => p + fxExpSum x n (k + 1) (fxMul p x / (k + 1))

/-- The exponential, for |x| up to 50. -/
def fxExp (x : Int) : Int :=
  let y := fxExpSum (if x < 0 then -x else x) 260 0 fxOne
  if x < 0 then fxDiv fxOne y else y

/-- The natural logarithm of a positive value. -/
def fxLn (x : Int) : Int :=
  let k : Int := (bitLen x.natAbs : Int) - 201
  let m := if 0 ≤ k then x / 2 ^ k.toNat else x * 2 ^ (-k).toNat
  k * fxLn2 + fxAtanh2 (fxDiv (m - fxOne) (m + fxOne))

/-- The square root of a positive value. -/
def fxSqrt (x : Int) : Int := Nat.sqrt (x * fxOne).toNat

/-- The base-2 exponential. -/
def fxExp2 (x : Int) : Int :=
  let n := x / fxOne
  let y := fxExp (fxMul (x % fxOne) fxLn2)
  if 0 ≤ n then y * 2 ^ n.toNat else y / 2 ^ (-n).toNat

def fxSigmoid (x : Int) : Int := fxDiv fxOne (fxOne + fxExp (-x))
def fxTanh (x : Int) : Int := 2 * fxSigmoid (2 * x) - fxOne

/-- GELU in tanh form: 0.5 u (1 + tanh(√(2/π) (u + 0.044715 u³))). -/
def fxGelu (x : Int) : Int :=
  let c := fxSqrt (fxDiv (2 * fxOne) fxPi)
  fxMul x (fxOne + fxTanh (fxMul c (x + fxMul x (fxMul x x) * 44715 / 1000000))) / 2

/-- The exact value of a built-in function at an argument that is no special value (R442). -/
def fxValue (fn : Nat) (x : Int) : Int :=
  match fn with
  | 0 => fxExp2 x
  | 1 => fxDiv (fxLn x) fxLn2
  | 2 => fxDiv fxOne x
  | 3 => fxDiv fxOne (fxSqrt x)
  | 4 => fxSqrt x
  | 5 => fxSigmoid x
  | 6 => fxTanh x
  | 7 => fxGelu x
  | 8 => fxMul x (fxSigmoid x)
  | _ => fxLn (fxOne + fxExp x)

/-! ## The band of results (R445) -/

/-- One unit in the last place of BF16 at an exact value: 2^(⌊log2 |y|⌋ − 7). -/
def fxUlp (y : Int) : Int := 2 ^ (bitLen y.natAbs - 8)

/-- How far the FP32 result may lie from the exact value: B − 1/2 ULP (R445). -/
def sfuRadius (fn : Nat) (y : Int) : Int :=
  let u := fxUlp y
  if fn = 2 ∨ fn = 3 then u / 2
  else if fn < 5 then 2 * u - u / 2
  else max (2 * u) (2 ^ 190) - u / 2

/-- FP32 patterns in the order of their values; the zeros share 0. -/
def fKey (b : Nat) : Int := if bitAt b 31 then -((b - 2 ^ 31 : Nat) : Int) else b
def fUnkey (k : Int) : Nat := if k < 0 then 2 ^ 31 + k.natAbs else k.toNat

/-- The exact value of an FP32 pattern in fixed point, subnormal patterns among them. -/
def fxKey (k : Int) : Int :=
  let b := k.natAbs
  let m : Nat := if b < 2 ^ 23 then b else b % 2 ^ 23 + 2 ^ 23
  let e : Nat := if b < 2 ^ 23 then 1 else b / 2 ^ 23
  let v : Int := m * 2 ^ (e + 50)
  if k < 0 then -v else v

/-- The nearest pattern, by key, to a value. -/
def keyNear (y : Int) : Int := fKey (roundNum y (-200))

/-- The least key whose value is y or above, and the greatest whose value is y or below. -/
def keyAbove (y : Int) : Int := let k := keyNear y; if fxKey k < y then k + 1 else k
def keyBelow (y : Int) : Int := let k := keyNear y; if y < fxKey k then k - 1 else k

/-- The bounds of a function's results within its segment range: never beyond the saturation values (R449). -/
def sfuLimits (fn : Nat) : Int × Int :=
  match fn with
  | 5 => (0, fKey one32)
  | 6 => (-fKey one32, fKey one32)
  | _ => (-0x7F7FFFFF, 0x7F7FFFFF)

/-- The results that the spec allows at an argument, by key: the exact one where it states one (R447, R451), else those
within the accuracy bound (R445). (DEDUCED, log entry 22) -/
def sfuBand (fn u : Nat) : Int × Int :=
  match sfuExact fn u with
  | some v => (fKey v, fKey v)
  | none =>
    let y := fxValue fn (fxOf (flOf u))
    let r := sfuRadius fn y
    (max (sfuLimits fn).1 (keyAbove (y - r)), min (sfuLimits fn).2 (keyBelow (y + r)))

/-! ## A monotonic choice within the band (R448, R449) -/

/-- The interval on which a function is monotonic that holds an argument of a sign: its first and last key, and whether the
function decreases there (R448). None for GELU, SILU, and where the function has no monotonic interval. -/
def sfuTrend (fn : Nat) (neg : Bool) : Option (Int × Int × Bool) :=
  match fn with
  | 0 | 5 | 6 | 9 => some (-0x7F800000, 0x7F800000, false)
  | 1 | 4 => if neg then none else some (0, 0x7F800000, false)
  | 3 => if neg then none else some (0, 0x7F800000, true)
  | 2 => if neg then some (-0x7F800000, 0, true) else some (0, 0x7F800000, true)
  | _ => none

/-- The argument of a key; key 0 of an interval of negative arguments is −0. -/
def sfuArgAt (neg : Bool) (k : Int) : Nat := if neg && k == 0 then nzero32 else fUnkey k

/-- The band at a key, turned over where the function decreases. -/
def sfuBandAt (fn : Nat) (neg down : Bool) (k : Int) : Int × Int :=
  let b := sfuBand fn (sfuArgAt neg k)
  if down then (-b.2, -b.1) else b

/-- What a table gives at a key: some result within the band. The coefficients of the tables are not published (R444). -/
def sfuPick (fn : Nat) (neg down : Bool) (k : Int) : Int :=
  let b := sfuBandAt fn neg down k
  let v := (Config.builtinSfu fn (BitVec.ofNat 32 (sfuArgAt neg k))).toNat
  b.1 + (v : Int) % (max 1 (b.2 - b.1 + 1))

/-- The greatest of the picks at the `n` keys from `k` on, and at least `m`. -/
def sfuRise (fn : Nat) (neg down : Bool) : Nat → Int → Int → Int
  | 0, _, m => m
  | n + 1, k, m => sfuRise fn neg down n (k + 1) (max m (sfuPick fn neg down k))

/-- The least upper end of the bands at the `n` keys from `k` on, and at most `m`. -/
def sfuRoof (fn : Nat) (neg down : Bool) : Nat → Int → Int → Int
  | 0, _, m => m
  | n + 1, k, m => sfuRoof fn neg down n (k + 1) (min m (sfuBandAt fn neg down k).2)

/-- The result of a built-in function at an argument without an exact one, by key: within the band; on a monotonic
interval the running greatest of what the table gives, below every band that is still to come, so that it rises with the
argument whatever the table (R445, R448, R449). -/
def sfuChoice (fn u : Nat) : Int :=
  let neg := bitAt u 31
  let k := fKey u
  match sfuTrend fn neg with
  | none => sfuPick fn neg false k
  | some (a, b, down) =>
    let rise := sfuRise fn neg down (k - a + 1).toNat a (-0x7F800000)
    let roof := sfuRoof fn neg down (b - k + 1).toNat k 0x7F800000
    if down then -(min rise roof) else min rise roof

/-- A built-in special function: the results the spec states, elsewhere a choice within what it promises (R442 to R451).
(DEDUCED, log entry 22) -/
def sfuBuiltin (fn u : Nat) : Nat :=
  match sfuExact fn u with
  | some v => v
  | none => fCanon (fUnkey (sfuChoice fn (fCanon u)))

/-! ## The user table (R455 to R457) -/

/-- Coefficient j (0, 1, 2) of segment i. -/
def utCoef (t : List Byte) (i j : Nat) : Nat := leAt t (0x40 + 12 * i + 4 * j) 4

/-- The point at segment i and fraction f / 65,536. -/
def utPoint (t : List Byte) (i f : Nat) : Nat :=
  let x := flBits (if f = 0 then .zero false else .num f (-16))
  fma32 x (fma32 x (utCoef t i 2) (utCoef t i 1)) (utCoef t i 0)

/-- 2^WEXP and 2^−WEXP. -/
def utWexp (t : List Byte) : Int := sgn 32 (leAt t 4 4)

/-- The below and above values (R457). -/
def utBelow (t : List Byte) (u : Nat) : Nat :=
  let m := leAt t 0xA 1
  if m = 0 then leAt t 0xC 4 else if m = 1 then u else utCoef t 0 0
def utAbove (t : List Byte) (u : Nat) : Nat :=
  let m := leAt t 0xB 1
  if m = 0 then leAt t 0x10 4 else if m = 1 then u else utPoint t 63 65535

/-- A user table evaluated (R456). -/
def utEval (t : List Byte) (u : Nat) : Nat :=
  let lo := leAt t 0 4
  if fIsNan u then nan32
  else if fLt u lo then fCanon (utBelow t u)
  else
    let d := fSub u lo
    let x := fMul d (flBits (flPow false (-utWexp t)))
    if !fLt x 0x42800000 then fCanon (utAbove t u)
    else match flOf x with
      | .num m e =>
        -- x × 65,536 rounded down
        let k := m * 65536
        let v : Nat := (if 0 ≤ e then k * 2 ^ e.toNat else k / ((2 ^ (-e).toNat : Nat) : Int)).toNat
        utPoint t (v / 65536) (v % 65536)
      | _ => utPoint t 0 0

/-- Any function code: 10 is the user table. -/
def sfuEval (ut : List Byte) (fn u : Nat) : Nat := if fn = 10 then utEval ut u else sfuBuiltin fn u

/-- A NaN from an argument that is none (R452). -/
def sfuDomain (ut : List Byte) (fn u : Nat) : Bool := fIsNan (sfuEval ut fn u) && !fIsNan u

end Sys2Proof.Machine
end

