-- ==== Sys2Proof/Machine/Cache.lean ====
section
/-! DEFINITION. Tile caches (09_caches_ordering.md): lookup, fill, replacement, write-back, reduction lines and the bank
adder, fences, range operations. -/

namespace Sys2Proof.Machine

open Sys2Proof

/-! ## Lines -/

/-- The lines a core holds in the set of a line (R540). -/
def tcSet (s : State) (core line : Nat) : List (Nat × TcLine) :=
  s.tcache.filter fun e => decide (tcCore e.1 = core) && decide (tcLineNo e.1 % 512 = line % 512)

def tcPut (core line : Nat) (l : TcLine) (s : State) : State :=
  { s with tcache := tabSet s.tcache (tcKey core line) l }

/-- The hint of a tile-op (R482). -/
def hintOf (h : Nat) : Hint := if h = 1 then .keep else if h = 2 then .evictFirst else .normal
def hintNo (h : Hint) : Nat := match h with | .normal => 0 | .keep => 1 | .evictFirst => 2

/-- Count a lookup, and a hit, with hint h in class c (0 FETCH, 1 STORE). -/
def tcCount (h : Hint) (c : Nat) (hit : Bool) (s : State) : State :=
  let o := 0x7100 + (2 * hintNo h + c) * 0x10
  let s := regAdd48 o 1 s
  if hit then regAdd48 (o + 8) 1 s else s

/-- A keep fill or keep hit is demoted (R549, R552). -/
def tcDemote (s : State) : State := regAdd 0x10C 1 (regOr 0x100 1 { s with pinNow := (true, s.pinNow.2) })

/-- The owner tag under which a logical core accesses the store, and its physical core. -/
def coreTag (s : State) (core : Nat) : Nat := (csOfCore s core).getD 0x1F
def coreDetail (s : State) (core : Nat) : Nat := (physCore s core).getD 0

/-- An error response to an access of a core: its core set's tasks abort, with cause 3 for RING, else 1 (R537). -/
def coreError (core resp : Nat) (s : State) : State :=
  match csOfCore s core with
  | some cs => abortCs cs (if resp = 4 then 3 else 1) cs s
  | none => s

/-- One access of a core. An error response aborts. -/
def coreAccess (core : Nat) (r : DsReq) (s : State) : State × Reply :=
  let q := dsAccess r false s
  if q.2.resp = 0 then q else (coreError core q.2.resp q.1, q.2)

/-! ## Check bits of the tile cache (R546) -/

/-- A word of a line holds dirty bytes, or sums of a reduction line. -/
def tcWordDirty (l : TcLine) (w : Nat) : Bool := l.red.isSome || l.dirty.any fun e => decide (e.1 / 8 = w)

/-- An uncorrectable error in a clean word: the line goes, or keeps only its dirty bytes; what reads it fills it again. -/
def tcInvalid (core line : Nat) (l : TcLine) (s : State) : State :=
  if l.dirty.isEmpty then tcDrop core line s
  else tcPut core line { l with filled := false, data := [], ecc := [] } s

/-- An uncorrectable error in a dirty word: the dirty bytes go with the line, and the tasks of the core set abort. -/
def tcLost (core line : Nat) (s : State) : State :=
  coreError core 3 (logPut
    { source := coreTag s core, cls := 1, code := 0x25, detail := coreDetail s core, addr := 64 * line, flags := 0x21,
      syndrome := Config.poisonSyndrome.toNat } (tcDrop core line s))

/-- An access meets the check bits of the line it touches (R546): false when a dirty word was lost.
(DEDUCED, log entry 39) -/
def tcCheck (core line : Nat) (s : State) : State × Bool :=
  match tabGet? s.tcache (tcKey core line) with
  | none => (s, true)
  | some l =>
    let bad := (l.ecc.filter fun e => e.2 == .uncorrectable || e.2 == .poisoned).map (·.1)
    let s := if l.ecc.any fun e => e.2 == .correctable then
        logPut { source := coreTag s core, cls := 0, code := 0x22, detail := coreDetail s core, addr := 64 * line }
          (regOr 0x100 2 (tcPut core line { l with ecc := l.ecc.filter fun e => e.2 != .correctable } s))
      else s
    if bad.isEmpty then (s, true)
    else if bad.any (tcWordDirty l) then (tcLost core line (regOr 0x100 4 s), false)
    else (tcInvalid core line l (regOr 0x100 4 s), true)

/-! ## Write-back (R543 to R545) and reduction flush (R567 to R569) -/

/-- Bytes with a table of replacements laid over. -/
def overlay (d : List Byte) (t : Tab Byte) : List Byte :=
  (natsFrom 0 64).map fun i => match tabGet? t i with | some b => b | none => d.getD i 0

/-- One word of a write-back: refused where the old word of a partial write is bad (R291). Answers whether refused. -/
def wbWord (c : EccCause) (addr : Nat) (dirty : Tab Byte) (w : Nat) (s : State) : State × Bool :=
  let ds := dirty.filter fun e => e.1 / 8 = w
  let a := addr + 8 * w
  if ds.isEmpty then (s, false)
  else if ds.length = 8 then (memWrite a (ds.map (·.2)) (eccFresh [a] s), false)
  else if eccBad s a then
    let p := eccPoison s [a]
    (regOr 0x810 4 (ueLog { c with flags := c.flags + 8 } p a (eccTouch c a s)), true)
  else (ds.foldl (fun s' e => memWrite (addr + e.1) [e.2] s') (eccTouch c a s), false)

/-- The request of a line's write-back, for its checks. -/
def wbReq (s : State) (core line : Nat) (d : List Byte) : DsReq :=
  ⟨coreTag s core, coreDetail s core, .addr (64 * line), true, true, 64, d⟩

/-- Checks 1 to 4 of an access that the model performs word by word: the response, the store woken.
(DESIGN CHOICE, log entry 19) -/
def dsAdmit (r : DsReq) (s : State) : State × Nat × Nat × Nat :=
  match dsCheck s r with
  | (0, a, i) =>
    let g := bankOf s a / 16
    if groupServes s g false then (groupWake g s, 0, a, i) else (dsRefuse r 6 a i s, 6, a, i)
  | (code, a, i) => (dsRefuse r code a i s, code, a, i)

/-- Write back the dirty bytes of a line (R544, R545). (DEDUCED, log entry 38) -/
def wbDirty (core line : Nat) (dirty : Tab Byte) (data : List Byte) (s : State) : State :=
  let r := wbReq s core line (overlay data dirty)
  let q := dsAdmit r (bwCharge 2 1 s)
  if q.2.1 ≠ 0 then coreError core q.2.1 q.1
  else if dirty.length = 64 then (dsPerform r (64 * line) q.2.2.2 q.1).1
  else
    let c : EccCause := ⟨r.tag, 0x24⟩
    let p := (natsFrom 0 8).foldl (fun (p : State × Bool) w =>
      let x := wbWord c (64 * line) dirty w p.1
      (x.1, p.2 || x.2)) (q.1, false)
    if p.2 then coreError core 3 p.1 else p.1

/-- One element added: INT32 wraps, FP32 rounds (R565, R568). -/
def addElem (fp : Bool) (a b : Nat) : Nat := if fp then fAdd a b else (a + b) % 2 ^ 32

/-- The bank adder adds 16 elements into a line (R568, R569). (DEDUCED, log entry 38) -/
def flushRed (core line : Nat) (fp : Bool) (sums : List Nat) (s : State) : State :=
  let a := 64 * line
  let r := wbReq s core line []
  let q := dsAdmit r (bwCharge 2 1 s)
  if q.2.1 ≠ 0 then coreError core q.2.1 q.1
  else
    let s := q.1
    let c : EccCause := ⟨r.tag, 0x24⟩
    let ws := wordsOf a 64
    if ws.any (eccBad s) then
      let p := eccPoison s ws
      coreError core 3 (ueLog c p a (ws.foldl (fun s' w => eccTouch c w s') s))
    else
      let s := ws.foldl (fun s' w => eccTouch c w s') s
      let d := (natsFrom 0 16).flatMap fun i =>
        leBytes 4 (addElem fp (ofLe (memBytes s (a + 4 * i) 4)) (sums.getD i 0))
      arrivalCount q.2.2.2 r (memWrite a d s)

/-- Write back or flush a line; what stays is the clean line. A line that was never filled does not stay. -/
def tcClean (core line : Nat) (s : State) : State :=
  let s := (tcCheck core line s).1
  match tabGet? s.tcache (tcKey core line) with
  | none => s
  | some l =>
    match l.red with
    | some fp => flushRed core line fp l.sums (tcDrop core line s)
    | none =>
      if l.dirty.isEmpty then s
      else
        let s := if l.filled then tcPut core line { l with dirty := [], data := overlay l.data l.dirty } s
          else tcDrop core line s
        wbDirty core line l.dirty l.data s

/-- Write back and flush the lines of a core that satisfy p. -/
def tcCleanAll (core : Nat) (p : Nat → Bool) (s : State) : State :=
  (tcLines s core fun n _ => p n).foldl (fun s' n => tcClean core n s') s

/-! ## Fill and replacement (R542, R548 to R551) -/

/-- The victim of a fill: the least recently used evict-first line, else the least recently used normal line. -/
def tcVictim (ls : List (Nat × TcLine)) : Option Nat :=
  let pick (h : Hint) : Option (Nat × TcLine) := ls.foldl (fun b e =>
    if e.2.hint ≠ h then b
    else match b with
      | some x => if e.2.lru < x.2.lru then some e else b
      | none => some e) none
  match pick .evictFirst with
  | some e => some e.1
  | none => (pick .normal).map (·.1)

/-- Make room in the set of a line (R548). -/
def tcMakeRoom (core line : Nat) (s : State) : State :=
  let ls := tcSet s core line
  if ls.length < 8 then s
  else match tcVictim ls with
    | some k => tcDrop core (tcLineNo k) (tcClean core (tcLineNo k) s)
    | none => s

/-- The class a new line gets under a hint (R549). -/
def tcClass (s : State) (core line : Nat) (h : Hint) : Hint :=
  if h == .keep && decide (6 ≤ ((tcSet s core line).filter fun e => e.2.hint == .keep).length) then .normal else h

/-- Install a line. -/
def tcInstall (core line : Nat) (h : Hint) (l : TcLine) (s : State) : State :=
  let s := tcMakeRoom core line s
  let h' := tcClass s core line h
  let s := if h' == h then s else tcDemote s
  tcPut core line { l with hint := h', lru := s.useCount } { s with useCount := s.useCount + 1 }

/-- A hit touches a line: its LRU place, and keep on request (R550). -/
def tcTouch (core line : Nat) (h : Hint) (s : State) : State :=
  match tabGet? s.tcache (tcKey core line) with
  | none => s
  | some l =>
    let up := h == .keep && l.hint != .keep
    let h' := if up then tcClass s core line .keep else l.hint
    let s := if up && h' != .keep then tcDemote s else s
    tcPut core line { l with hint := if up && h' != .keep then l.hint else h', lru := s.useCount }
      { s with useCount := s.useCount + 1 }

/-- The wide read of a line for a core's fill. -/
def fillReq (s : State) (core line : Nat) : DsReq :=
  ⟨coreTag s core, coreDetail s core, .addr (64 * line), true, false, 64, []⟩

/-- Does an earlier fill of the line wait in its bank's queue at this instant, with no write to the line since and no word
of it bad (R562, R563)? (DESIGN CHOICE, log entry 81) -/
def fillWaits (s : State) (line : Nat) : Bool :=
  tabGet? s.fills line == some s.ts && groupOf s (bankOf s (64 * line) / 16) == .on &&
    !(wordsOf (64 * line) 64).any (eccBad s)

/-- A fill of a line (R542): merged with the one that waits, at no cost (R562, R563), or a wide read of its own in class
FETCH. -/
def tcFill (core line : Nat) (s : State) : State × Reply :=
  let r := fillReq s core line
  if fillWaits s line && decide ((dsCheck s r).1 = 0) then (s, { data := memBytes s (64 * line) 64 })
  else
    let q := dsAccess r false (bwCharge 1 1 s)
    if q.2.resp = 0 then
      ({ q.1 with fills := tabSet (q.1.fills.filter fun e => decide (e.2 = q.1.ts)) line q.1.ts }, q.2)
    else q

/-- A fill whose error response aborts the core's tasks. -/
def coreFill (core line : Nat) (s : State) : State × Reply :=
  let q := tcFill core line s
  if q.2.resp = 0 then q else (coreError core q.2.resp q.1, q.2)

/-- The line is ready for an ordinary access: its check bits met (R546), a reduction line flushed (R566). False when a
dirty word was lost. -/
def tcReady (core line : Nat) (s : State) : State × Bool :=
  let q := tcCheck core line s
  match tabGet? q.1.tcache (tcKey core line) with
  | some l => if l.red.isSome then (tcClean core line q.1, q.2) else q
  | none => q

/-- Does a line hold `n` bytes from `off` on: is it filled, or are they all dirty (R543)? -/
def tcHolds (l : TcLine) (off n : Nat) : Bool := l.filled || (natsFrom off n).all fun i => (tabGet? l.dirty i).isSome

/-- A line for a core that reads `n` bytes from `off` on, with the hint given: hit, or fill (R542, R543, R566). None after
an error. -/
def tcReadLine (core line off n : Nat) (h : Hint) (s : State) : State × Option (List Byte) :=
  let p := tcReady core line s
  let s := p.1
  if !p.2 then (s, none)
  else match tabGet? s.tcache (tcKey core line) with
    | some l =>
      if tcHolds l off n then
        match dsCheck s (fillReq s core line) with
        | (0, _, _) => (tcTouch core line h (tcCount h 0 true s), some (overlay l.data l.dirty))
        | (code, a, i) => (coreError core code (dsRefuse (fillReq s core line) code a i s), none)
      else
        let q := coreFill core line (tcCount h 0 false s)
        if q.2.resp = 0 then
          (tcTouch core line h (tcPut core line { l with filled := true, data := q.2.data } q.1),
            some (overlay q.2.data l.dirty))
        else (q.1, none)
    | none =>
      let q := coreFill core line (tcCount h 0 false s)
      if q.2.resp = 0 then
        (tcInstall core line h ⟨h, 0, true, [], q.2.data, none, [], []⟩ q.1, some q.2.data)
      else (q.1, none)

/-- Read `n` bytes from address `a` through the tile cache, line by line. The first argument bounds the lines. -/
def tcRead (core : Nat) (h : Hint) : Nat → Nat → Nat → State → State × Option (List Byte)
  | 0, _, _, s => (s, some [])
  | f + 1, a, n, s =>
    if n = 0 then (s, some [])
    else
      let k := min n (64 - a % 64)
      let q := tcReadLine core (a / 64) (a % 64) k h s
      match q.2 with
      | none => (q.1, none)
      | some d =>
        let t := tcRead core h f (a + k) (n - k) q.1
        (t.1, t.2.map fun r => (d.drop (a % 64)).take k ++ r)

/-- Write bytes of one line into the tile cache (R543, R566). False after an error. -/
def tcWriteLine (core line off : Nat) (d : List Byte) (h : Hint) (s : State) : State × Bool :=
  let r := wbReq s core line []
  let p := tcReady core line s
  let s := p.1
  if !p.2 then (s, false)
  else match dsCheck s r with
    | (0, _, _) =>
      match tabGet? s.tcache (tcKey core line) with
      | some l =>
        (tcTouch core line h (tcPut core line { l with dirty := cellsSet off d l.dirty } (tcCount h 1 true s)), true)
      | none =>
        (tcInstall core line h ⟨h, 0, false, cellsSet off d [], [], none, [], []⟩ (tcCount h 1 false s), true)
    | (code, a, i) => (coreError core code (dsRefuse r code a i s), false)
where
  /-- Bytes listed from an offset on. -/
  cellsSet : Nat → List Byte → Tab Byte → Tab Byte
    | _, [], t => t
    | o, b :: bs, t => cellsSet (o + 1) bs (tabSet t o b)

/-- Write bytes from address `a` on through the tile cache. -/
def tcWrite (core : Nat) (h : Hint) : Nat → Nat → List Byte → State → State × Bool
  | 0, _, _, s => (s, true)
  | f + 1, a, d, s =>
    if d.isEmpty then (s, true)
    else
      let k := min d.length (64 - a % 64)
      let q := tcWriteLine core (a / 64) (a % 64) (d.take k) h s
      if q.2 then tcWrite core h f (a + k) (d.drop k) q.1 else q

/-- An add-to-line write of elements from index `i` of a line on (R565, R566). -/
def tcAddLine (core line i : Nat) (fp : Bool) (vs : List Nat) (h : Hint) (s : State) : State :=
  let p := tcCheck core line s
  let s := match tabGet? p.1.tcache (tcKey core line) with
    | some l => if l.red == some fp then p.1 else tcDrop core line (tcClean core line p.1)
    | none => p.1
  let old := match tabGet? s.tcache (tcKey core line) with
    | some l => l.sums
    | none => List.replicate 16 0
  let new := (natsFrom 0 16).map fun k =>
    if i ≤ k && k < i + vs.length then addElem fp (old.getD k 0) (vs.getD (k - i) 0) else old.getD k 0
  if !p.2 then s
  else match tabGet? s.tcache (tcKey core line) with
    | some l => tcTouch core line h (tcPut core line { l with sums := new } (tcCount h 1 true s))
    | none => tcInstall core line h ⟨h, 0, false, [], [], some fp, new, []⟩ (tcCount h 1 false s)

/-- Add 4 B elements from address `a` on into reduction lines. -/
def tcAdd (core : Nat) (fp : Bool) (h : Hint) : Nat → Nat → List Nat → State → State
  | 0, _, _, s => s
  | f + 1, a, vs, s =>
    if vs.isEmpty then s
    else
      let k := min vs.length (16 - a % 64 / 4)
      tcAdd core fp h f (a + 4 * k) (vs.drop k) (tcAddLine core (a / 64) (a % 64 / 4) fp (vs.take k) h s)

/-! ## Fences (R582, R584, R585, R587) -/

/-- Clean normal and evict-first lines go (FENCE.R, and a served wait). -/
def fenceRead (core : Nat) (s : State) : State :=
  tcDropAll core (fun _ l => l.hint != .keep && l.dirty.isEmpty && l.red.isNone) s

/-- Dirty lines are written back and reduction lines flushed (FENCE.W, and a release). -/
def fenceWrite (core : Nat) (s : State) : State := tcCleanAll core (fun _ => true) s

/-- FENCE.SC. -/
def fenceBoth (core : Nat) (s : State) : State := fenceRead core (fenceWrite core s)

/-- The task boundary on one member core (R587). -/
def fenceBoundary (core : Nat) (s : State) : State := tcDropAll core (fun _ _ => true) (fenceWrite core s)

/-! ## Range operations on tile caches (R573 to R577) -/

/-- Copy of a requester's range-operation register. -/
def rgReg (s : State) (b off : Nat) : Nat := (regGet s (bankKey b off)).toNat

/-- Result register after GO is refused, for a reserved encoding (R18) or while BUSY: REFUSED set, the rest kept, DONE too,
for nothing starts. (DESIGN CHOICE, log entry 39: the card also says of DONE that GO clears it) -/
def rgRefuse (b off : Nat) (s : State) : State := regField (bankKey b off) 29 1 1 s

/-- Result register of an operation that starts: BUSY, with its SKIPPED count. -/
def rgStart (b off skipped : Nat) (far : Bool) (op : Nat) (s : State) : State :=
  regSet (bankKey b off) (w32 (2 ^ 30 + skipped % 2 ^ 25))
    { s with rangeOps := tabSet s.rangeOps (2 * b + b2n far) { far := far, op := op } }

/-- The logical cores of TC_OP_MASK. -/
def rgCores (s : State) (b : Nat) : List Nat :=
  let m := rgReg s b 0x118 + 2 ^ 32 * rgReg s b 0x11C
  (natsFrom 0 64).filter fun c => bitAt m c

/-- First line and line count of a tile-cache operation. -/
def rgLine (s : State) (b : Nat) : Nat := rgReg s b 0x110 / 64
def rgLen (s : State) (b : Nat) : Nat := rgReg s b 0x114

/-- Prefetch one line into one core's cache (R576): the state, and whether the line is skipped. -/
def prefetchLine (core line : Nat) (h : Hint) (s : State) : State × Bool :=
  let ring := match bufferAt s (64 * line) with
    | some i => (handleOf s i).ring
    | none => false
  if (csOfCore s core).isNone || ring || (dsCheck s (fillReq s core line)).1 ≠ 0 then (s, true)
  else if (tabGet? s.tcache (tcKey core line)).isSome then (s, false)
  else
    let q := tcFill core line s
    if q.2.resp = 0 then (tcInstall core line h ⟨h, 0, true, [], q.2.data, none, [], []⟩ q.1, false)
    else (q.1, false)

/-- TC PREFETCH. -/
def tcPrefetch (b : Nat) (h : Hint) (s : State) : State :=
  if bitAt (rgReg s b 0x124) 30 then rgRefuse b 0x124 s
  else
    let q := (rgCores s b).foldl (fun p core =>
      (natsFrom (rgLine s b) (rgLen s b)).foldl (fun (p : State × Nat) n =>
        let x := prefetchLine core n h p.1
        (x.1, p.2 + b2n x.2)) p) (s, 0)
    rgStart b 0x124 q.2 false 0 q.1

/-- TC FLUSH (1), INVALIDATE (2) and FLUSH_INVALIDATE (3) on the lines in range. -/
def tcRangeOp (b op : Nat) (s : State) : State :=
  if bitAt (rgReg s b 0x124) 30 then rgRefuse b 0x124 s
  else
    let lo := 64 * rgLine s b
    let hi := lo + 64 * rgLen s b
    let s := (rgCores s b).foldl (fun s' core =>
      let s' := if op = 2 then s' else tcCleanAll core (lineIn lo hi) s'
      if op = 1 then s' else tcDropAll core (fun n _ => lineIn lo hi n) s') s
    rgStart b 0x124 0 false op s

/-- A range operation completes: DONE and the requester's interrupt source (R577). -/
def rangeDone (b : Nat) (far : Bool) (s : State) : State :=
  match tabGet? s.rangeOps (2 * b + b2n far) with
  | none => s
  | some o =>
    let off := bankKey b (if far then 0x230 else 0x124)
    let s := regField off 30 2 2 { s with rangeOps := tabDel s.rangeOps (2 * b + b2n far) }
    if o.quiet then s
    else if b = 0 then regOr 0x2020 (if far then 8 else 4) s
    else if b ≤ 8 then ticPulse (23 + b) s else s

def execTcPrefetch (req : Req) (hint : Fin 3) (s : State) : Host.Outcome State Fault Refusal :=
  done (guarded req 0x120 (tcPrefetch (reqBank req) (hintOf hint)) s)
def execTcFlush (req : Req) (s : State) : Host.Outcome State Fault Refusal :=
  done (guarded req 0x120 (tcRangeOp (reqBank req) 1) s)
def execTcInvalidate (req : Req) (s : State) : Host.Outcome State Fault Refusal :=
  done (guarded req 0x120 (tcRangeOp (reqBank req) 2) s)
def execTcFlushInvalidate (req : Req) (s : State) : Host.Outcome State Fault Refusal :=
  done (guarded req 0x120 (tcRangeOp (reqBank req) 3) s)
def execCacheOpDone (req : Req) (far : Bool) (s : State) : Host.Outcome State Fault Refusal :=
  done (rangeDone (reqBank req) far s)

/-- The end of a 1 ms window (R552): the status bits tell whether a demotion occurred in it. -/
def pinWindow (t : Nat) (s : State) : State :=
  let s := tsTo t s
  let s := regField 0x108 0 1 (b2n s.pinNow.1) (regField 0x20C 0 1 (b2n s.pinNow.2) s)
  { s with pinWin := s.ts / 1000000, pinNow := (false, false) }

def execPinPressureWindow (t : Nat) (s : State) : Host.Outcome State Fault Refusal := done (pinWindow t s)

end Sys2Proof.Machine
end

