-- ==== Sys2Proof/Machine/Notice.lean ====
section
/-! DEFINITION. The notice queue (R704 to R709) and the completion of long commands (R703, R730). -/

namespace Sys2Proof.Machine

open Sys2Proof

/-- Entries in the notice queue. -/
def noticeOcc (s : State) : Nat := ((regGet s 0x2204).toNat + 256 - (regGet s 0x2208).toNat) % 256

/-- A notice entry (R709). -/
def noticeEntry (type source flags word : Nat) (body : List Byte) : List Byte :=
  let b := body.take 24
  [b8 type, b8 source, b8 flags, b8 b.length] ++ leBytes 4 word ++ b ++ List.replicate (24 - b.length) 0

/-- Post a notice: written, then HEAD, then NEW; dropped at a full queue (R706, R707). -/
def notice (type source flags word : Nat) (body : List Byte) (s : State) : State :=
  if 128 ≤ noticeOcc s then regAdd 0x2210 1 (regOr 0x220C 2 s)
  else
    let head := (regGet s 0x2204).toNat
    let s := (supWrite ((regGet s 0x2200).toNat + 32 * (head % 128)) (noticeEntry type source flags word body) s).1
    regOr 0x220C 1 (regSet 0x2204 (w32 ((head + 1) % 256)) s)

/-- A long command whose work is done posts MB_n_NOTE and its COMPLETION notice (R703). -/
def longPost (key : Nat) (s : State) : State :=
  match tabGet? s.sup.longs key with
  | none => s
  | some l =>
    match l.done with
    | none => s
    | some (status, detail, res) =>
      let b := 0x1000 + 0x200 * l.mb
      let s := { s with sup := { s.sup with longs := tabDel s.sup.longs key } }
      let s := regOr (b + 0x104) 0x40 (regSet (b + 0x110) (w32 (l.seq + 65536 * status)) s)
      notice 1 l.mb (2 * b2n l.resumed) (l.seq + 65536 * status)
        (leBytes 2 l.opcode ++ leBytes 2 detail ++ res.take 20) s

/-- Give a running long command, named by its key, its final status. -/
def longDoneAt (key status detail : Nat) (res : List Byte) (s : State) : State :=
  match tabGet? s.sup.longs key with
  | some l => { s with sup := { s.sup with longs := tabSet s.sup.longs key { l with done := some (status, detail, res) } } }
  | none => s

end Sys2Proof.Machine
end

