-- ==== Sys2Proof/Machine/TrTrap.lean ====
section
/-! DEFINITION. The harts of the Trestle cores and how a core takes a trap (11_trestle_cluster.md; the RISC-V Privileged
Architecture 1.12): what every block needs that answers a core's access with an error (R69). -/

namespace Sys2Proof.Machine

open Sys2Proof

/-! ## Harts -/

def hartOf (s : State) (i : Nat) : Hart := tabGet {} s.harts i
def hartPut (i : Nat) (h : Hart) (s : State) : State := { s with harts := tabPut {} s.harts i h }
def hartMod (i : Nat) (f : Hart → Hart) (s : State) : State := hartPut i (f (hartOf s i)) s

/-- Core i changes state. -/
def trTo (i : Nat) (x : TrState) (s : State) : State := hartMod i (fun h => { h with state := x }) s

/-- Does the core execute instructions? -/
def trRuns (s : State) (i : Nat) : Bool := (hartOf s i).state == .running || (hartOf s i).state == .haltRequested

/-- A CSR of a hart. -/
def hcsr (h : Hart) (n : Nat) : Nat := (tabGet 0 h.csr n).toNat
def hset (n v : Nat) (h : Hart) : Hart := { h with csr := tabPut 0 h.csr n (BitVec.ofNat 64 v) }

/-! ## Traps -/

/-- Bits of `old` outside the mask, bits of `v` inside it. -/
def mergeBits (mask old v : Nat) : Nat := (old &&& (2 ^ 64 - 1 - mask)) ||| (v &&& mask)

/-- Take a trap: an interrupt or an exception, at the pc of the instruction.
(PRESUMED, log entry 31; PRESUMED, log entry 32) -/
def trTrap (irq : Bool) (cause tval : Nat) (h : Hart) : Hart :=
  let st := hcsr h 0x300
  let code := cause + (if irq then 2 ^ 63 else 0)
  let deleg := h.priv ≤ 1 && bitAt (hcsr h (if irq then 0x303 else 0x302)) cause
  let target (tv : Nat) : Nat := tv / 4 * 4 + (if irq && tv % 4 == 1 then 4 * cause else 0)
  if deleg then
    let st' := mergeBits 0x122 st (32 * b2n (bitAt st 1) + 256 * h.priv)
    let h' := hset 0x143 tval (hset 0x142 code (hset 0x141 h.pc.toNat (hset 0x300 st' h)))
    { h' with pc := BitVec.ofNat 64 (target (hcsr h 0x105)), priv := 1, wfi := false }
  else
    let st' := mergeBits 0x1888 st (128 * b2n (bitAt st 3) + 2048 * h.priv)
    let h' := hset 0x343 tval (hset 0x342 code (hset 0x341 h.pc.toNat (hset 0x300 st' h)))
    { h' with pc := BitVec.ofNat 64 (target (hcsr h 0x305)), priv := 3, wfi := false }

/-! ## Debug Mode (R641; RISC-V External Debug Support 0.13.2) -/

/-- The hart enters Debug Mode with a cause: dpc and dcsr say where it was and why. (PRESUMED, log entry 67) -/
def trHalt (cause : Nat) (h : Hart) : Hart :=
  let d := hcsr h 0x7B0 &&& (2 ^ 32 - 1 - 0x1C3)
  { hset 0x7B1 h.pc.toNat (hset 0x7B0 (d + atBit cause 6 + h.priv) h) with dbg := true, wfi := false }

/-- The hart leaves Debug Mode: it goes on at dpc in the mode of dcsr. -/
def trResume (h : Hart) : Hart :=
  { h with dbg := false, resumeAck := true, pc := BitVec.ofNat 64 (hcsr h 0x7B1), priv := bitsOf (hcsr h 0x7B0) 0 2 }

/-- Does EBREAK enter Debug Mode in the present mode (ebreakm, ebreaks, ebreaku of dcsr)? -/
def ebreakHalts (h : Hart) : Bool := bitAt (hcsr h 0x7B0) (12 + h.priv)

/-- A single step is set in dcsr; interrupts are held off in it unless stepie is set. -/
def trSteps (h : Hart) : Bool := bitAt (hcsr h 0x7B0) 2
def stepNoIrq (h : Hart) : Bool := trSteps h && !bitAt (hcsr h 0x7B0) 11

/-- An access fault of core c at an address, as the answer to an access given as a row of its own: a load's, cause 5, with
the address of the access as tval. (DEDUCED, log entry 36) -/
def trAccessFault (c a : Nat) (s : State) : State :=
  if trRuns s c then hartPut c (trTrap false 5 a (hartOf s c)) s else s

end Sys2Proof.Machine
end

