-- ==== Sys2Proof/Machine/FarCache.lean ====
section
/-! DEFINITION. Accesses to other nodes (R36, R37, R856 to R859) and the far cache (09_caches_ordering.md); how a
requester learns of an error response (R69). -/

namespace Sys2Proof.Machine

open Sys2Proof

/-! ## The Xanik node, as far as requesters see it -/

def peerOf (s : State) (n : Nat) : XkPeer := tabGet {} s.xk.peers n
def peerMod (n : Nat) (f : XkPeer → XkPeer) (s : State) : State :=
  xkMod (fun x => { x with peers := tabMod {} x.peers n f }) s

/-- MEMBER or MASTER: the node ID is valid (R829). -/
def xkJoined (s : State) : Bool := s.xk.net == .member || s.xk.net == .master

/-- Is node n another present node of the segment this node is on? -/
def xkReaches (s : State) (n : Nat) : Bool := xkJoined s && n != s.xk.node && bitAt s.xk.present n

/-! ## Error responses (R69, R635) -/

/-- What an error response does at its requester (R69): abort, access fault or store-error interrupt, channel stop; the
host and the supervisor only get the response. -/
def requesterError (tag detail code addr : Nat) (write : Bool) (s : State) : State :=
  if tag < 16 then abortCs tag (if code = 4 then 3 else 1) tag s
  else if tag < 0x18 then (if write then ticPulse (tag - 16) s else trAccessFault (tag - 16) addr s)
  else if tag = 0x19 then dmaStop detail code addr s
  else s

/-- Requester bank of an owner tag. -/
def tagBank? (tag : Nat) : Option Nat :=
  if tag = 0x18 then some 0
  else if 0x10 ≤ tag ∧ tag < 0x18 then some (tag - 0x0F)
  else if tag = 0x19 then some 11
  else if tag = 0x1C then some 9
  else none

/-- The response on the port of a tag. -/
def replyTag (tag : Nat) (r : Reply) (s : State) : State :=
  match tagBank? tag with
  | some b => reply b r s
  | none => s

/-! ## Windows (R35) -/

/-- Node and offset of a fabric address in a node window. -/
def farWindow (a : Nat) : Option (Nat × Nat) :=
  if 0x1000000000 ≤ a ∧ a < 0x2000000000 ∧ (a - 0x1000000000) % 2 ^ 32 < 0x40000000 then
    some ((a - 0x1000000000) / 2 ^ 32, (a - 0x1000000000) % 2 ^ 32)
  else none

/-- Fabric address of an offset in a node's window. -/
def farAddr (node off : Nat) : Nat := 0x1000000000 + node * 2 ^ 32 + off

/-! ## Lines (R553 to R560) -/

/-- Ways times sets: FC_CFG's SIZE, as the number of sets; 0 while the cache is off. -/
def fcSets (s : State) : Nat :=
  let n := regBits s 0x200 0 3
  if n = 0 then 0 else 2 ^ (n - 1) * 256

def fcKey (node line : Nat) : Nat := node * 2 ^ 24 + line

/-- The set of a line (R555). -/
def fcSetOf (s : State) (key : Nat) : Nat := (key % 2 ^ 24 % fcSets s) ^^^ (key / 2 ^ 24 * fcSets s / 16)

/-- The lines in the set of a line. -/
def fcSet (s : State) (key : Nat) : List (Nat × FcLine) := s.fcache.filter fun e => decide (fcSetOf s e.1 = fcSetOf s key)

/-- A line that is too old counts as a miss (R560). -/
def fcFresh (s : State) (l : FcLine) : Bool :=
  let age := regBits s 0x200 16 16
  age == 0 || decide ((s.xk.cycle + 2 ^ 32 - l.cycle) % 2 ^ 32 ≤ age)

/-- Reduction lines a collective holds in the far cache, until they are sent (R571). -/
def redLines (l : CollLocal) : Nat := if l.out || l.data.isEmpty then 0 else cdiv l.bytes 256

/-- The sets of a collective's reduction lines, one after another. (DESIGN CHOICE, log entry 86) -/
def redSets (s : State) (key n : Nat) : List Nat := (natsFrom 0 n).map fun i => (Config.redSet key + i) % fcSets s

/-- The reduction lines in a set. -/
def redIn (s : State) (set : Nat) : Nat :=
  s.xk.colls.foldl (fun n l => n + (redSets s l.key (redLines l)).count set) 0

/-- The pinned ways of a set: keep lines and reduction lines (R559, R572). -/
def fcPinned (s : State) (set : Nat) : Nat :=
  (s.fcache.filter fun e => decide (fcSetOf s e.1 = set) && e.2.hint == .keep).length + redIn s set

/-- Where the data of a line lies in the buffer: 4 KiB for each set, 256 B for each way (R554).
(DESIGN CHOICE, log entry 86) -/
def fcAddr (s : State) (key way : Nat) : Nat :=
  (match s.fcBuffer with | some i => (handleOf s i).base | none => 0) + 4096 * fcSetOf s key + 256 * way

/-- Bytes of a line, from the buffer; and the first error response. -/
def fcGet (key : Nat) (l : FcLine) (off n : Nat) (s : State) : State × Nat × List Byte :=
  let a := fcAddr s key l.way + off
  dsReadPieces 0x1C 0 none true (pieces n a n) s

/-- Bytes of a line, to the buffer. -/
def fcSetData (key way off : Nat) (d : List Byte) (s : State) : State × Nat :=
  let a := fcAddr s key way + off
  dsWritePieces 0x1C 0 none true (pieces d.length a d.length) d s

/-- A keep demotion of the far cache (R559). -/
def fcDemote (s : State) : State := regAdd 0x210 1 (regOr 0x204 1 { s with pinNow := (s.pinNow.1, true) })

/-- The class a line gets under a hint, with the keep limit of 12 ways. -/
def fcClass (s : State) (key : Nat) (h : Hint) : Hint :=
  if h == .keep && decide (12 ≤ fcPinned s (fcSetOf s key)) then .normal else h

/-- The least recently used line of a class in a list. -/
def fcOldest (h : Hint) (ls : List (Nat × FcLine)) : Option Nat :=
  (ls.foldl (fun (b : Option (Nat × FcLine)) e =>
    if e.2.hint ≠ h then b
    else match b with
      | some x => if e.2.lru < x.2.lru then some e else b
      | none => some e) none).map (·.1)

/-- Room for `more` lines in a set (R548): lines that are not pinned leave it, the evict-first ones before the normal ones,
the least recently used first. The first argument bounds their number. -/
def fcMakeRoom (set more : Nat) : Nat → State → State
  | 0, s => s
  | f + 1, s =>
    let ls := s.fcache.filter fun e => decide (fcSetOf s e.1 = set)
    if ls.length + redIn s set + more ≤ 16 then s
    else match (fcOldest .evictFirst ls).orElse fun _ => fcOldest .normal ls with
      | some k => fcMakeRoom set more f { s with fcache := tabDel s.fcache k }
      | none => s

/-- The lowest way of a set that holds no data line. -/
def fcFreeWay (s : State) (key : Nat) : Nat :=
  ((natsFrom 0 16).find? fun w => (fcSet s key).all fun e => e.2.way ≠ w).getD 0

/-- Install a line (R548, R549, R559): its data goes to the buffer; a line whose data the store refuses is not installed.
(DEDUCED, log entry 39) -/
def fcInstall (node line : Nat) (h : Hint) (data : List Byte) (s : State) : State :=
  if fcSets s = 0 then s
  else
    let key := fcKey node line
    let s := fcMakeRoom (fcSetOf s key) 1 16 { s with fcache := tabDel s.fcache key }
    let way := fcFreeWay s key
    let q := fcSetData key way 0 data s
    if q.2 ≠ 0 then q.1
    else
      let s := q.1
      let h' := fcClass s key h
      let s := if h' == h then s else fcDemote s
      { s with fcache := tabSet s.fcache key ⟨h', s.useCount, s.xk.cycle, way⟩, useCount := s.useCount + 1 }

/-- A lookup in the far cache, counted (FC_h_LOOK, FC_h_HIT). -/
def fcLookup (node line : Nat) (h : Hint) (s : State) : State × Option FcLine :=
  let o := 0x7180 + 0x10 * hintNo h
  let s := regAdd48 o 1 s
  match tabGet? s.fcache (fcKey node line) with
  | some l =>
    if fcFresh s l then
      let up := h == .keep && l.hint != .keep
      let c := if up then fcClass s (fcKey node line) .keep else l.hint
      let s := if up && c != .keep then fcDemote s else s
      let l' := { l with hint := if up && c != .keep then l.hint else c, lru := s.useCount }
      (regAdd48 (o + 8) 1 { s with fcache := tabSet s.fcache (fcKey node line) l', useCount := s.useCount + 1 },
        some l')
    else (s, none)
  | none => (s, none)

/-! ## Far requests (R856 to R859) -/

/-- A FAR_REQ entry (R856). -/
def farEntry (w : FarWait) (tag : Nat) : List Byte :=
  let size := if w.write then w.size else 256
  let off := if w.write then w.offset else w.offset / 256 * 256
  let pad := if w.write then List.replicate (cdiv w.data.length 8 * 8 - w.data.length) 0 else []
  [b8 (b2n w.write), b8 tag] ++ leBytes 2 size ++ leBytes 4 off ++ List.replicate 8 0 ++ w.data ++ pad

/-- The lowest free TAG of a kind (R857). -/
def freeTag (s : State) (write : Bool) : Option Nat :=
  (natsFrom (if write then 64 else 0) 64).find? fun t => s.xk.far.all fun w => w.id ≠ some t

/-- Is a fill of the line outstanding, and under which TAG (R564)? -/
def fillOut (s : State) (node line : Nat) : Option FarWait :=
  s.xk.far.find? fun w => !w.write && decide (w.node = node) && decide (w.offset / 256 = line)

/-- A waiting request is given a TAG and sent, if one is free; a fill takes its four units of class FAR then, and waits
for the first (R351, R557). (DESIGN CHOICE, log entry 19) -/
def farAssign (w : FarWait) (s : State) : State × FarWait :=
  match freeTag s w.write with
  | some t =>
    if w.write then (xkSend w.node 4 (farEntry w t) s, { w with id := some t })
    else if bwReady s 3 then (xkSend w.node 4 (farEntry w t) (bwCharge 3 4 s), { w with id := some t })
    else (bwStall 3 s, w)
  | none => (s, w)

/-- An access joins those that wait; a read of a line that is on its way joins its fill. -/
def farWaitOn (w : FarWait) (s : State) : State :=
  match (if w.write then none else fillOut s w.node (w.offset / 256)) with
  | some f => xkMod (fun x => { x with far := x.far ++ [{ w with id := f.id }] }) s
  | none =>
    let q := farAssign w s
    xkMod (fun x => { x with far := x.far ++ [q.2] }) q.1

/-- Requests that found no TAG free get one as others complete. -/
def farRetag (s : State) : State :=
  let go (q : State × List FarWait) (w : FarWait) : State × List FarWait :=
    if w.id.isSome then (q.1, q.2 ++ [w])
    else
      let r := farAssign w (xkMod (fun x => { x with far := q.2 ++ x.far.drop q.2.length }) q.1)
      (r.1, q.2 ++ [r.2])
  let q := s.xk.far.foldl go (s, [])
  xkMod (fun x => { x with far := q.2 }) q.1

/-- Key of a line that an engine waits for. -/
def gotKey (tag detail node line : Nat) : Nat := ((tag * 32 + detail) * 16 + node) * 2 ^ 24 + line

/-- One waiting access gets its answer: code and the 256 B line (R69, R561). -/
def farAnswer (code : Nat) (line : List Byte) (w : FarWait) (s : State) : State :=
  let a := farAddr w.node w.offset
  let r : DsReq := ⟨w.tag, w.detail, .addr a, decide (w.size = 64), w.write, w.size, w.data⟩
  let s := if code = 0 then s else dsErrLog r code a s
  let out : Reply := { resp := code, data := if code = 0 && !w.write then (line.drop (w.offset % 256)).take w.size else [] }
  let s := match w.mode with
    | .prefetch => s
    | .reply => if w.write then s else replyTag w.tag out s
    | .engine =>
      if w.write then s
      else
        let got : Reply := { resp := code, data := line }
        xkMod (fun x => { x with got := tabSet x.got (gotKey w.tag w.detail w.node (w.offset / 256)) got }) s
  let s := if w.tag = 0x19 ∧ w.mode ≠ .prefetch then dmaMod w.detail (fun c => { c with outstanding := c.outstanding - 1 }) s else s
  if code = 0 || w.mode == .prefetch || (w.mode == .engine && decide (0x10 ≤ w.tag ∧ w.tag < 0x18) && !w.write) then s
  else requesterError w.tag w.detail code a w.write s

/-- The responses to the accesses that `p` names: a fill is installed, every waiting one is answered, waiting requests
move up. -/
def farComplete (p : FarWait → Bool) (code : Nat) (line : List Byte) (s : State) : State :=
  let ws := s.xk.far.filter p
  let s := xkMod (fun x => { x with far := x.far.filter fun w => !p w }) s
  let s := match ws.find? fun w => !w.write with
    | some w =>
      if code = 0 then (if ws.all (·.fill) then fcInstall w.node (w.offset / 256) w.hint line s else s)
      else regOr 0x204 4 s
    | none => s
  farRetag (ws.foldl (fun s' w => farAnswer code line w s') s)

/-- An access to another node is refused at issue with DECERR (R856). (DEDUCED, log entry 39) -/
def farRefuse (r : DsReq) (a : Nat) (s : State) : State := dsErrLog r 1 a s

/-- A far read: answered at once by a hit or a refusal, or it waits (none). -/
def farRead (tag detail node off size : Nat) (h : Hint) (mode : FarMode) (s : State) : State × Option Reply :=
  let line := off / 256
  let r : DsReq := ⟨tag, detail, .addr (farAddr node off), decide (size = 64), false, size, []⟩
  match tabGet? s.xk.got (gotKey tag detail node line) with
  | some g =>
    if mode == .engine then
      (xkMod (fun x => { x with got := tabDel x.got (gotKey tag detail node line) }) s,
        some { g with data := (g.data.drop (off % 256)).take size })
    else farReadNew r node off h mode s
  | none => farReadNew r node off h mode s
where
  farReadNew (r : DsReq) (node off : Nat) (h : Hint) (mode : FarMode) (s : State) : State × Option Reply :=
    if !xkReaches s node then (farRefuse r (farAddr node off) s, some { resp := 1 })
    else
      let q := fcLookup node (off / 256) h s
      match q.2 with
      | some l =>
        let d := fcGet (fcKey node (off / 256)) l (off % 256) r.size q.1
        (d.1, some { resp := d.2.1, data := d.2.2 })
      | none =>
        let w : FarWait := { tag := r.tag, detail := r.detail, node := node, offset := off, write := false,
                             size := r.size, data := [], hint := h, fill := decide (0 < fcSets s), mode := mode }
        let s := q.1
        let s := if r.tag = 0x19 ∧ mode ≠ .prefetch then
            dmaMod r.detail (fun c => { c with outstanding := c.outstanding + 1 }) s else s
        (farWaitOn w s, none)

/-- A posted far write (R558): the bytes of a line present are updated, by an access of class FAR, and a line whose update
the store refuses goes; the request goes to the link. (DESIGN CHOICE, log entry 19) -/
def farWrite (tag detail node off : Nat) (d : List Byte) (s : State) : State × Reply :=
  let r : DsReq := ⟨tag, detail, .addr (farAddr node off), decide (d.length = 64), true, d.length, d⟩
  if !xkReaches s node then (farRefuse r (farAddr node off) s, { resp := 1 })
  else
    let k := fcKey node (off / 256)
    let s := match tabGet? s.fcache k with
      | some l =>
        let q := fcSetData k l.way (off % 256) d (bwCharge 3 1 s)
        if q.2 = 0 then q.1 else { q.1 with fcache := tabDel q.1.fcache k }
      | none => s
    let w : FarWait := { tag := tag, detail := detail, node := node, offset := off, write := true, size := d.length,
                         data := d, hint := .normal, fill := false }
    let s := if tag = 0x19 then dmaMod detail (fun c => { c with outstanding := c.outstanding + 1 }) s else s
    (farWaitOn w s, {})

/-- A response at its requester: what it receives, and feels (R69). The data of a failed host read is all ones. -/
def respond (r : DsReq) (a : Nat) (p : Reply) (s : State) : State :=
  let p := if p.resp ≠ 0 && decide (r.tag = 0x18) && !r.write then { p with data := List.replicate r.size 0xFF } else p
  let s := if p.resp = 0 then s else requesterError r.tag r.detail p.resp a r.write s
  replyTag r.tag p s

/-- An access to the own node's window, made now (R37): the local store answers, and the log shows the fabric address. -/
def ownAccess (r : DsReq) (n off : Nat) (s : State) : State :=
  let q := dsAccessAt (farAddr n 0) { r with target := .addr off } false s
  respond r (farAddr n off) q.2 q.1

/-- An access to another node's window that is legal and whose answer may be at hand: made now. A line at hand has
taken its unit of class FAR (R557). -/
def peerAccess (r : DsReq) (n off a : Nat) (s : State) : State :=
  if r.write then
    let q := farWrite r.tag r.detail n off r.data s
    respond r a q.2 q.1
  else
    let q := farRead r.tag r.detail n off r.size .normal .reply s
    match q.2 with
    | some p => respond r a p q.1
    | none => q.1

/-- Does the far cache hold a line that is young enough? -/
def fcHas (s : State) (n line : Nat) : Bool := ((tabGet? s.fcache (fcKey n line)).map (fcFresh s)).getD false

/-- A far read at its issue: what it takes of class FAR now (R557): a unit where the line is at hand, nothing yet where a
request has to go out. -/
def farCls (s : State) (r : DsReq) (n off : Nat) : Option Nat :=
  if !r.write && xkReaches s n && fcHas s n (off / 256) then some 3 else none

/-- FAR_ACCESS: an access of a requester to a node window; that of the device's own node is local (R37). -/
def farAccess (r : DsReq) (s : State) : State :=
  match r.target with
  | .handle _ _ => s
  | .addr a =>
    match farWindow a with
    | none => respond r a { resp := 1 } (dsErrLog r 1 a s)
    | some (n, off) =>
      if xkJoined s && decide (n = s.xk.node) then
        bwGate (bwClassOf r.tag r.write) (.far r) (ownAccess r n off) s
      else if !viewOk r a then respond r a { resp := 5 } (dsErrLog r 5 a s)
      else bwGate (farCls s r n off) (.far r) (peerAccess r n off a) s

def execFarAccess (acc : DsReq) (s : State) : Host.Outcome State Fault Refusal := done (schedTick (farAccess acc s))

/-- FAR_REQUEST_TIMEOUT (R859): the request with this TAG has had no response within 8 cycles. -/
def farTimeout (tag : Nat) (s : State) : State :=
  let late (w : FarWait) : Bool := w.id == some tag && (match w.cycle with
    | some c => decide (8 ≤ (s.xk.cycle + 2 ^ 32 - c) % 2 ^ 32)
    | none => false)
  if s.xk.far.any late then farComplete (fun w => w.id == some tag) 7 [] s else s

def execFarRequestTimeout (tag : Nat) (s : State) : Host.Outcome State Fault Refusal :=
  done (schedTick (farTimeout tag s))

/-! ## Range operations of the far cache (R573 to R578) -/

/-- First line of the range, if it lies in a window of another node, and the lines of it. -/
def fcRange (s : State) (b : Nat) : Option (Nat × Nat × Nat) :=
  let a := rgReg s b 0x220 + 2 ^ 32 * (rgReg s b 0x224 % 256)
  match farWindow a with
  | some (n, off) => if xkJoined s && decide (n = s.xk.node) then none
      else some (n, off / 256, min (rgReg s b 0x228) (2 ^ 22 - off / 256))
  | none => none

/-- FC PREFETCH: absent lines are filled. (DEDUCED, log entry 39) -/
def fcPrefetch (b : Nat) (h : Hint) (s : State) : State :=
  if bitAt (rgReg s b 0x230) 30 then rgRefuse b 0x230 s
  else
    let s := match fcRange s b with
      | none => s
      | some (n, l, k) => (natsFrom l k).foldl (fun s' i =>
          if ((tabGet? s'.fcache (fcKey n i)).map (fcFresh s')).getD false || (fillOut s' n i).isSome then s'
          else (farRead (bankTag b) 0 n (256 * i) 256 h .prefetch s').1) s
    rgStart b 0x230 0 true 0 s

/-- The lines of a range leave the far cache; fills of them that are on their way install nothing (R578). -/
def fcDrop (n l k : Nat) (s : State) : State :=
  let inR (node line : Nat) : Bool := decide (node = n) && decide (l ≤ line) && decide (line < l + k)
  let far := s.xk.far.map fun w => if inR w.node (w.offset / 256) then { w with fill := false } else w
  let s := { s with fcache := s.fcache.filter fun e => !inR (e.1 / 2 ^ 24) (e.1 % 2 ^ 24) }
  xkMod (fun x => { x with far := far }) s

end Sys2Proof.Machine
end

