-- ==== Sys2Proof/Machine/Compute.lean ====
section
/-! DEFINITION. What the compute tile-ops calculate (06_pixel_cores.md, 07_special_functions.md): convolution, matrix
product, pooling, epilogue, vector operations, special functions, soft maximum, normalization. Each is a function of
the bytes it reads, given as `rd address length`, and answers the bytes it writes. -/

namespace Sys2Proof.Machine

open Sys2Proof

/-- A near-store operand: its entry, the near-store key of its core's byte 0, and its INT8 channel scales. -/
structure Tensor where
  o : Opd
  base : Nat
  scales : List Nat
  deriving DecidableEq, Repr

/-- Near-store key of an element. -/
def tKey (t : Tensor) (ix : List Nat) : Nat := ((t.base : Int) + opdOffset t.o ix).toNat

/-- The stored pattern of an element. -/
def tRaw (rd : Nat → Nat → Nat) (t : Tensor) (ix : List Nat) : Nat := rd (tKey t ix) (fmtBytes t.o.format)

/-- The INT8 scale of a channel; without a table it is 1. -/
def chanScale (t : Tensor) (c : Nat) : Nat := if t.scales.isEmpty then one32 else t.scales.getD c one32

/-- The channel of an element: dimension 2 of the planar layout (R387). -/
def chanOf (ix : List Nat) : Nat := ix.getD 2 0

/-- An element as an integer: INT8 and INT32. -/
def tInt (rd : Nat → Nat → Nat) (t : Tensor) (ix : List Nat) : Int :=
  if t.o.format = 0 then sgn 8 (tRaw rd t ix) else sgn 32 (tRaw rd t ix)

/-- An element as FP32: INT8 as q × s_c (R370, R441), BF16 widened. -/
def tF32 (rd : Nat → Nat → Nat) (t : Tensor) (ix : List Nat) : Nat :=
  let r := tRaw rd t ix
  if t.o.format = 0 then fMul (fOfInt (sgn 8 r)) (chanScale t (chanOf ix))
  else if t.o.format = 1 then bfWiden r
  else if t.o.format = 2 then fOfInt (sgn 32 r)
  else fCanon r

/-- An FP32 result in an output format (R408, R409): the pattern, and whether it was limited. -/
def outOf (fmt z : Nat) : Nat × Bool :=
  if fmt = 0 then (i8Out z, i8Sat z)
  else if fmt = 1 then (bfOut z, bfSat z)
  else if fmt = 2 then (unsgn 32 (fToInt (-2147483648) 2147483647 z), false)
  else (fCanon z, false)

/-- What a tile-op writes: near-store key and bytes, and the number of limited elements (R410). -/
structure Written where
  data : List (Nat × List Byte)
  sat : Nat
  deriving DecidableEq, Repr

/-- Every element of the destination, from its FP32 result. -/
def writeF32 (d : Tensor) (f : List Nat → Nat) : Written :=
  let l := (opdIndices d.o).map fun ix => (tKey d ix, outOf d.o.format (f ix))
  { data := l.map fun e => (e.1, leBytes (fmtBytes d.o.format) e.2.1), sat := (l.filter fun e => e.2.2).length }

/-- Every element of the destination, from its pattern. -/
def writeRaw (d : Tensor) (f : List Nat → Nat) : Written :=
  { data := (opdIndices d.o).map fun ix => (tKey d ix, leBytes (fmtBytes d.o.format) (f ix)), sat := 0 }

/-! ## Matrix engine (R377 to R396) -/

/-- The parameter block of CONV and MATMUL (R491). -/
def pKH (p : List Byte) : Nat := leAt p 0 1
def pKW (p : List Byte) : Nat := leAt p 1 1
def pSV (p : List Byte) : Nat := leAt p 2 1
def pSH (p : List Byte) : Nat := leAt p 3 1
def pDV (p : List Byte) : Nat := leAt p 4 1
def pDH (p : List Byte) : Nat := leAt p 5 1
def pPadL (p : List Byte) : Nat := leAt p 6 1
def pPadR (p : List Byte) : Nat := leAt p 7 1
def pDepth (p : List Byte) : Bool := leAt p 8 1 == 1
def pAct (p : List Byte) : Nat := leAt p 9 1
def pCOut (p : List Byte) : Nat := leAt p 0xA 1
def pCIn (p : List Byte) : Nat := leAt p 0xC 2
def pOutW (p : List Byte) : Nat := leAt p 0x10 2
def pOutH (p : List Byte) : Nat := leAt p 0x12 2
def pBias (p : List Byte) (c : Nat) : Nat := leAt p (0x20 + 4 * c) 4
def pInScale (p : List Byte) (c : Nat) : Nat := leAt p (0xA0 + 4 * c) 4
def pOutScale (p : List Byte) (c : Nat) : Nat := leAt p (0x120 + 4 * c) 4

/-- One multiply-accumulate: INT8 products wrap in INT32 (R379), BF16 products round once into FP32 (R381). -/
def macc (bf : Bool) (acc x w : Nat) : Nat :=
  if bf then fma32 (bfWiden x) (bfWiden w) acc else unsgn 32 (sgn 32 acc + sgn 8 x * sgn 8 w)

/-- An input element of a CONV; padded columns and absent rows read 0 (R390). (PRESUMED, log entry 21) -/
def convIn (rd : Nat → Nat → Nat) (a : Tensor) (x y : Int) (c : Nat) : Nat :=
  if 0 ≤ x ∧ x < opdCount a.o 0 ∧ 0 ≤ y ∧ y < opdCount a.o 1 then tRaw rd a [x.toNat, y.toNat, c] else 0

/-- A weight of a CONV: dimensions KW, KH, C_in, C_out, by the operand's strides, or packed where it has fewer.
(PRESUMED, log entry 21) -/
def convW (rd : Nat → Nat → Nat) (w : Tensor) (p : List Byte) (kx ky ci co : Nat) : Nat :=
  if w.o.ndim < 4 then
    let i := ((co * (if pDepth p then 1 else pCIn p) + ci) * pKH p + ky) * pKW p + kx
    rd (w.base + w.o.offset + fmtBytes w.o.format * i) (fmtBytes w.o.format)
  else tRaw rd w [kx, ky, ci, co]

/-- The accumulator of one output position and channel of a CONV (R381, R394). (PRESUMED, log entry 21) -/
def convAcc (rd : Nat → Nat → Nat) (a w : Tensor) (p : List Byte) (acc0 ox oy co : Nat) : Nat :=
  let cs := if pDepth p then [co] else natsFrom 0 (pCIn p)
  cs.foldl (fun acc ci =>
    (natsFrom 0 (pKH p)).foldl (fun acc ky =>
      (natsFrom 0 (pKW p)).foldl (fun acc kx =>
        let x := convIn rd a ((ox * pSH p + kx * pDH p : Nat) - (pPadL p : Int)) ((oy * pSV p + ky * pDV p : Nat) : Int) ci
        macc (a.o.format == 1) acc x (convW rd w p kx ky (if pDepth p then 0 else ci) co)) acc) acc) acc0

/-- The accumulator of one column and row of a MATMUL (R392): A is the weights, B the planes. -/
def matAcc (rd : Nat → Nat → Nat) (a b : Tensor) (p : List Byte) (acc0 n m : Nat) : Nat :=
  (natsFrom 0 (pCIn p)).foldl (fun acc k =>
    let x := tRaw rd b (if b.o.ndim < 3 then [n, k] else [n, 0, k])
    macc (a.o.format == 1) acc x (tRaw rd a [k, m])) acc0

/-- The positions of a CONV or MATMUL output, rows outermost. (PRESUMED, log entry 21) -/
def outPositions (p : List Byte) (mat : Bool) : List (Nat × Nat) :=
  if mat then (natsFrom 0 (pOutW p)).map fun x => (x, 0)
  else (natsFrom 0 (pOutH p)).flatMap fun y => (natsFrom 0 (pOutW p)).map fun x => (x, y)

/-- All accumulators, channel by channel, added onto those a chain kept (R384). -/
def accumulate (rd : Nat → Nat → Nat) (mat : Bool) (a w : Tensor) (p : List Byte) (kept : List Nat) : List Nat :=
  let ps := outPositions p mat
  (natsFrom 0 (pCOut p)).flatMap fun c => (ps.zip (natsFrom 0 ps.length)).map fun q =>
    let acc0 := kept.getD (c * ps.length + q.2) 0
    if mat then matAcc rd a w p acc0 q.1.1 c else convAcc rd a w p acc0 q.1.1 q.1.2 c

/-! ## Epilogue (R404 to R410) -/

/-- ACT (R406, R407). -/
def actOf (ut p : List Byte) (w : Nat) : Nat :=
  let k := pAct p
  if k = 0x10 then w
  else if k = 0x11 then fMax w 0
  else if k = 0x12 then fMin (fMax w (leAt p 0x14 4)) (leAt p 0x18 4)
  else sfuEval ut k w

/-- The activation's argument: bias and input scale (R404, step 1). -/
def epiW (bf : Bool) (p : List Byte) (acc c : Nat) : Nat :=
  if bf then fMul (fAdd acc (pBias p c)) (pInScale p c)
  else fMul (fOfInt (satS 32 (sgn 32 acc + sgn 32 (pBias p c)))) (pInScale p c)

/-- One element through the epilogue, before conversion. Without EPI the accumulator is only converted.
(PRESUMED, log entry 21) -/
def epilogue (bf epi : Bool) (ut p : List Byte) (acc c : Nat) : Nat :=
  if epi then fMul (actOf ut p (epiW bf p acc c)) (pOutScale p c)
  else if bf then acc else fOfInt (sgn 32 acc)

/-- The elements a CONV or MATMUL writes, from its accumulators. -/
def matrixOut (bf epi mat : Bool) (ut p : List Byte) (d : Tensor) (acc : List Nat) : Written :=
  let ps := outPositions p mat
  let l := (natsFrom 0 (pCOut p)).flatMap fun c => (ps.zip (natsFrom 0 ps.length)).map fun q =>
    let ix := if mat && d.o.ndim < 3 then [q.1.1, c] else [q.1.1, q.1.2, c]
    (tKey d ix, outOf d.o.format (epilogue bf epi ut p (acc.getD (c * ps.length + q.2) 0) c))
  { data := l.map fun e => (e.1, leBytes (fmtBytes d.o.format) e.2.1), sat := (l.filter fun e => e.2.2).length }

/-- NaN results of a table activation from arguments that are none (R452). -/
def epiDomain (bf epi mat : Bool) (ut p : List Byte) (acc : List Nat) : Nat :=
  let n := (outPositions p mat).length
  if epi && decide (pAct p < 0x10) then
    ((natsFrom 0 (pCOut p)).map fun c => ((natsFrom 0 n).filter fun i =>
      sfuDomain ut (pAct p) (epiW bf p (acc.getD (c * n + i) 0) c)).length).foldl (· + ·) 0
  else 0

/-! ## Pooling (R397 to R402) -/

/-- The input positions of a window that lie inside the input, row-major. -/
def poolWindow (a : Tensor) (p : List Byte) (ox oy : Nat) : List (Nat × Nat) :=
  let win := leAt p 0 1
  (natsFrom 0 win).flatMap fun wy => (natsFrom 0 win).filterMap fun wx =>
    let x : Int := ((ox * leAt p 2 1 + wx : Nat) : Int) - (leAt p 5 1 : Nat)
    let y : Int := ((oy * leAt p 1 1 + wy : Nat) : Int) - (leAt p 3 1 : Nat)
    if 0 ≤ x ∧ x < opdCount a.o 0 ∧ 0 ≤ y ∧ y < opdCount a.o 1 then some (x.toNat, y.toNat) else none

/-- POOL_MAX of one output (R399). A window wholly in the padding has no stated result: `open_`.
(DESIGN CHOICE, log entry 22) -/
def poolMaxAt (rd : Nat → Nat → Nat) (a : Tensor) (p : List Byte) (open_ : Nat) (ix : List Nat) : Nat :=
  let c := chanOf ix
  match (poolWindow a p (ix.getD 0 0) (ix.getD 1 0)).map fun q => [q.1, q.2, c] with
  | [] => open_
  | q :: qs =>
    if a.o.format = 1 then bfRound (qs.foldl (fun m r => fMax m (tF32 rd a r)) (tF32 rd a q))
    else unsgn 8 (qs.foldl (fun m r => if m < tInt rd a r then tInt rd a r else m) (tInt rd a q))

/-- POOL_AVG of one output (R400 to R402). (DESIGN CHOICE, log entry 22) -/
def poolAvgAt (rd : Nat → Nat → Nat) (a : Tensor) (p : List Byte) (open_ : Nat) (ix : List Nat) : Nat :=
  let c := chanOf ix
  match (poolWindow a p (ix.getD 0 0) (ix.getD 1 0)).map fun q => [q.1, q.2, c] with
  | [] => open_
  | q :: qs =>
    let n := qs.length + 1
    if a.o.format = 1 then
      bfRound (fDiv (qs.foldl (fun m r => fAdd m (tF32 rd a r)) (tF32 rd a q)) (fOfInt n))
    else unsgn 8 (divEven (qs.foldl (fun m r => m + tInt rd a r) (tInt rd a q)) n)

/-! ## Vector operations (R414 to R417) -/

/-- A shift within the width; a wider one has no stated result. -/
def shiftOf (op : Nat) (a b : Int) (open_ : Nat) : Nat :=
  let n := unsgn 32 b
  if 32 ≤ n then open_
  else if op = 11 then unsgn 32 a * 2 ^ n % 2 ^ 32
  else if op = 12 then unsgn 32 a / 2 ^ n
  else unsgn 32 (a / ((2 ^ n : Nat) : Int))

/-- One lane of an INT32 operation, as a pattern of 32 bits; `open_` where the spec states no result: the absolute
value of −2^31, a shift by 32 or more, what CMP writes for true, which input SEL takes. -/
def vecInt (op cmp : Nat) (a b : Int) (open_ : Nat) : Nat :=
  match op with
  | 0 => unsgn 32 (a + b)
  | 1 => unsgn 32 (a - b)
  | 2 => unsgn 32 (a * b)
  | 4 => unsgn 32 (if a < b then a else b)
  | 5 => unsgn 32 (if a < b then b else a)
  | 6 => if a = -2147483648 then open_ else unsgn 32 (if a < 0 then -a else a)
  | 7 => unsgn 32 (-a)
  | 8 => unsgn 32 a &&& unsgn 32 b
  | 9 => unsgn 32 a ||| unsgn 32 b
  | 10 => unsgn 32 a ^^^ unsgn 32 b
  | 11 => shiftOf 11 a b open_
  | 12 => shiftOf 12 a b open_
  | 13 => shiftOf 13 a b open_
  | 14 =>
    let c := if cmp = 0 then decide (a = b) else if cmp = 1 then decide (a ≠ b) else if cmp = 2 then decide (a < b)
      else decide (a ≤ b)
    (Config.cmpMask c).toNat
  | 15 => if open_ % 2 = 1 then unsgn 32 a else unsgn 32 b
  | 16 => unsgn 32 a
  | _ => open_

/-- One lane of an FP32 operation, its operands read with subnormals as zeros (R374). The addend of FMA is not named by the
encoding: it is open. -/
def vecFp (op cmp a b open_ : Nat) : Nat :=
  match op with
  | 0 => fAdd a b
  | 1 => fSub a b
  | 2 => fMul a b
  | 3 => fma32 a b open_
  | 4 => fMin a b
  | 5 => fMax a b
  | 6 => fAbs a
  | 7 => fNeg a
  | 8 => fCanon a &&& fCanon b
  | 9 => fCanon a ||| fCanon b
  | 10 => fCanon a ^^^ fCanon b
  | 11 => shiftOf 11 (sgn 32 a) (sgn 32 b) open_
  | 12 => shiftOf 12 (sgn 32 a) (sgn 32 b) open_
  | 14 =>
    let c := if cmp = 0 then fEq a b else if cmp = 1 then !fEq a b else if cmp = 2 then fLt a b
      else fLt a b || fEq a b
    (Config.cmpMask c).toNat
  | 15 => if open_ % 2 = 1 then fCanon a else fCanon b
  | 16 => fCanon a
  | _ => open_

/-- A lane's pattern stored in a format: the lane type is FP32 or INT32. CVT to INT8 divides by the channel's scale, since
an element q represents q times the scale (R370, R415). An integer that INT8 does not hold has no stated pattern when
the operation is not CVT. (DEDUCED, log entry 77) -/
def laneStore (fp cvt : Bool) (fmt lane scale open_ : Nat) : Nat × Bool :=
  if fp then
    if fmt = 0 then (if cvt then (i8Out (fDiv lane scale), i8Sat (fDiv lane scale)) else (i8Out lane, i8Sat lane))
    else if fmt = 1 then (if cvt then (bfOut lane, bfSat lane) else (bfRound lane, false))
    else if fmt = 2 then
      (if fToIntSat (-2147483648) 2147483647 lane || fIsNan lane then open_
       else unsgn 32 (fToInt (-2147483648) 2147483647 lane), false)
    else (fCanon lane, false)
  else
    let v := sgn 32 lane
    if fmt = 0 then
      (if cvt then (i8Out (fDiv (fOfInt v) scale), i8Sat (fDiv (fOfInt v) scale))
       else if -128 ≤ v ∧ v ≤ 127 then (unsgn 8 v, false) else (open_ % 256, false))
    else if fmt = 1 then (bfOfInt v, false)
    else if fmt = 3 then (fOfInt v, false)
    else (lane, false)

/-- A VEC tile-op (R415). `fv i` is the i-th open value. (DESIGN CHOICE, log entry 22) -/
def vecOut (rd : Nat → Nat → Nat) (a : Tensor) (b : Option Tensor) (d : Tensor) (p : List Byte) (fv : Nat → Nat) :
    Written :=
  let op := leAt p 0 1
  let cmp := leAt p 1 1
  let fmt := leAt p 2 1
  let fp := a.o.format == 1 || a.o.format == 3 || (op == 16 && a.o.format == 0)
  let ixs := opdIndices d.o
  let l := (ixs.zip (natsFrom 0 ixs.length)).map fun q =>
    let ix := q.1
    let v := fv q.2 % 2 ^ 32
    let lane :=
      if fp then vecFp op cmp (tF32 rd a ix) (match b with | some b => tF32 rd b ix | none => leAt p 4 4) v
      else vecInt op cmp (tInt rd a ix) (match b with | some b => tInt rd b ix | none => sgn 32 (leAt p 4 4)) v
    (tKey d ix, laneStore fp (op == 16) fmt lane (chanScale d (chanOf ix)) v)
  { data := l.map fun e => (e.1, leBytes (fmtBytes fmt) e.2.1), sat := (l.filter fun e => e.2.2).length }

/-! ## SFU tile-op (R440, R441) -/

/-- The argument of an element. -/
def sfuArg (rd : Nat → Nat → Nat) (a : Tensor) (p : List Byte) (ix : List Nat) : Nat :=
  fma32 (tF32 rd a ix) (leAt p 4 4) (leAt p 8 4)

def sfuOut (rd : Nat → Nat → Nat) (a d : Tensor) (ut p : List Byte) : Written :=
  writeF32 d fun ix => fMul (sfuEval ut (leAt p 0 1) (sfuArg rd a p ix)) (leAt p 0xC 4)

def sfuDomains (rd : Nat → Nat → Nat) (a d : Tensor) (ut p : List Byte) : Nat :=
  ((opdIndices d.o).filter fun ix => sfuDomain ut (leAt p 0 1) (sfuArg rd a p ix)).length

/-! ## REDUCE -/

/-- The source elements that reduce into one destination element: those that agree with it in every dimension the
destination keeps. -/
def reduceGroup (a : Tensor) (d : Opd) (ix : List Nat) : List (List Nat) :=
  (opdIndices a.o).filter fun j => (natsFrom 0 5).all fun k => opdCount d k ≤ 1 || j.getD k 0 == ix.getD k 0

/-- Combine two lanes: SUM, MIN, MAX. -/
def reduceOp (fp : Bool) (op a b : Nat) : Nat :=
  if op = 0 then (if fp then fAdd a b else (a + b) % 2 ^ 32)
  else if fp then (if op = 1 then fMin a b else fMax a b)
  else if op = 1 then (if sgn 32 a < sgn 32 b then a else b)
  else (if sgn 32 a < sgn 32 b then b else a)

/-- The reduction for one destination element: FP32 or INT32 pattern. (PRESUMED, log entry 21) -/
def reduceAt (rd : Nat → Nat → Nat) (a : Tensor) (d : Opd) (op : Nat) (ix : List Nat) : Nat :=
  let fp := a.o.format == 1 || a.o.format == 3
  match (reduceGroup a d ix).map fun j => if fp then tF32 rd a j else unsgn 32 (tInt rd a j) with
  | [] => 0
  | v :: vs => vs.foldl (reduceOp fp op) v

/-! ## Lane sums (R464) -/

/-- Add pairwise until one sum remains. -/
def pairSum : Nat → List Nat → Nat
  | 0, l => l.headD 0
  | f + 1, l => pairSum f (pairs l)
where
  /-- Neighbours added. -/
  pairs : List Nat → List Nat
    | a :: b :: t => fAdd a b :: pairs t
    | l => l

/-- Element i goes to lane i mod 64; the lanes add in index order, then pairwise. -/
def laneSum (vs : List Nat) : Nat :=
  let lanes := (natsFrom 0 64).map fun k =>
    ((vs.zip (natsFrom 0 vs.length)).filter fun e => e.2 % 64 == k).foldl (fun a e => fAdd a e.1) 0
  pairSum 6 lanes

/-! ## Soft maximum (R460 to R466) -/

def smBeta (p : List Byte) : Nat := leAt p 0 4
def smParts (p : List Byte) : Nat := leAt p 4 1
def smPart (p : List Byte) : Nat := leAt p 5 1
def smRows (p : List Byte) : Nat := leAt p 6 2
def smStats (p : List Byte) : Nat := leAt p 0xC 2

/-- The largest element of a row of the part (R462). -/
def smMax (rd : Nat → Nat → Nat) (a : Tensor) (row : Nat) : Nat :=
  match (natsFrom 0 (opdCount a.o 0)).map fun j => tF32 rd a [j, row] with
  | [] => ninf32
  | v :: vs => vs.foldl fMax (fCanon v)

/-- e_i of pass 2 (R463): BF16 pattern. -/
def smExp (p : List Byte) (m x : Nat) : Nat :=
  let d := if fEq x m then 0 else fSub x m
  bfRound (sfuBuiltin 0 (fMul d (smBeta p)))

/-! ## Normalization (R470 to R477) -/

/-- The elements of a channel in index order. -/
def chanElems (a : Opd) (c : Nat) : List (List Nat) := (opdIndices a).filter fun ix => chanOf ix == c

/-- COUNT, SUM, SUMSQ and the zero of a channel (R470, R471). -/
def normRecord (rd : Nat → Nat → Nat) (a : Tensor) (k c : Nat) : List Nat :=
  let ds := (chanElems a.o c).map fun ix => fSub (tF32 rd a ix) k
  [fOfInt ds.length, laneSum ds, laneSum (ds.map fun d => fMul d d), 0]

/-- The mean of x − K and the variance of a channel from its statistics (R475). -/
def normMean (count sum : Nat) : Nat := fMul sum (sfuBuiltin 2 count)
def normVar (count sum sumsq : Nat) : Nat :=
  fma32 (fNeg (normMean count sum)) (normMean count sum) (fMul sumsq (sfuBuiltin 2 count))

/-- The argument of RSQRT: a variance below +0 is replaced by it (R475, R477). -/
def normArg (count sum sumsq eps : Nat) : Nat :=
  let var := normVar count sum sumsq
  fAdd (if fLt var 0 then 0 else var) eps

/-- Does RSQRT make a NaN of an argument that is none (R452)? -/
def normDomain (count sum sumsq eps : Nat) : Bool := sfuDomain [] 3 (normArg count sum sumsq eps)

/-- a and b of a channel from its statistics (R475, R476), and whether the variance was replaced by +0. -/
def normCoef (count sum sumsq k eps gamma beta : Nat) : Nat × Nat × Bool :=
  if fEq count 0 then (0, beta, false)
  else
    let a := fMul (sfuBuiltin 3 (normArg count sum sumsq eps)) gamma
    (a, fSub beta (fMul (fAdd (normMean count sum) k) a), fLt (normVar count sum sumsq) 0)

end Sys2Proof.Machine
end

