-- ==== Sys2Proof/Machine/TileOps.lean ====
section
/-! DEFINITION. Tile-ops on the machine (08_tile_ops.md): near store, operands, dispatch, the conditions of issue, the
effect of each opcode, completion, tasks and their boundaries. -/

namespace Sys2Proof.Machine

open Sys2Proof

/-! ## Near store (R419 to R427) -/

/-- Near-store key of a byte of a physical core. -/
def nearKey (p off : Nat) : Nat := p * 2 ^ 20 + off
def nearByte (s : State) (k : Nat) : Byte := tabGet 0 s.near k
def nearLe (s : State) (k n : Nat) : Nat := ofLe ((natsFrom k n).map (nearByte s))

/-- Fabric address of a near-store key (R35), by the logical core that the physical one serves. -/
def nearFabric (s : State) (k : Nat) : Nat :=
  let c := ((s.coreMap.find? fun e => e.2 = k / 2 ^ 20).map (·.1)).getD 0
  0x2000000000 + c * 0x100000 + k % 2 ^ 20

def nearEccAt (s : State) (w : Nat) : Ecc := tabGet .ok s.nearEcc w
def nearEccSet (w : Nat) (v : Ecc) (s : State) : State := { s with nearEcc := tabPut .ok s.nearEcc w v }
def nearBad (s : State) (w : Nat) : Bool := nearEccAt s w == .uncorrectable || nearEccAt s w == .poisoned

/-- What reading a near-store word does to it: every correctable error is logged, for R281 does not apply (R426). -/
def nearTouch (c : EccCause) (w : Nat) (s : State) : State :=
  match nearEccAt s w with
  | .correctable =>
    let p := w / 2 ^ 20
    let syn := (freeNow s).toNat % 256
    let s := regAdd 0x57C 1 (regOr 0x570 1 (nearEccSet w .ok s))
    freeStep (logPut { source := c.source, cls := 0, code := 0x21, detail := p, addr := nearFabric s w,
                       flags := ceFlags c, syndrome := syn } s)
  | .uncorrectable => nearEccSet w .poisoned s
  | _ => s

/-- A UE response of a near store: NS_UE and the log entry. -/
def nearUe (c : EccCause) (poison : Bool) (k : Nat) (s : State) : State :=
  let syn := if poison then Config.poisonSyndrome.toNat else (freeNow s).toNat % 256
  freeStep (logPut { source := c.source, cls := 1, code := 3, detail := k / 2 ^ 20, addr := nearFabric s k,
                     flags := c.flags + b2n poison, syndrome := syn } (regOr 0x570 2 s))

/-- The marked words of a byte range of near-store keys. -/
def nearMarks (s : State) (k n : Nat) : List Nat :=
  (s.nearEcc.filter fun e => decide (k / 8 * 8 ≤ e.1) && decide (e.1 < k + n)).map (·.1)

/-- ECC of a read of [k, k + n): false when it answers UE. -/
def nearReadEcc (c : EccCause) (k n : Nat) (s : State) : State × Bool :=
  let ws := nearMarks s k n
  if ws.any (nearBad s) then
    let p := ws.any fun w => nearEccAt s w == .poisoned
    (nearUe c p k (ws.foldl (fun s' w => nearTouch c w s') s), false)
  else (ws.foldl (fun s' w => nearTouch c w s') s, true)

/-- Bytes of one word written: whole words take fresh check bits, parts of a bad word are refused (R288 to R292). -/
def nearWriteWord (c : EccCause) (k : Nat) (d : List Byte) (s : State) : State × Bool :=
  let w := k / 8 * 8
  if d.length = 8 then ({ nearEccSet w .ok s with near := cellsWrite k d s.near }, true)
  else if nearBad s w then
    let p := nearEccAt s w == .poisoned
    (nearUe { c with flags := c.flags + 8 } p w (nearTouch c w s), false)
  else
    let s := nearTouch c w s
    ({ s with near := cellsWrite k d s.near }, true)

/-- Write bytes of a near store, word by word. False when a word was refused. -/
def nearWrite (c : EccCause) : Nat → Nat → List Byte → State → State × Bool
  | 0, _, _, s => (s, true)
  | f + 1, k, d, s =>
    if d.isEmpty then (s, true)
    else
      let n := min d.length (8 - k % 8)
      let q := nearWriteWord c k (d.take n) s
      let r := nearWrite c f (k + n) (d.drop n) q.1
      (r.1, q.2 && r.2)

/-- The bytes of some elements, by near-store key; the later of two that name one byte. -/
def nearCells (l : List (Nat × List Byte)) : Tab Byte := l.foldl (fun t e => cellsSet e.1 e.2 t) []
where
  /-- Bytes listed from a key on. -/
  cellsSet : Nat → List Byte → Tab Byte → Tab Byte
    | _, [], t => t
    | k, b :: bs, t => cellsSet (k + 1) bs (tabSet t k b)

/-- One word of what a tile-op writes: fresh check bits where all its bytes are written (R292), else merged with the old
word (R289 to R291). -/
def nearWord (c : EccCause) (cells : Tab Byte) (w : Nat) (s : State) : State × Bool :=
  let d := cells.filter fun e => decide (e.1 / 8 * 8 = w)
  if d.length = 8 then nearWriteWord c w (d.map (·.2)) s
  else d.foldl (fun (p : State × Bool) e =>
    let q := nearWriteWord c e.1 [e.2] p.1
    (q.1, p.2 && q.2)) (s, true)

/-- The elements that a tile-op writes into near stores: where no check bits are marked, in their order; else word by
word, the bytes of a word together (R426). False when a word was refused. -/
def nearStore (c : EccCause) (l : List (Nat × List Byte)) (s : State) : State × Bool :=
  if s.nearEcc.isEmpty then ({ s with near := l.foldl (fun m e => cellsWrite e.1 e.2 m) s.near }, true)
  else
    let cells := nearCells l
    let ws := cells.foldl (fun ws e => if ws.contains (e.1 / 8 * 8) then ws else ws ++ [e.1 / 8 * 8]) []
    ws.foldl (fun (p : State × Bool) w =>
      let q := nearWord c cells w p.1
      (q.1, p.2 && q.2)) (s, true)

/-! ## The context of a tile-op -/

/-- A dispatched tile-op with its group, task and image. -/
structure OpCtx where
  id : Nat
  o : TileOp
  x : Group
  t : Task
  md : Model
  deriving DecidableEq, Repr

def opCtx (s : State) (id : Nat) : Option OpCtx :=
  match tabGet? s.ops id with
  | none => none
  | some o =>
    match taskOf s o.group with
    | none => none
    | some (x, t) => (modelOf s x.model).map fun md => ⟨id, o, x, t, md⟩

/-- Change a tile-op. -/
def opMod (id : Nat) (f : TileOp → TileOp) (s : State) : State :=
  match tabGet? s.ops id with
  | some o => { s with ops := tabSet s.ops id (f o) }
  | none => s

/-- Its core set's tag with the physical core: who its accesses come from. -/
def opCause (c : OpCtx) (write : Bool) : EccCause := ⟨c.x.cs, 0x20 + atBit (b2n write) 2⟩

/-- The operands it names. -/
def ctxOpd (c : OpCtx) (i : Nat) : Option Opd := imgOpd? c.md.image i
def ctxDst (c : OpCtx) : Option Opd := ctxOpd c (opDst c.o.w1)
def ctxA (c : OpCtx) : Option Opd := ctxOpd c (opSrcA c.o.w1)
def ctxB (c : OpCtx) : Option Opd := ctxOpd c (opSrcB c.o.w1)

/-- The logical core of a NEAR operand: its own, or member SLOT. -/
def nearCore (s : State) (cs core : Nat) (o : Opd) : Nat :=
  if o.slot = 0xFFFF then core else (csMembers s cs).getD o.slot core

/-- Where an operand in the Deep Store lies: the base its offsets count from, the range of its buffer (R342), and the
response code when its handle is stale or its ring unbound (R240). -/
structure Place where
  base : Nat
  lo : Nat
  hi : Nat
  code : Nat
  deriving DecidableEq, Repr

/-- The place of an operand of stripe k. A RING operand counts from its slot; its buffer bounds it, and the ring check
decides over the slots of that buffer (R308, R342). -/
def opdPlace (s : State) (t : Task) (md : Model) (k : Nat) (o : Opd) : Place :=
  let of (h : Handle) (base : Nat) : Place := ⟨base, h.base, h.base + 4096 * h.units, 0⟩
  if o.kind = 2 then
    match tabGet? md.rings o.slot with
    | some r =>
      let g := ringOf s r
      of (handleOf s (g.handle % 256)) (slotAddr s g (ringCounter s t r k o))
    | none => ⟨0, 0, 0, 2⟩
  else
    let hv := tabGet 0 md.handles o.slot
    let h := handleOf s (hv % 256)
    if handleOk s hv then of h h.base else ⟨0, 0, 0, 2⟩

/-- Address of an offset from a place. -/
def placeAt (p : Place) (off : Int) : Nat := ((p.base : Int) + off).toNat

/-- Do [off, off + n) lie in the buffer? -/
def placeHas (p : Place) (off : Int) (n : Nat) : Bool :=
  decide ((p.lo : Int) ≤ p.base + off) && decide ((p.base : Int) + off + n ≤ p.hi)

/-- The response code of an access to [off, off + n) before it reaches the banks: 0 when the helper lets it pass (R342,
R418). -/
def placeCode (p : Place) (off : Int) (n : Nat) : Nat := if p.code ≠ 0 then p.code else if placeHas p off n then 0 else 2

/-- The byte region of an operand (R514). -/
def opdRegion (s : State) (cs core : Nat) (t : Task) (md : Model) (k : Nat) (o : Opd) : Region :=
  let sp := opdSpan o
  if o.kind = 3 then ⟨nearCore s cs core o + 1, sp.1.toNat, sp.2.toNat⟩
  else
    let b := (opdPlace s t md k o).base
    ⟨0, ((b : Int) + sp.1).toNat, ((b : Int) + sp.2).toNat⟩

/-- An error response to an access of the tile-op: its task aborts, and the word of its stripe keeps the code (R69, R520,
R537). (DEDUCED, log entry 38) -/
def opError (c : OpCtx) (resp : Nat) (s : State) : State :=
  let s := if c.o.phase = 1 then
      stripeMod c.o.group c.o.stripe (fun r => if r.published || r.error ≠ 0 then r else { r with error := resp }) s
    else s
  abortTask c.o.group (if resp = 4 then 3 else 1) c.x.cs s

/-- A refused access that never reached the pipeline: its log entry and the abort. -/
def opRefused (c : OpCtx) (code a : Nat) (write : Bool) (s : State) : State :=
  opError c code (logPut { source := c.x.cs, cls := 2, code := code, detail := coreDetail s c.o.core, addr := a,
                           flags := 0x20 + atBit (b2n write) 2 } s)

/-! ## Reading and writing operands -/

/-- Bytes [off, off + n) of an operand in the Deep Store, as the scalar helper reads them: bounds, then through the tile
cache (R418, R541). -/
def readDs (c : OpCtx) (o : Opd) (off : Int) (n : Nat) (s : State) : State × Option (List Byte) :=
  let p := opdPlace s c.t c.md c.o.stripe o
  let code := placeCode p off n
  if code ≠ 0 then (opRefused c code (placeAt p off) false s, none)
  else tcRead c.o.core (hintOf (opHint c.o.w0)) (n + 1) (placeAt p off) n s

/-- Near-store key of an operand's core, byte 0; none while nothing serves it. -/
def nearBase (s : State) (c : OpCtx) (o : Opd) : Option Nat :=
  (physCore s (nearCore s c.x.cs c.o.core o)).map fun p => nearKey p 0

/-- Fabric address of a byte of a NEAR operand, for the error log (R35, R67). -/
def nearAddr (s : State) (c : OpCtx) (o : Opd) (off : Int) : Nat :=
  0x2000000000 + 0x100000 * nearCore s c.x.cs c.o.core o + off.toNat

/-- The response code of a NEAR operand's access to bytes [lo, hi), elements of n bytes: ALIGN for an element of another
core's near store that is not naturally aligned, OFFLINE where nothing serves that core, RIGHTS outside the near store
(R418, R423, R424). (DESIGN CHOICE, log entry 82) -/
def nearCode (s : State) (c : OpCtx) (o : Opd) (lo hi : Int) (aligned : Bool) : Nat :=
  let core := nearCore s c.x.cs c.o.core o
  let serves (p : Nat) : Bool := (tabGet {} s.cores p).state == .mapped || (tabGet {} s.cores p).state == .pending
  if core ≠ c.o.core && !aligned then 5
  else if (nearBase s c o).isNone || (core ≠ c.o.core && !(physCore s core).any serves) then 6
  else if decide (lo < 0) || decide (2 ^ 20 < hi) then 2
  else 0

/-- Are all elements of a NEAR operand at multiples of n? -/
def opdAligned (o : Opd) (n : Nat) : Bool := (opdIndices o).all fun ix => decide (opdOffset o ix % n = 0)

/-- `n` bytes from an operand's base, as the scalar helper reads them (R418). -/
def readOpd (c : OpCtx) (o : Opd) (n : Nat) (s : State) : State × Option (List Byte) :=
  if o.kind = 3 then
    let code := nearCode s c o o.offset (o.offset + n) true
    if code ≠ 0 then (opRefused c code (nearAddr s c o o.offset) false s, none)
    else
      let k := (nearBase s c o).getD 0 + o.offset
      let q := nearReadEcc (opCause c false) k n s
      if q.2 then (q.1, some ((natsFrom k n).map (nearByte q.1))) else (opError c 3 q.1, none)
  else readDs c o o.offset n s

/-- The parameter block (R490); empty when the tile-op has none. -/
def readParam (c : OpCtx) (s : State) : State × Option (List Byte) :=
  match ctxOpd c (opParam c.o.w1) with
  | none => (s, some [])
  | some o => readOpd c o o.elem s

/-- A table of FP32 values, one per channel. -/
def readTable (c : OpCtx) (i n : Nat) (s : State) : State × Option (List Nat) :=
  match ctxOpd c i with
  | none => (s, some [])
  | some o =>
    let q := readOpd c o (4 * n) s
    (q.1, q.2.map fun b => (natsFrom 0 n).map fun k => leAt b (4 * k) 4)

/-- A NEAR operand as a tensor: its scales, and the check bits of the bytes it reads. None after an error. -/
def tensorOf (c : OpCtx) (o : Opd) (reads : Bool) (s : State) : State × Option Tensor :=
  let sp := opdSpan o
  let code := nearCode s c o sp.1 sp.2 (opdAligned o (fmtBytes o.format))
  if code ≠ 0 then (opRefused c code (nearAddr s c o sp.1) (!reads) s, none)
  else
    let b := (nearBase s c o).getD 0
    let q := readTable c (if o.format = 0 then o.scale else 0xFFFF) (opdCount o 2) s
    match q.2 with
    | none => (q.1, none)
    | some sc =>
      if reads then
        let e := nearReadEcc (opCause c false) (b + sp.1.toNat) (sp.2 - sp.1).toNat q.1
        if e.2 then (e.1, some ⟨o, b, sc⟩) else (opError c 3 e.1, none)
      else (q.1, some ⟨o, b, sc⟩)

/-- Write a result into the near store, and count its limited elements (R410). -/
def putWritten (c : OpCtx) (w : Written) (s : State) : State :=
  let q := nearStore (opCause c true) w.data s
  let s := if w.sat = 0 then q.1 else regOr 0x570 4 (regAdd 0x578 w.sat q.1)
  if q.2 then s else opError c 3 s

/-- The user table of the image (section 4), empty without one. -/
def userTable (m : List Byte) : List Byte := let x := imgSec m 4; (m.drop x.off).take x.size

/-- DOMAIN events (R452). -/
def domainCount (n : Nat) (s : State) : State := if n = 0 then s else regAdd 0x608 n (regOr 0x600 1 s)

/-! ## LOAD, GATHER, STORE (R336 to R347) -/

/-- Has the halo slot that a consumer operand names been withheld: the one before a FIRST slot, the one after a LAST one
(R329)? -/
def haloWithheld (s : State) (c : OpCtx) (o : Opd) : Bool :=
  match (if o.kind = 2 && !ringProd o then tabGet? c.md.rings o.slot else none) with
  | none => false
  | some r =>
    let g := ringOf s r
    let own := slotAt g ((tabGet 0 c.t.ringBase r + c.o.stripe) % wrapOf g)
    (decide (ringRel o < 0) && own.first) || (decide (0 < ringRel o) && own.last)

/-- The accesses of one element: the bytes of the lines that cover it (R338), or its refusal (R342). Rows of a halo slot
that the consumer does not acquire read as 0, with no access (R390; DEDUCED, log entry 21). -/
def elemPieces (s : State) (c : OpCtx) (o : Opd) (cached : Bool) (off : Int) (n : Nat) : List Piece :=
  let p := opdPlace s c.t c.md c.o.stripe o
  let code := placeCode p off n
  if haloWithheld s c o then [.zeros n]
  else if code ≠ 0 then [.stop code (placeAt p off) false]
  else (cutBy (fun a n => min n (64 - a % 64)) n (placeAt p off) n).map fun e => .read e.1 e.2 cached

/-- The accesses of an affine source in element order. -/
def affinePieces (s : State) (c : OpCtx) (o : Opd) (cached : Bool) : List Piece :=
  (opdIndices o).flatMap fun ix => elemPieces s c o cached (opdOffset o ix) o.elem

/-- The index stream of an INDEXED operand. -/
def indexOpd (c : OpCtx) (o : Opd) : Option Opd := ctxOpd c (o.counts.getD 0 0xFFFF)

/-- The accesses of the elements that index bytes name; a null index gives zeros and makes none (R340, R341). -/
def indexedPieces (s : State) (c : OpCtx) (o : Opd) (b : List Byte) : List Piece :=
  let w := if o.row then 2 else 4
  (natsFrom 0 (b.length / w)).flatMap fun k =>
    let i := leAt b (w * k) w
    if i = 2 ^ (8 * w) - 1 then [.zeros o.elem]
    else elemPieces s c o true ((o.offset : Int) + (i : Int) * (if o.row then o.strides.getD 0 0 else 1)) o.elem

/-- The bytes of a NEAR operand in element order. -/
def nearBytesOf (s : State) (b : Nat) (o : Opd) : List Byte :=
  (opdIndices o).flatMap fun ix => (natsFrom ((b : Int) + opdOffset o ix).toNat o.elem).map (nearByte s)

/-- A hint of keep sends affine accesses through the tile cache too (R343). -/
def opCached (c : OpCtx) : Bool := opHint c.o.w0 == 1

/-- The accesses of a LOAD or GATHER as far as they are known at its issue: an index stream in the Deep Store comes first,
one in the near store is read at once. None after an error. -/
def loadPieces (c : OpCtx) (o : Opd) (s : State) : State × Option (List Piece) :=
  if o.kind ≠ 4 then (s, some (affinePieces s c o (opCached c)))
  else match indexOpd c o with
    | none => (s, some [])
    | some x =>
      if x.kind ≠ 3 then (s, some (affinePieces s c x (opCached c) ++ [.index]))
      else
        let q := tensorOf c { x with format := 1, scale := 0xFFFF } true s
        (q.1, q.2.map fun t => indexedPieces q.1 c o (nearBytesOf q.1 t.base x))

/-- Where the bytes go: the destination's elements in order, as many as there are bytes for. -/
def spread (base : Nat) (o : Opd) : List (List Nat) → List Byte → List (Nat × List Byte)
  | [], _ => []
  | ix :: t, d =>
    if d.isEmpty then []
    else (((base : Int) + opdOffset o ix).toNat, d.take o.elem) :: spread base o t (d.drop o.elem)

/-- What a core holds of a line that it reads or writes past its tile cache goes to the Deep Store first, so that its own
accesses to one address keep their order (R346). -/
def ownLine (core line : Nat) (s : State) : State :=
  match tabGet? s.tcache (tcKey core line) with
  | some l => if l.red.isSome || !l.dirty.isEmpty then tcClean core line s else s
  | none => s

/-- A line written past the tile cache: the core's clean copy takes the new bytes (R346). -/
def ownLineNew (core line : Nat) (d : List Byte) (s : State) : State :=
  match tabGet? s.tcache (tcKey core line) with
  | some l => tcPut core line { l with filled := true, dirty := [], data := d, ecc := [] } s
  | none => s

/-- One read of a stream engine: through the tile cache, or a wide access of class FETCH (R338, R343). -/
def readPiece (c : OpCtx) (a n : Nat) (cached : Bool) (s : State) : State × Option (List Byte) :=
  if cached then tcRead c.o.core (hintOf (opHint c.o.w0)) 2 a n s
  else
    let s := ownLine c.o.core (a / 64) s
    let q := dsAccess ⟨c.x.cs, coreDetail s c.o.core, .addr (a / 64 * 64), true, false, 64, []⟩ false (bwCharge 1 1 s)
    if q.2.resp ≠ 0 then (opError c q.2.resp q.1, none) else (q.1, some ((q.2.data.drop (a % 64)).take n))

/-- One write of a stream engine: into the tile cache with hint keep, or a wide access of class STORE (R343). False after
an error. -/
def writePiece (c : OpCtx) (a : Nat) (d : List Byte) (cached : Bool) (s : State) : State × Bool :=
  if cached then tcWrite c.o.core .keep 2 a d s
  else
    let s := ownLine c.o.core (a / 64) s
    let q := dsAccess ⟨c.x.cs, coreDetail s c.o.core, .addr a, true, true, 64, d⟩ false (bwCharge 2 1 s)
    if q.2.resp ≠ 0 then (opError c q.2.resp q.1, false) else (ownLineNew c.o.core (a / 64) d q.1, true)

/-- The classes FETCH and STORE of which a step from `s` to `t` has taken units that were not there (R351). -/
def bwShort (s t : State) : List Nat :=
  (natsFrom 1 2).filter fun c => !bwReady s c && (regGet t (0x404 + 0x10 * c) != regGet s (0x404 + 0x10 * c) ||
    regGet t (0x408 + 0x10 * c) != regGet s (0x408 + 0x10 * c))

/-- The waits of some classes. -/
def bwStalls (cs : List Nat) (s : State) : State := cs.foldl (fun s' c => bwStall c s') s

/-- Lines that an access touches, and whether it writes. -/
def pieceLine (p : Piece) : Option (Nat × Bool) :=
  match p with
  | .read a _ _ => some (a / 64, false)
  | .write a _ _ => some (a / 64, true)
  | .zeros _ | .index | .stop .. => none

/-- Must an access wait for one to the same line that an earlier tile-op of the stream engine has still to make, one of
the two a write (R346)? -/
def pieceBehind (s : State) (c : OpCtx) (p : Piece) : Bool :=
  match pieceLine p with
  | none => false
  | some (n, w) => s.ops.any fun e => decide (e.1 < c.id) && decide (e.2.core = c.o.core) && e.2.todo.any fun q =>
      match q with
      | .index => w
      | .read .. | .write .. | .zeros _ | .stop .. => (pieceLine q).any fun l => decide (l.1 = n) && (w || l.2)

/-- The accesses of a tile-op in order, until one waits for the regulator or for an earlier tile-op, or the index bytes
are complete, or one is refused: the accesses left and the bytes read. The stores of a squashed tile-op are not made
(R347, R538). (DESIGN CHOICE, log entry 69) -/
def piecesRun (c : OpCtx) : List Piece → List Byte → State → State × List Piece × List Byte
  | [], g, s => (s, [], g)
  | p :: t, g, s =>
    if pieceBehind s c p then (s, p :: t, g)
    else match p with
      | .zeros n => piecesRun c t (g ++ List.replicate n 0) s
      | .index => (s, p :: t, g)
      | .stop code a w => (opRefused c code a w s, [], g)
      | .read a n cached =>
        let q := readPiece c a n cached s
        if !(bwShort s q.1).isEmpty then (bwStalls (bwShort s q.1) s, p :: t, g)
        else match q.2 with
          | none => (q.1, [], g)
          | some d => piecesRun c t (g ++ d) q.1
      | .write a d cached =>
        let q := if c.o.dropped then (s, true) else writePiece c a d cached s
        if !(bwShort s q.1).isEmpty then (bwStalls (bwShort s q.1) s, p :: t, g)
        else if q.2 then piecesRun c t g q.1
        else (q.1, [], g)

/-! ### The weight chain (R354 to R357) -/

/-- Does the tile-op move a weight block along the chain: a LOAD of a SETUP program from a hamper region (R355)?
(DEDUCED, log entry 69) -/
def onChain (s : State) (c : OpCtx) : Bool :=
  opCode c.o.w0 == 0x01 && decide (c.o.phase = 0) &&
    (ctxA c).any fun a => decide (a.kind = 1) && (handleOf s (tabGet 0 c.md.handles a.slot % 256)).cls == .hamper

/-- The block of a chain LOAD among those of its task, by role and place in the program. -/
def chainKey (c : OpCtx) : Nat := 65536 * (c.o.member % imgG c.md.image) + c.o.pc

/-- Is the core the first of its role on the chain, which reads the block? -/
def chainFirst (c : OpCtx) : Bool := decide (c.o.member < imgG c.md.image)

/-- Must the tile-op wait for its block to come along the chain? -/
def chainWaits (s : State) (c : OpCtx) : Bool := onChain s c && !chainFirst c && (tabGet? c.t.blocks (chainKey c)).isNone

/-- Near-store base of a LOAD's destination: on the chain, that of the physical core the chain was built with (R357). -/
def loadBase (s : State) (c : OpCtx) (d : Opd) : Nat :=
  let b := (nearBase s c d).getD 0
  if onChain s c && decide (d.slot = 0xFFFF) then ((c.t.chain[c.o.member]?).map fun p => nearKey p 0).getD b else b

/-- The data of a LOAD or GATHER is there: held until completion (R347), and handed along the chain. -/
def loadArrive (c : OpCtx) (bytes : List Byte) (s : State) : State :=
  let s := if onChain s c && chainFirst c then
      taskMod c.o.group (fun t => { t with blocks := tabSet t.blocks (chainKey c) bytes }) s
    else s
  match ctxDst c with
  | none => s
  | some d =>
    let w := spread (loadBase s c d) d (opdIndices d) bytes
    opMod c.id (fun o => { o with writes := w, todo := [], got := [] }) s

/-- What a tile-op has read and has still to do is kept; when nothing is left, its data is there. -/
def piecesPut (c : OpCtx) (q : State × List Piece × List Byte) : State :=
  if q.2.1.isEmpty && opCode c.o.w0 != 0x02 then loadArrive c q.2.2 q.1
  else opMod c.id (fun o => { o with todo := q.2.1, got := q.2.2 }) q.1

/-- A tile-op goes on with its accesses; the elements of an index stream follow when its bytes are there. -/
def opGo (id : Nat) (s : State) : State :=
  match opCtx s id with
  | none => s
  | some c =>
    let q := piecesRun c c.o.todo c.o.got s
    match q.2.1, ctxA c with
    | .index :: _, some a => piecesPut c (piecesRun c (indexedPieces q.1 c a q.2.2) [] q.1)
    | _, _ => piecesPut c q

/-- The issued tile-ops with accesses left go on, oldest first (R351). -/
def opsGoOn (s : State) : State :=
  (s.ops.filter fun e => !e.2.todo.isEmpty).foldl (fun s' e => opGo e.1 s') s

/-- A LOAD or GATHER issues: its accesses begin. A member of a chain other than the first takes the block that came along
it. (DEDUCED, log entry 69) -/
def loadEffect (c : OpCtx) (s : State) : State :=
  match ctxDst c, ctxA c with
  | some d, some a =>
    let sp := opdSpan d
    let code := nearCode s c d sp.1 sp.2 true
    if code ≠ 0 then opRefused c code (nearAddr s c d sp.1) true s
    else if onChain s c && !chainFirst c then loadArrive c (tabGet [] c.t.blocks (chainKey c)) s
    else
      let q := loadPieces c a s
      match q.2 with
      | none => q.1
      | some ps => opGo c.id (opMod c.id (fun o => { o with todo := ps, got := [] }) q.1)
  | _, _ => s

/-- The accesses of one element of a STORE, wide, or its refusal. -/
def storePieces (s : State) (c : OpCtx) (o : Opd) (off : Int) (d : List Byte) : List Piece :=
  let p := opdPlace s c.t c.md c.o.stripe o
  let code := placeCode p off d.length
  if code ≠ 0 then [.stop code (placeAt p off) true]
  else (natsFrom 0 (d.length / 64)).map fun k => .write (placeAt p off + 64 * k) ((d.drop (64 * k)).take 64) (opCached c)

/-- A STORE reads its source and its accesses begin; one whose descriptor breaks the 64 B rule aborts with cause 4 before
any byte (R339). -/
def storeEffect (c : OpCtx) (s : State) : State :=
  match ctxDst c, ctxA c with
  | some d, some a =>
    let bad := decide (d.elem % 64 ≠ 0) || (opdIndices d).any fun ix => decide (opdOffset d ix % 64 ≠ 0)
    if bad then
      let a := placeAt (opdPlace s c.t c.md c.o.stripe d) d.offset
      abortTask c.o.group 4 c.x.cs
        (logPut { source := c.x.cs, cls := 2, code := 5, detail := coreDetail s c.o.core, addr := a, flags := 0x24 } s)
    else
      let q := tensorOf c { a with format := 1 } true s
      match q.2 with
      | none => q.1
      | some ta =>
        let bytes := nearBytesOf q.1 ta.base a
        let ps := ((opdIndices d).zip (natsFrom 0 (opdIndices d).length)).flatMap fun e =>
          storePieces q.1 c d (opdOffset d e.1) ((bytes.drop (e.2 * d.elem)).take d.elem)
        opGo c.id (opMod c.id (fun o => { o with todo := ps }) q.1)
  | _, _ => s

/-! ## Compute tile-ops -/

/-- Read the parameter block, then the NEAR operands asked for; go on with them, or stop after an error. -/
def withOperands (c : OpCtx) (b : Option Opd) (k : List Byte → Tensor → Option Tensor → Tensor → State → State)
    (s : State) : State :=
  match ctxDst c, ctxA c with
  | some d, some a =>
    let q := readParam c s
    match q.2 with
    | none => q.1
    | some p =>
      let qa := tensorOf c a true q.1
      match qa.2 with
      | none => qa.1
      | some ta =>
        let qb : State × Option (Option Tensor) := match b with
          | none => (qa.1, some none)
          | some bo => let r := tensorOf c bo true qa.1; (r.1, r.2.map some)
        match qb.2 with
        | none => qb.1
        | some tb =>
          let qd := tensorOf c d false qb.1
          match qd.2 with
          | none => qd.1
          | some td => k p ta tb td qd.1
  | _, _ => s

/-- CONV and MATMUL (R383 to R396): accumulate onto what a chain kept; keep for the next of the chain, or write.
(DEDUCED, log entry 69) -/
def matrixEffect (mat : Bool) (c : OpCtx) (s : State) : State :=
  withOperands c (ctxB c) (fun p a b d s =>
    match b with
    | none => s
    | some w =>
      let key := tKey d [] + 1
      let kept := match tabGet? s.accs c.o.core with
        | some k => if k.key = key then k.acc else []
        | none => []
      let acc := accumulate (nearLe s) mat a w p kept
      let bf := a.o.format == 1
      if opChain c.o.w0 then { s with accs := tabSet s.accs c.o.core ⟨key, bf, acc⟩ }
      else
        let ut := userTable c.md.image
        let s := { s with accs := tabDel s.accs c.o.core }
        putWritten c (matrixOut bf (opEpi c.o.w0) mat ut p d acc)
          (domainCount (epiDomain bf (opEpi c.o.w0) mat ut p acc) s)) s

/-- POOL_MAX and POOL_AVG. -/
def poolEffect (avg : Bool) (c : OpCtx) (s : State) : State :=
  withOperands c none (fun p a _ d s =>
    let v := (freeNow s).toNat
    let w := writeRaw d fun ix => if avg then poolAvgAt (nearLe s) a p v ix else poolMaxAt (nearLe s) a p v ix
    putWritten c w (freeStep s)) s

/-- VEC. Each element has an open value of its own. -/
def vecEffect (c : OpCtx) (s : State) : State :=
  withOperands c (ctxB c) (fun p a b d s =>
    let fv (i : Nat) : Nat := (Config.freeValue (s.free + i)).toNat
    let w := vecOut (nearLe s) a b d p fv
    putWritten c w { s with free := s.free + w.data.length }) s

/-- SFU. -/
def sfuEffect (c : OpCtx) (s : State) : State :=
  withOperands c none (fun p a _ d s =>
    let ut := userTable c.md.image
    putWritten c (sfuOut (nearLe s) a d ut p) (domainCount (sfuDomains (nearLe s) a d ut p) s)) s

/-- REDUCE: written, or added to a line (R565). -/
def reduceEffect (c : OpCtx) (s : State) : State :=
  match ctxDst c, ctxA c with
  | some d, some a =>
    let q := readParam c s
    match q.2 with
    | none => q.1
    | some p =>
      let qa := tensorOf c a true q.1
      match qa.2 with
      | none => qa.1
      | some ta =>
        let s := qa.1
        let op := leAt p 0 1
        let fp := a.format == 1 || a.format == 3
        let mode := leAt p 1 1
        let val (ix : List Nat) : Nat := reduceAt (nearLe s) ta d op ix
        let fv := (freeNow s).toNat
        let stored (ix : List Nat) : List Byte :=
          leBytes (fmtBytes d.format) (laneStore fp false d.format (val ix) one32 fv).1
        if d.kind = 3 then
          let sp := opdSpan d
          let code := nearCode s c d sp.1 sp.2 (opdAligned d (fmtBytes d.format))
          if code ≠ 0 then opRefused c code (nearAddr s c d sp.1) true s
          else
            let b := (nearBase s c d).getD 0
            putWritten c ⟨(opdIndices d).map fun ix => (((b : Int) + opdOffset d ix).toNat, stored ix), 0⟩ (freeStep s)
        else
          (opdIndices d).foldl (fun s' ix =>
            let b := opdPlace s' c.t c.md c.o.stripe d
            let off := opdOffset d ix
            let h := hintOf (opHint c.o.w0)
            let code := placeCode b off 4
            if code ≠ 0 then opRefused c code (placeAt b off) true s'
            else if mode = 0 then (tcWrite c.o.core h 9 (placeAt b off) (stored ix) s').1
            else
              let v := if mode = 2 then (if fp then val ix else fOfInt (sgn 32 (val ix)))
                else if fp then unsgn 32 (fToInt (-2147483648) 2147483647 (val ix)) else val ix
              tcAdd c.o.core (mode == 2) h 2 (placeAt b off) [v] s') (freeStep s)
  | _, _ => s

/-! ## Statistics in the Deep Store -/

/-- Address of byte `off` of a statistics operand, with its bounds: none after a refusal. -/
def statAddr (s : State) (c : OpCtx) (o : Opd) (off n : Nat) : Option Nat :=
  let p := opdPlace s c.t c.md c.o.stripe o
  if placeCode p ((o.offset + off : Nat) : Int) n ≠ 0 then none else some (placeAt p ((o.offset + off : Nat) : Int))

/-- Write into a statistics operand through the tile cache, as the scalar helper does. -/
def statWrite (c : OpCtx) (o : Opd) (off : Nat) (d : List Byte) (s : State) : State :=
  match statAddr s c o off d.length with
  | none => opRefused c 2 0 true s
  | some a => (tcWrite c.o.core (hintOf (opHint c.o.w0)) (d.length + 1) a d s).1

/-- Read one 4 B word of a statistics operand. -/
def statRead (c : OpCtx) (o : Opd) (off : Nat) (s : State) : State × Option Nat :=
  match statAddr s c o off 4 with
  | none => (opRefused c 2 0 false s, none)
  | some a =>
    let q := tcRead c.o.core (hintOf (opHint c.o.w0)) 5 a 4 s
    (q.1, q.2.map ofLe)

/-- Read one word of each of n records 16 B apart. -/
def statReads (c : OpCtx) (o : Opd) (off : Nat) : List Nat → State → State × Option (List Nat)
  | [], s => (s, some [])
  | k :: t, s =>
    let q := statRead c o (off + 16 * k) s
    match q.2 with
    | none => (q.1, none)
    | some v =>
      let r := statReads c o off t q.1
      (r.1, r.2.map fun l => v :: l)

/-- Parameter block and NEAR source of a soft maximum or NORM_STATS. -/
def withSource (c : OpCtx) (k : List Byte → Tensor → State → State) (s : State) : State :=
  match ctxA c with
  | none => s
  | some a =>
    let q := readParam c s
    match q.2 with
    | none => q.1
    | some p =>
      let qa := tensorOf c a true q.1
      match qa.2 with
      | none => qa.1
      | some ta => k p ta qa.1

/-- Where a row-statistics record is, whatever moves its buffer: handle entry × 2^32 + offset in the buffer. -/
def smKey (s : State) (c : OpCtx) (st : Opd) (off : Nat) : Option Nat :=
  (statAddr s c st off 16).map fun a =>
    let h := if st.kind = 2 then (ringOf s ((tabGet? c.md.rings st.slot).getD 0)).handle
      else tabGet 0 c.md.handles st.slot
    h % 256 * 2 ^ 32 + (a - (handleOf s (h % 256)).base)

/-- The stripe, or program, whose rows a pass works on. -/
def smTag (c : OpCtx) : Nat := 65536 * c.o.phase + c.o.stripe

/-- A pass has written a record for its stripe: 1 its MAX for a new row, 3 its SUM too (R468; DEDUCED, log entry 73). -/
def smMark (c : OpCtx) (st : Opd) (off v : Nat) (s : State) : State :=
  match smKey s c st off with
  | none => s
  | some k => taskMod c.o.group (fun t => { t with stats := tabSet t.stats k (4 * smTag c + v) }) s

/-- Have all n records from `off` on been written for the current row, `v` 1 for MAX and 3 for SUM (R468)? -/
def smFresh (s : State) (c : OpCtx) (st : Opd) (off n v : Nat) : Bool :=
  (natsFrom 0 n).all fun k =>
    match smKey s c st (off + 16 * k), taskOf s c.o.group with
    | some a, some (_, t) => decide (tabGet 0 t.stats a / 4 = smTag c) && decide (v ≤ tabGet 0 t.stats a % 4)
    | _, _ => false

/-- The i-th of n free values a row's undefined output is made of (R468). -/
def smOpen (s : State) (i : Nat) : Nat := (Config.freeValue (s.free + i)).toNat

/-- SMAX_PASS1 (R462): MAX and COUNT of each row of the part. -/
def smax1Effect (c : OpCtx) (s : State) : State :=
  withSource c (fun p a s =>
    match ctxOpd c (smStats p) with
    | none => s
    | some st =>
      (natsFrom 0 (smRows p)).foldl (fun s' row =>
        let off := (row * smParts p + smPart p) * 16
        let s' := statWrite c st off (leBytes 4 (smMax (nearLe s) a row)) s'
        smMark c st off 1 (statWrite c st (off + 8) (leBytes 4 (opdCount a.o 0) ++ leBytes 4 0) s')) s) s

/-- What pass 2 writes for a row (R463, R464): the part's exponentials and its SUM. -/
def smRow2 (c : OpCtx) (p : List Byte) (st : Opd) (d : Tensor) (row m sum : Nat) (es : List Nat) (s : State) : State :=
  let off := (row * smParts p + smPart p) * 16
  let s := if fIsNan m then regOr 0x600 2 s else s
  let w : Written := ⟨((natsFrom 0 es.length).zip es).map fun e => (tKey d [e.1, row], leBytes 2 e.2), 0⟩
  smMark c st off 3 (statWrite c st (off + 4) (leBytes 4 sum) (putWritten c w s))

/-- SMAX_PASS2 (R463, R464): exponentials and SUM of each row, all free values where a record it reads has not been
written for the row (R468). -/
def smax2Effect (c : OpCtx) (s : State) : State :=
  withOperands c none (fun p a _ d s =>
    match ctxOpd c (smStats p) with
    | none => s
    | some st =>
      (natsFrom 0 (smRows p)).foldl (fun s' row =>
        let q := statReads c st (row * smParts p * 16) (natsFrom 0 (smParts p)) s'
        let n := opdCount a.o 0
        match q.2 with
        | none => q.1
        | some ms =>
          if smFresh q.1 c st (row * smParts p * 16) (smParts p) 1 then
            let m := ms.foldl fMax ninf32
            let es := (natsFrom 0 n).map fun j => smExp p m (tF32 (nearLe s) a [j, row])
            smRow2 c p st d row m (laneSum (es.map bfWiden)) es q.1
          else
            smRow2 c p st d row (smOpen q.1 n % 2 ^ 32) (smOpen q.1 (n + 1) % 2 ^ 32)
              ((natsFrom 0 n).map fun j => smOpen q.1 j % 2 ^ 16) { q.1 with free := q.1.free + n + 2 }) s) s

/-- SMAX_PASS3 (R465), with free values where a record it reads has not been written for the row (R468). -/
def smax3Effect (c : OpCtx) (s : State) : State :=
  withOperands c none (fun p a _ d s =>
    match ctxOpd c (smStats p) with
    | none => s
    | some st =>
      (natsFrom 0 (smRows p)).foldl (fun s' row =>
        let q := statReads c st (row * smParts p * 16 + 4) (natsFrom 0 (smParts p)) s'
        let n := opdCount a.o 0
        match q.2 with
        | some (v :: vs) =>
          if smFresh q.1 c st (row * smParts p * 16) (smParts p) 3 then
            let r := sfuBuiltin 2 (vs.foldl fAdd v)
            let l := (natsFrom 0 n).map fun j =>
              (tKey d [j, row], outOf d.o.format (fMul (tF32 (nearLe s) a [j, row]) r))
            putWritten c ⟨l.map fun e => (e.1, leBytes (fmtBytes d.o.format) e.2.1), (l.filter fun e => e.2.2).length⟩ q.1
          else
            putWritten c ⟨(natsFrom 0 n).map fun j => (tKey d [j, row], leBytes (fmtBytes d.o.format) (smOpen q.1 j)),
              smOpen q.1 n % (n + 1)⟩ { q.1 with free := q.1.free + n + 1 }
        | _ => q.1) s) s

/-- NORM_STATS (R470, R471). -/
def normStatsEffect (c : OpCtx) (s : State) : State :=
  withSource c (fun p a s =>
    let n := leAt p 0 2
    match ctxOpd c (leAt p 2 2) with
    | none => s
    | some st =>
      let q := readTable c (leAt p 4 2) n s
      match q.2 with
      | none => q.1
      | some ks =>
        (natsFrom 0 n).foldl (fun s' ch =>
          match statAddr s' c st (16 * ch) 16 with
          | none => opRefused c 2 0 true s'
          | some ad =>
            tcAdd c.o.core true (hintOf (opHint c.o.w0)) 3 ad (normRecord (nearLe s) a (ks.getD ch 0) ch) s') q.1) s

/-- The coefficients of one channel of NORM_APPLY, with its events (R476, R477). -/
def normChannel (c : OpCtx) (st : Opd) (eps : Nat) (gs bs ks : List Nat) (ch : Nat) (s : State) :
    State × Option (Nat × Nat) :=
  let r0 := statRead c st (16 * ch) s
  let r1 := statRead c st (16 * ch + 4) r0.1
  let r2 := statRead c st (16 * ch + 8) r1.1
  match r0.2, r1.2, r2.2 with
  | some n, some sm, some sq =>
    let k := normCoef n sm sq (ks.getD ch 0) eps (gs.getD ch 0) (bs.getD ch 0)
    let s := if fEq n 0 then regOr 0x600 4 r2.1 else domainCount (b2n (normDomain n sm sq eps)) r2.1
    (if k.2.2 then regAdd 0x60C 1 s else s, some (k.1, k.2.1))
  | _, _, _ => (r2.1, none)

/-- The coefficients of channels in turn. -/
def normChannels (c : OpCtx) (st : Opd) (eps : Nat) (gs bs ks : List Nat) :
    List Nat → State → State × Option (List (Nat × Nat))
  | [], s => (s, some [])
  | ch :: t, s =>
    let q := normChannel c st eps gs bs ks ch s
    match q.2 with
    | none => (q.1, none)
    | some v =>
      let r := normChannels c st eps gs bs ks t q.1
      (r.1, r.2.map fun l => v :: l)

/-- NORM_APPLY (R475). -/
def normApplyEffect (c : OpCtx) (s : State) : State :=
  withOperands c none (fun p a _ d s =>
    let n := leAt p 0 2
    match ctxOpd c (leAt p 2 2) with
    | none => s
    | some st =>
      let g := readTable c (leAt p 8 2) n s
      let b := readTable c (leAt p 0xA 2) n g.1
      let k := readTable c (leAt p 0xC 2) n b.1
      match g.2, b.2, k.2 with
      | some gs, some bs, some ks =>
        let q := normChannels c st (leAt p 4 4) gs bs ks (natsFrom 0 n) k.1
        match q.2 with
        | none => q.1
        | some co =>
          putWritten c (writeF32 d fun ix =>
            let v := co.getD (chanOf ix) (0, 0)
            fma32 (tF32 (nearLe s) a ix) v.1 v.2) q.1
      | _, _, _ => k.1) s

/-! ## Control tile-ops -/

/-- Participants of a barrier (R524), and the key of its context's generation. -/
def barrierMembers (s : State) (c : OpCtx) : List Nat :=
  let g := imgG c.md.image
  if opScope c.o.w0 then natsFrom (c.o.member / g * g) g else natsFrom 0 (csMembers s c.x.cs).length
def barrierKey (c : OpCtx) : Nat :=
  opBctx c.o.w0 + (if opScope c.o.w0 then 64 * (c.o.member / imgG c.md.image + 1) else 0)

/-- A BARRIER arrives (R525): its writes are released; the last arrival completes it on every participant. -/
def barrierEffect (c : OpCtx) (s : State) : State :=
  let s := fenceWrite c.o.core s
  match taskOf s c.o.group with
  | none => s
  | some (_, t) =>
    let l := tabGet [] t.arrivals (barrierKey c) ++ [c.id]
    if l.length = (barrierMembers s c).length then
      let s := taskMod c.o.group (fun t => { t with arrivals := tabDel t.arrivals (barrierKey c) }) s
      l.foldl (fun s' id =>
        match tabGet? s'.ops id with
        | some o => fenceRead o.core (opMod id (fun o => { o with ready := true }) s')
        | none => s') s
    else taskMod c.o.group (fun t => { t with arrivals := tabSet t.arrivals (barrierKey c) l }) s

/-- Has a tile-op been squashed, or its task aborted? -/
def opGone (s : State) (id : Nat) : Bool := ((tabGet? s.ops id).map (·.dropped)).getD true

/-- Signal an image semaphore from a core (R510, R584): its dirty bytes and reductions are written back first; where that
aborts the task nothing is signalled (R538). -/
def opSignal (c : OpCtx) (i n : Nat) (s : State) : State :=
  let s := fenceWrite c.o.core s
  if opGone s c.id then s else semSignal (imgSem c.md i) n (some c.x.cs) c.x.cs (coreDetail s c.o.core) s

/-! ## Issue (R508 to R515) -/

/-- Do two regions overlap? -/
def overlaps (a b : Region) : Bool := decide (a.space = b.space) && decide (a.lo < b.hi) && decide (b.lo < a.hi)

/-- The conditions of a tile-op's own core and task: order of the unit, ordering points, hazards, HOLD, the limit of 512;
no pending reader of what a LOAD or GATHER overwrites (R344), no depthwise CONV that runs beside a VEC, POOL or REDUCE
(R396), its block come along the weight chain. -/
def mayIssueOwn (s : State) (c : OpCtx) : Bool :=
  let o := c.o
  let code := opCode o.w0
  let before := s.ops.filter fun e => decide (e.1 < c.id) && decide (e.2.group = o.group)
  let mine := before.filter fun e => decide (e.2.core = o.core)
  !o.issued && !o.dropped && o.failed.isNone && c.x.phase == .running &&
  decide ((s.ops.filter fun e => e.2.issued).length < 512) &&
  (mine.all fun e => e.2.issued || e.2.unit != o.unit) &&
  (!opOrders code || mine.all fun e => e.2.issued) &&
  (mine.all fun e => !opOrders (opCode e.2.w0)) &&
  (code != 0x42 || mine.isEmpty) &&
  (!opHold o.w0 || decide (o.hold ≤ c.t.releases)) &&
  (before.all fun e =>
    match e.2.dst with
    | none => true
    | some d => !(o.srcs.any (overlaps d)) && (match o.dst with | some d' => !overlaps d d' | none => true)) &&
  (!(code == 0x01 || code == 0x03) || mine.all fun e =>
    match o.dst with | some d => !(e.2.srcs.any (overlaps d)) | none => true) &&
  (!(code == 0x20 || code == 0x12 || code == 0x13 || code == 0x22) || s.ops.all fun e =>
    !(decide (e.2.core = o.core) && e.2.issued && e.2.unit == .vector && opCode e.2.w0 == 0x10)) &&
  !chainWaits s c

/-- Are the units of WAIT_SEM there, taken or to be taken at once? -/
def semThere (s : State) (c : OpCtx) : Bool :=
  decide (opWaitSem c.o.w0 = 0xFFF) || c.o.waitServed ||
    (!c.o.waitQueued && semCan s (imgSem c.md (opWaitSem c.o.w0)) (opWaitN c.o.w0))

/-- Is a queued tile-op a compute tile-op that is ready? -/
def computeReady (s : State) (id : Nat) : Bool :=
  match opCtx s id with
  | some c => (c.o.unit == .matrix || c.o.unit == .vector || c.o.unit == .sfu) && mayIssueOwn s c && semThere s c
  | none => false

/-- Did the task of group g start before that of c, or with it under a lower number? -/
def taskBefore (s : State) (g : Nat) (c : OpCtx) : Bool :=
  match taskOf s g with
  | some (_, t) => decide (t.tsStart < c.t.tsStart) || (decide (t.tsStart = c.t.tsStart) && decide (g < c.o.group))
  | none => false

/-- May a tile-op issue beside the tasks of other groups on its core (R358)? The task that started first goes first: a
later one fills the bubbles in which the core's queue holds no ready compute tile-op of an earlier one.
(DESIGN CHOICE, log entry 69) -/
def inBubble (s : State) (c : OpCtx) : Bool :=
  s.ops.all fun e => !(decide (e.2.core = c.o.core) && decide (e.2.group ≠ c.o.group) && taskBefore s e.2.group c &&
    computeReady s e.1)

/-- The conditions of issue that only look (R344, R358, R508 to R515). -/
def mayIssue (s : State) (c : OpCtx) : Bool := mayIssueOwn s c && inBubble s c

/-- Ask for the units of WAIT_SEM: taken at once, or queued (R250, R509). -/
def askSem (c : OpCtx) (s : State) : State :=
  let i := opWaitSem c.o.w0
  if i = 0xFFF then opMod c.id (fun o => { o with waitServed := true }) s
  else if c.o.waitQueued then s
  else
    let p := imgSem c.md i
    let n := opWaitN c.o.w0
    let s := opMod c.id (fun o => { o with waitQueued := true }) s
    if semCan s p n then opMod c.id (fun o => { o with waitServed := true }) (semTake p c.x.cs n s)
    else semPut p { semOf s p with queue := (semOf s p).queue ++ [⟨.op c.id, c.x.cs, n⟩] } s

/-- The epoch an acquire of the tile-op carries, while its epoch is not confirmed. -/
def opEpochId (c : OpCtx) : Option Nat :=
  if opSpec c.o.w0 && epochState c.t (opEpoch c.o.w0) != .confirmed then some (epochId c.x.cs (opEpoch c.o.w0)) else none

/-- Ask for one acquire of a ring (R307, R313, R323). Only the ring's PRODUCER acquires for writing: another core set's
task aborts as for SPEC 0 (R312; DESIGN CHOICE, log entry 76). -/
def askRing (c : OpCtx) (r cn : Nat) (prod : Bool) (s : State) : State :=
  let g := ringOf s r
  let ep := opEpochId c
  if (ep.isSome && !g.spec) || (prod && decide (g.producer ≠ c.x.cs)) then
    opMod c.id (fun o => { o with failed := some 3 })
      (logPut { source := c.x.cs, cls := 2, code := 4, detail := coreDetail s c.o.core, addr := slotAddr s g cn,
                flags := 0x20 } s)
  else if prod then
    prodAcquire (.op c.id) r c.x.cs ep (opMod c.id (fun o => { o with toAcquire := o.toAcquire ++ [(r, none)] }) s)
  else if g.slots ≤ fromTail g cn then opMod c.id (fun o => { o with failed := some 3 }) s
  else
    consAcquire (.op c.id) r c.x.cs cn ep
      (opMod c.id (fun o => { o with toAcquire := o.toAcquire ++ [(r, some cn)] }) s)

/-- The ring operands of a tile-op with their ring and counter. -/
def ctxRings (s : State) (c : OpCtx) : List (Opd × Nat × Nat) :=
  (opRings c.md.image c.o.w1).filterMap fun o =>
    (tabGet? c.md.rings o.slot).map fun r => (o, r, ringCounter s c.t r c.o.stripe o)

/-- May the producer acquires be asked for: does every one name counter HEAD (R312, R488)? -/
def prodInTurn (s : State) (c : OpCtx) : Bool :=
  (ctxRings s c).all fun q => !(ringAcq q.1 && ringProd q.1) || decide ((ringOf s q.2.1).head = q.2.2)

/-- Ask for the slots the tile-op acquires. -/
def askSlots (c : OpCtx) (s : State) : State :=
  (ctxRings s c).foldl (fun s' q => if ringAcq q.1 then askRing c q.2.1 q.2.2 (ringProd q.1) s' else s')
    (opMod c.id (fun o => { o with acquired := true }) s)

/-- The halo neighbours of a slot that a consumer takes (R329): the slot is FULL by then, so its flags are known. -/
def haloOf (s : State) (o : Opd) (r cn : Nat) : List Nat :=
  let g := ringOf s r
  let w := wrapOf g
  if ringHalo o && !ringProd o then
    (if g.autoUp && !(slotAt g cn).first then [(cn + w - 1) % w] else []) ++
      (if g.autoDown && !(slotAt g cn).last then [(cn + 1) % w] else [])
  else []

/-- Ask for the halo neighbours. -/
def askHalos (c : OpCtx) (s : State) : State :=
  (ctxRings s c).foldl (fun s' q =>
    if ringAcq q.1 then (haloOf s' q.1 q.2.1 q.2.2).foldl (fun s'' n => askRing c q.2.1 n false s'') s' else s')
    (opMod c.id (fun o => { o with haloAsked := true }) s)

/-- Does a tile-op wait for nothing more? -/
def opServed (s : State) (id : Nat) : Bool :=
  match tabGet? s.ops id with
  | some o => o.waitServed && o.acquired && o.haloAsked && o.toAcquire.isEmpty && o.failed.isNone
  | none => false

/-- Carry a tile-op to its issue: units, slots, halo slots, each asked for once. SEM_WAIT waits after its issue. -/
def prepare (c : OpCtx) (s : State) : State :=
  let s := if opCode c.o.w0 = 0x41 then opMod c.id (fun o => { o with waitServed := true }) s else askSem c s
  let st (s : State) : TileOp := (tabGet? s.ops c.id).getD c.o
  let s := if (st s).waitServed && !(st s).acquired && prodInTurn s c then askSlots c s else s
  if (st s).acquired && (st s).toAcquire.isEmpty && !(st s).haloAsked then askHalos c s else s

/-- The issue itself: the tile-op is marked issued, acquires what its waits acquire (R585), and has its effect. -/
def issueNow (code : Nat) (effect : OpCtx → State → State) (c : OpCtx) (s : State) : State :=
  let sem := code = 0x41
  let rdy := decide (code ≠ 0x40) && decide (code ≠ 0x45)
  let s := opMod c.id (fun o => { o with issued := true, issuedAt := s.ts, waitServed := !sem, ready := rdy }) s
  let s := if opWaitSem c.o.w0 ≠ 0xFFF || !((tabGet? s.ops c.id).getD c.o).held.isEmpty then fenceRead c.o.core s
    else s
  effect c s

/-- Issue a tile-op of an opcode if everything holds. Otherwise it stays in its queue with what it has been granted; so it
does while an access that its effect makes finds no unit of its class (R351). (DESIGN CHOICE, log entries 19, 20) -/
def issueOp (code : Nat) (effect : OpCtx → State → State) (id : Nat) (s : State) : State :=
  match opCtx s id with
  | none => s
  | some c =>
    if opCode c.o.w0 = code && mayIssue s c then
      let s := prepare c s
      if opServed s id then
        let t := issueNow code effect c s
        schedTick (if (bwShort s t).isEmpty then t else bwStalls (bwShort s t) s)
      else schedTick s
    else s

def execNopTileOp (op : Nat) (s : State) : Host.Outcome State Fault Refusal := done (issueOp 0x00 (fun _ s => s) op s)
def execLoadOp (op : Nat) (s : State) : Host.Outcome State Fault Refusal := done (issueOp 0x01 loadEffect op s)
def execStoreOp (op : Nat) (s : State) : Host.Outcome State Fault Refusal := done (issueOp 0x02 storeEffect op s)
def execGather (op : Nat) (s : State) : Host.Outcome State Fault Refusal := done (issueOp 0x03 loadEffect op s)
def execConv (op : Nat) (s : State) : Host.Outcome State Fault Refusal := done (issueOp 0x10 (matrixEffect false) op s)
def execMatmul (op : Nat) (s : State) : Host.Outcome State Fault Refusal := done (issueOp 0x11 (matrixEffect true) op s)
def execPoolMax (op : Nat) (s : State) : Host.Outcome State Fault Refusal := done (issueOp 0x12 (poolEffect false) op s)
def execPoolAvg (op : Nat) (s : State) : Host.Outcome State Fault Refusal := done (issueOp 0x13 (poolEffect true) op s)
def execVec (op : Nat) (s : State) : Host.Outcome State Fault Refusal := done (issueOp 0x20 vecEffect op s)
def execSfu (op : Nat) (s : State) : Host.Outcome State Fault Refusal := done (issueOp 0x21 sfuEffect op s)
def execReduce (op : Nat) (s : State) : Host.Outcome State Fault Refusal := done (issueOp 0x22 reduceEffect op s)
def execSmaxPass1 (op : Nat) (s : State) : Host.Outcome State Fault Refusal := done (issueOp 0x30 smax1Effect op s)
def execSmaxPass2 (op : Nat) (s : State) : Host.Outcome State Fault Refusal := done (issueOp 0x31 smax2Effect op s)
def execSmaxPass3 (op : Nat) (s : State) : Host.Outcome State Fault Refusal := done (issueOp 0x32 smax3Effect op s)
def execNormStats (op : Nat) (s : State) : Host.Outcome State Fault Refusal := done (issueOp 0x38 normStatsEffect op s)
def execNormApply (op : Nat) (s : State) : Host.Outcome State Fault Refusal := done (issueOp 0x39 normApplyEffect op s)
def execBarrier (op : Nat) (s : State) : Host.Outcome State Fault Refusal := done (issueOp 0x40 barrierEffect op s)

/-- SEM_WAIT issues and asks for its units (R512). -/
def execSemWait (op : Nat) (s : State) : Host.Outcome State Fault Refusal := done (issueOp 0x41 askSem op s)

/-- SEM_SIGNAL signals WAIT_N units (R512), none where SIG_SEM names no semaphore (R482). -/
def semSignalEffect (c : OpCtx) (s : State) : State :=
  if opSigSem c.o.w0 = 0xFFF then s else opSignal c (opSigSem c.o.w0) (opWaitN c.o.w0) s
def execSemSignal (op : Nat) (s : State) : Host.Outcome State Fault Refusal := done (issueOp 0x42 semSignalEffect op s)

/-- A FENCE of one kind; the others have rows of their own. -/
def fenceOp (kind : Nat) (f : Nat → State → State) (op : Nat) (s : State) : State :=
  match opCtx s op with
  | none => s
  | some c => if opParam c.o.w1 = kind then issueOp 0x43 (fun c s => f c.o.core s) op s else s

def execFenceR (op : Nat) (s : State) : Host.Outcome State Fault Refusal := done (fenceOp 0 fenceRead op s)
def execFenceW (op : Nat) (s : State) : Host.Outcome State Fault Refusal := done (fenceOp 1 fenceWrite op s)
def execFenceSc (op : Nat) (s : State) : Host.Outcome State Fault Refusal := done (fenceOp 2 fenceBoth op s)

/-- EPOCH_CONFIRM (R532). -/
def confirmEffect (c : OpCtx) (s : State) : State := confirmEpoch c.o.group (opEpoch c.o.w0) s
def execEpochConfirm (op : Nat) (s : State) : Host.Outcome State Fault Refusal :=
  done (issueOp 0x44 confirmEffect op s)

/-! ## Completion (R510, R582) -/

/-- Has an earlier tile-op of the core, of an opcode in the list, not completed? -/
def earlierOpen (s : State) (c : OpCtx) (codes : List Nat) : Bool :=
  s.ops.any fun e => decide (e.1 < c.id) && decide (e.2.core = c.o.core) && decide (e.2.group = c.o.group) &&
    codes.contains (opCode e.2.w0)

/-- Reading and writing tile-ops that a fence waits for. -/
def readCodes : List Nat := [0x01, 0x03, 0x31, 0x32, 0x39]
def writeCodes : List Nat := [0x02, 0x22, 0x30, 0x31, 0x38, 0x45]

/-- May an issued tile-op complete? -/
def mayComplete (s : State) (c : OpCtx) : Bool :=
  c.o.issued && c.o.todo.isEmpty && (c.o.dropped || (c.o.ready && c.o.waitServed &&
    (opCode c.o.w0 != 0x43 ||
      !(earlierOpen s c (match opParam c.o.w1 with
        | 0 => readCodes
        | 1 => writeCodes
        | _ => readCodes ++ writeCodes)))))

/-- A commit or release without a window fails with NO_WINDOW (R322). -/
def opNoWindow (c : OpCtx) (r cn : Nat) (s : State) : State :=
  let a := slotAddr s (ringOf s r) cn
  let i : LogInfo := { source := c.x.cs, cls := 2, code := 0x12, detail := coreDetail s c.o.core, addr := a }
  regAdd (bkBase r + 0x88) 1 (logPut i s)

/-- A COMMIT operand after the last access (R317, R488). A write-back that aborts the task takes the window away: nothing
is committed. -/
def opCommit (c : OpCtx) (r cn : Nat) (s : State) : State :=
  if !holdsWindow s r cn c.x.cs true then opNoWindow c r cn s
  else
    let last := match taskOf s c.o.group with
      | some (_, t) => t.lastStripe == some c.o.stripe
      | none => false
    let s := fenceWrite c.o.core s
    if holdsWindow s r cn c.x.cs true then ringCommit r cn c.x.cs (c.o.stripe == 0) last s else s

/-- A RELEASE of one counter: the core's lines of the slot go (R317), the release is noted for a later drain. -/
def opRelease (c : OpCtx) (r cn : Nat) (s : State) : State :=
  if holdsWindow s r cn c.x.cs false then
    let s := slotForget [c.o.core] r cn s
    let s := taskMod c.o.group (fun t => { t with relDone := tabMod 0 t.relDone (65536 * r + cn) (· + 1) }) s
    ringRelease r cn c.x.cs s
  else opNoWindow c r cn s

/-- The ring operations after the last access: commits, then releases with their halo neighbours. -/
def opRingEnds (c : OpCtx) (s : State) : State :=
  let qs := ctxRings s c
  let s := qs.foldl (fun s' q => if ringCmt q.1 && !opGone s' c.id then opCommit c q.2.1 q.2.2 s' else s') s
  let rs := qs.flatMap fun q =>
    if ringRls q.1 then (haloOf s q.1 q.2.1 q.2.2 ++ [q.2.2]).map fun n => (q.2.1, n) else []
  rs.foldl (fun s' q => if opGone s' c.id then s' else opRelease c q.1 q.2 s') s

/-- What completion does, while nothing of it aborts the task: held data reaches the near store, rings, SIG_SEM (R347,
R510). -/
def opEnds (c : OpCtx) (s : State) : State :=
  let s := putWritten c ⟨c.o.writes, 0⟩ s
  let s := if opGone s c.id then s else opRingEnds c s
  if opSigSem c.o.w0 ≠ 0xFFF && opCode c.o.w0 ≠ 0x42 && !opGone s c.id then opSignal c (opSigSem c.o.w0) 1 s else s

/-- Completion (R510, R514): its effects, then the scoreboard entry goes. It waits while a write-back it makes finds no
unit of its class (R351). (DESIGN CHOICE, log entries 19, 20) -/
def completeOp (id : Nat) (s : State) : State :=
  match opCtx s id with
  | none => s
  | some c =>
    if !mayComplete s c then s
    else if c.o.dropped then schedTick { s with ops := tabDel s.ops id }
    else
      let t := opEnds c s
      if (bwShort s t).isEmpty then schedTick { t with ops := tabDel t.ops id } else bwStalls (bwShort s t) s

def execTileopComplete (op : Nat) (s : State) : Host.Outcome State Fault Refusal := done (completeOp op s)

/-! ## Dispatch (R505 to R507, R514) -/

/-- A cursor whose stripes have run out of the task moves to FINAL (R507). -/
def cursorNow (t : Task) (c : Cursor) : Cursor :=
  match t.lastStripe with
  | some l => if c.phase = 1 && decide (l < c.stripe) then { phase := 2, stripe := c.stripe } else c
  | none => c

/-- The cursor after one more tile-op of a program of `count` (R480). -/
def cursorNext (c : Cursor) (count member g groups hold : Nat) : Cursor :=
  if c.pc + 1 < count then { c with pc := c.pc + 1, holds := c.holds + hold }
  else if c.phase = 0 then { phase := 1, stripe := member / g }
  else if c.phase = 1 then { phase := 1, stripe := c.stripe + groups }
  else { phase := 3, stripe := c.stripe }

/-- Is cursor a earlier in dispatch order than b (R505)? -/
def cursorBefore (a b : Cursor) : Bool :=
  decide (a.phase < b.phase) || (decide (a.phase = b.phase) && decide (a.phase = 1) && decide (a.stripe < b.stripe))

/-- MODE of the parameter block of a CONV, as its buffer holds it. -/
def convDepthwise (s : State) (md : Model) (w0 w1 : Nat) : Bool :=
  opCode w0 == 0x10 && (match imgOpd? md.image (opParam w1) with
    | some o =>
      let hv := tabGet 0 md.handles o.slot
      (memByte s ((handleOf s (hv % 256)).base + o.offset + 8)).toNat == 1
    | none => false)

/-- The unit a number of `opUnit` stands for. -/
def unitOf (n : Nat) : TileUnit :=
  if n = 1 then .stream else if n = 2 then .matrix else if n = 3 then .vector else if n = 4 then .sfu else .control

/-- Dispatch the next tile-op of a member (R505): queue and scoreboard must have room; an epoch opens (R530); a
tile-op of a cancelled epoch is squashed at once (R533). -/
def dispatchOp (g m : Nat) (s : State) : State :=
  match taskOf s g with
  | none => s
  | some (x, t) =>
    match modelOf s x.model with
    | none => s
    | some md =>
      let img := md.image
      let cur := cursorNow t (tabGet {} t.cursors m)
      let core := (csMembers s x.cs).getD m 64
      let pr := imgProg img cur.phase (m % imgG img)
      let mems := natsFrom 0 (csMembers s x.cs).length
      let turn := mems.all fun m' => !cursorBefore (cursorNow t (tabGet {} t.cursors m')) cur
      let queued := (s.ops.filter fun e => decide (e.2.core = core) && !e.2.issued).length
      let sb := (s.ops.filter fun e => e.2.dst.isSome).length
      if x.phase != .running || !mems.contains m || decide (3 ≤ cur.phase) || !turn || decide (64 ≤ queued) ||
          decide (1024 ≤ sb) then s
      else if pr.count = 0 then
        let next := cursorNext cur 0 m (imgG img) (stripeGroups s x md) 0
        taskMod g (fun t => { t with cursors := tabSet t.cursors m next }) s
      else
        let w0 := progWord0 img pr cur.pc
        let w1 := progWord1 img pr cur.pc
        let next := cursorNext cur pr.count m (imgG img) (stripeGroups s x md) (b2n (opHold w0))
        let s := taskMod g (fun t => { t with cursors := tabSet t.cursors m next }) s
        let e := opEpoch w0
        if opSpec w0 && epochState t e == .cancelled then schedTick (regAdd 0x780 1 s)
        else
          let s := if opSpec w0 && epochState t e == .idle then
              taskMod g (fun t => { t with epochs := tabPut .idle t.epochs e .open_ }) s
            else s
          let s := if opSpec w0 && decide (cur.phase = 1) then
              stripeMod g cur.stripe (fun r => { r with epoch := e }) s
            else s
          let reg (i : Nat) : Option Region :=
            (imgOpd? img i).map fun o => opdRegion s x.cs core t md cur.stripe o
          let o : TileOp :=
            { group := g, member := m, core := core, phase := cur.phase, stripe := cur.stripe, pc := cur.pc,
              w0 := w0, w1 := w1,
              unit := unitOf (opUnit (opCode w0) (convDepthwise s md w0 w1)), dst := reg (opDst w1),
              srcs := ([opSrcA w1, opSrcB w1].filterMap reg),
              hold := if opHold w0 then cur.holds + 1 else 0 }
          { s with ops := tabSet s.ops s.opNext o, opNext := s.opNext + 1 }

def execTileopDispatch (group : Fin 16) (member : Fin 64) (s : State) : Host.Outcome State Fault Refusal :=
  done (dispatchOp group member s)

/-! ## Tasks (R527 to R529) -/

/-- Start the task of the oldest repeat that waits (R527); B of a ring that was drained is the first slot after the
aborted repeat (R539). A LAST slot the driver ring has published by then fixes the
last stripe at once (R507, R529). -/
def startTask (g : Nat) (s : State) : State :=
  match groupGet s g with
  | none => s
  | some x =>
    match modelOf s x.model, x.due with
    | some md, n :: rest =>
      if x.phase == .waiting && x.started && !x.awaits && x.drains.isEmpty && csReady s x.cs then
        let d := tabGet 128 md.rings (imgDriver md.image)
        let ring := ringOf s d
        let base (r : Nat) : Nat := tabGet (ringOf s r).tail x.bases r
        let off (c : Nat) : Nat := (c + wrapOf ring - base d) % wrapOf ring
        let t : Task :=
          { rep := n, tsStart := s.ts, lxStart := lxNow s, qFirst := x.q,
            ringBase := (modelRings md).foldl (fun b r => tabSet b r (base r)) [],
            headBase := (modelRings md).foldl (fun b r => tabSet b r (ringOf s r).head) [],
            chain := (csMembers s x.cs).filterMap (physCore s), driver := d, lastStripe := (lastAmong ring (base d) (off ring.pub)).map off }
        journalTask g 1 0 (groupPut g { x with due := rest, bases := [], phase := .running, task := some t } s)
      else s
    | _, _ => s

def execTaskStart (group : Fin 16) (t : Nat) (s : State) : Host.Outcome State Fault Refusal :=
  done (startTask group (tsTo t s))

/-- The windows of a core set on a ring that its finished task still holds (R528, step 3): consumer windows are
released; on an EXTERNAL ring the slots from the oldest producer window on return to EMPTY. Answers their number. -/
def forceWindows (cs r : Nat) (external : Bool) (s : State) : State × Nat :=
  let ws := s.windows.filter fun w => decide (w.ring = r) && decide (w.tag = cs)
  let s := releaseAll r cs s
  let ps := ws.filter (·.producer)
  let s := if external && !ps.isEmpty then
      let g := ringOf s r
      let d := ps.foldl (fun m w => min m (fromTail g w.counter)) (occOf g)
      let cs' := (liveCounters g).drop d
      let g' := cs'.foldl (fun g c => slotPut c {} g) g
      ringPut r { g' with head := (g.tail + d) % wrapOf g }
        { s with windows := s.windows.filter fun w => !(decide (w.ring = r) && w.producer) }
    else s
  let n := (ws.filter fun w => !w.producer).length + (if external then ps.length else 0)
  (if n = 0 then s else ringSettle r (regAdd (bkBase r + 0x88) n s), n)

/-- The five steps of a boundary (R528). -/
def boundarySteps (g : Nat) (x : Group) (t : Task) (md : Model) (s : State) : State :=
  let s := groupMod g (fun x => { x with phase := .boundary }) s
  let s := cancelEpochs g (· == .open_) s
  let q := (modelRings md).foldl (fun (p : State × Nat) r =>
    let e := forceWindows x.cs r (!md.ownRings.contains r) p.1
    (e.1, p.2 + e.2)) (s, 0)
  let s := if q.2 = 0 then q.1 else regOr 0x704 0x10 q.1
  let s := md.ownRings.foldl (fun s' r => ringReset r s') s
  let s := (csMembers s x.cs).foldl (fun s' c => fenceBoundary c s') s
  let s := stripesProgress g s
  let s := journalTask g 2 s.ts s
  let s := groupMod g (fun x => { x with phase := .waiting, q := (x.q + stripesUsed t) % 2 ^ 32 }) s
  betweenTasks g (evPulse (128 + x.cs) s)

/-- The task boundary (R528): after every member's FINAL program, and when its write-backs find a unit of their class
(R351). -/
def taskBoundary (g : Nat) (s : State) : State :=
  match taskOf s g with
  | none => s
  | some (x, t) =>
    match modelOf s x.model with
    | none => s
    | some md =>
      let n := (csMembers s x.cs).length
      let ended := (natsFrom 0 n).all fun m => (tabGet {} t.cursors m).phase == 3
      if x.phase == .running && ended && s.ops.all (fun e => e.2.group ≠ g) then
        let v := boundarySteps g x t md s
        if (bwShort s v).isEmpty then schedTick v else bwStalls (bwShort s v) s
      else s

def execTaskBoundary (group : Fin 16) (t : Nat) (s : State) : Host.Outcome State Fault Refusal :=
  done (taskBoundary group (tsTo t s))

/-- A write to GLB_EPOCH_CANCEL; without GO it has no effect (R533). -/
def epochCancelWrite (v : Word) (s : State) : State :=
  if bitAt v.toNat 31 then schedTick (epochCancelOp (fieldOf v 16 4) (fieldOf v 0 8) s) else s

def execGlbEpochCancel (req : Req) (v : Word) (s : State) : Host.Outcome State Fault Refusal :=
  done (guarded req 0x710 (epochCancelWrite v) s)

end Sys2Proof.Machine
end

