-- ==== Sys2Proof/Machine/Collective.lean ====
section
/-! DEFINITION. Allreduce: the COLLECTIVE tile-op and its far-cache reduction lines (R571, R575), the rounds at the master
(R860, R862), results and local completion (R863); the range operations of the far cache. -/

namespace Sys2Proof.Machine

open Sys2Proof

/-! ## Arithmetic (R571, R862) -/

/-- One element combined: SUM 0, MIN 1, MAX 2. -/
def collElem (op : Nat) (int32 : Bool) (a b : Nat) : Nat :=
  if op = 0 then addElem (!int32) a b
  else if int32 then
    (if op = 1 then (if sgn 32 a ≤ sgn 32 b then a else b) else (if sgn 32 a ≤ sgn 32 b then b else a))
  else if op = 1 then fMin a b else fMax a b

/-- Two contributions combined, element by element. -/
def collCombine (op : Nat) (int32 : Bool) (x y : List Byte) : List Byte :=
  (natsFrom 0 (y.length / 4)).foldr (fun k l => leBytes 4 (collElem op int32 (leAt x (4 * k) 4) (leAt y (4 * k) 4)) ++ l) []

/-! ## Rounds at the master (R860, R862) -/

/-- Does an open round accept contributions in cycle `now`? (DEDUCED, log entry 39) -/
def roundOpen (now : Nat) (r : CollRound) : Bool := !r.closed && decide ((now + 2 ^ 32 - r.cycle) % 2 ^ 32 ≤ 1)

/-- COLL_REFUSED. (DEDUCED, log entry 40) -/
def collRefuse (s : State) : State := xkEvent 7 s.xk.node s

/-- The round of a key that accepts now. -/
def roundOf (s : State) (key : Nat) : Option CollRound :=
  s.xk.rounds.find? fun r => decide (r.key = key) && roundOpen s.xk.cycle r

/-- One fragment of a node's contribution reaches the master. (DEDUCED, log entry 40) -/
def roundContrib (key op : Nat) (int32 : Bool) (bytes node frag : Nat) (d : List Byte) (s : State) : State :=
  match roundOf s key with
  | some r =>
    let had := tabGet [] r.parts node
    if r.op ≠ op || r.int32 != int32 || r.bytes ≠ bytes || had.length ≠ 2048 * frag then collRefuse s
    else
      let r' := { r with parts := tabSet r.parts node (had ++ d) }
      let put (q : CollRound) : CollRound := if decide (q.key = key) && roundOpen s.xk.cycle q then r' else q
      xkMod (fun x => { x with rounds := x.rounds.map put }) s
  | none =>
    if frag ≠ 0 ∨ 16 ≤ (s.xk.rounds.filter (roundOpen s.xk.cycle)).length then collRefuse s
    else
      let r : CollRound :=
        { key := key, ctx := key % 256, op := op, int32 := int32, bytes := bytes, cycle := s.xk.cycle,
          parts := [(node, d)] }
      xkMod (fun x => { x with rounds := x.rounds ++ [r] }) s

/-- The contributions a closed round holds whole, their mask and the result. -/
def roundParts (r : CollRound) : Tab (List Byte) := r.parts.filter fun e => decide (e.2.length = r.bytes)
def roundMask (r : CollRound) : Nat := (roundParts r).foldl (fun m e => m + 2 ^ e.1) 0
def roundResult (r : CollRound) : List Byte :=
  match roundParts r with
  | [] => []
  | e :: t => t.foldl (fun a x => collCombine r.op r.int32 a x.2) e.2

/-- The frame bodies of a contribution or a result (R861). -/
def collBodies (key op : Nat) (int32 : Bool) (bytes mask : Nat) (d : List Byte) : List (List Byte) :=
  let sub (i last : Nat) : List Byte :=
    leBytes 8 (key / 256) ++ [b8 key, b8 op, b8 (b2n int32), b8 (i + 2 * last)] ++ leBytes 2 bytes ++ leBytes 2 mask
  if d.length ≤ 2048 then [sub 0 1 ++ d] else [sub 0 0 ++ d.take 2048, sub 1 1 ++ d.drop 2048]

/-! ## This station's collectives (R571, R863) -/

def collPut (l : CollLocal) (ls : List CollLocal) : List CollLocal :=
  ls.map fun q => if q.key = l.key ∧ q.scope = l.scope ∧ q.group = l.group ∧ !q.out then l else q

/-- The collective ends on this chip: the result at DST, XK_COLL_LAST, EV_162, the tile-ops complete. -/
def collFinish (l : CollLocal) (d : List Byte) (mask : Nat) (loc : Bool) (s : State) : State :=
  let s := l.dsts.foldl (fun s' a =>
    let q := dsWritePieces l.tag l.detail (some 3) false (pieces d.length a d.length) d s'
    if q.2 = 0 then q.1 else abortTask l.group (if q.2 = 4 then 3 else 1) l.tag q.1) s
  let s := if loc then regAdd 0x90D0 1 (xkEvent 6 s.xk.node s) else s
  let s := regSet 0x90B0 (w32 (mask + atBit (l.key % 32) 16 + atBit (b2n loc) 24)) s
  let s := l.ops.foldl (fun s' id => opMod id (fun o => { o with ready := true }) s') s
  schedTick (evPulse 162 s)

/-- Take a collective that was sent out of the list. -/
def collTake (l : CollLocal) (s : State) : State :=
  xkMod (fun x => { x with colls := x.colls.erase l }) s

/-- It completes with this station's contribution alone. (DEDUCED, log entry 40) -/
def collAlone (l : CollLocal) (s : State) : State :=
  collFinish l l.data (2 ^ s.xk.node) true (collTake l s)

/-- A result for a key: the oldest collective sent under that key gets it, if this node is in MASK. -/
def collResultFor (key : Nat) (d : List Byte) (mask : Nat) (s : State) : State :=
  if !bitAt mask s.xk.node then s
  else match s.xk.colls.find? fun l => decide (l.key = key) && l.out with
    | some l => collFinish l d mask false (collTake l s)
    | none => s

/-- Send a station's contribution: to its own round on the master, in frames to the master elsewhere, nowhere off the
segment. -/
def collSend (l : CollLocal) (s : State) : State :=
  let l' := { l with out := true, sent := if s.xk.net == .master then some s.xk.cycle else none }
  let s := xkMod (fun x => { x with colls := collPut l' x.colls }) s
  if !xkJoined s then collAlone l' s
  else if s.xk.net == .master then
    let s := roundContrib l.key l.op l.int32 l.bytes s.xk.node 0 (l.data.take 2048) s
    if 2048 < l.data.length then roundContrib l.key l.op l.int32 l.bytes s.xk.node 1 (l.data.drop 2048) s else s
  else (collBodies l.key l.op l.int32 l.bytes 0 l.data).foldl (fun s' b => xkSend s'.xk.master 6 b s') s

/-- One contribution more. The first SUM adds to lines set to zero. (DEDUCED, log entry 40) -/
def collAdd (l : CollLocal) (d : List Byte) : CollLocal :=
  let old := if l.data.isEmpty && l.op = 0 then List.replicate d.length 0 else l.data
  { l with data := if old.isEmpty then d else collCombine l.op l.int32 old d }

/-- Address of byte 0 of a BUFFER operand, if its handle is valid. -/
def bufferAddr (s : State) (c : OpCtx) (o : Opd) : Nat := placeAt (opdPlace s c.t c.md c.o.stripe o) o.offset

/-- How many reduction lines of a collective find 12 pinned ways in their set (R572). -/
def redShort (s : State) (key bytes : Nat) : Nat :=
  if fcSets s = 0 then 0 else ((redSets s key (cdiv bytes 256)).filter fun set => decide (12 ≤ fcPinned s set)).length

/-- A COLLECTIVE waits for ways (R572): RED_WAIT, and FC_RED_WAIT for each line, when it starts to. -/
def redWaits (id n : Nat) (again : Bool) (s : State) : State :=
  xkMod (fun x => { x with redWait := x.redWait ++ [id] }) (if again then s else regAdd 0x214 n (regOr 0x204 2 s))

/-- The sets of a collective's new reduction lines have room for them. -/
def redRoom (key bytes : Nat) (s : State) : State :=
  if fcSets s = 0 then s else (redSets s key (cdiv bytes 256)).foldl (fun s' set => fcMakeRoom set 1 16 s') s

/-- The contribution at SRCA joins the reduction lines of its collective; where these have to be installed and find 12
pinned ways, it waits. `again`: it has waited. -/
def collectiveTry (again : Bool) (c : OpCtx) (s : State) : State :=
  let q := readParam c s
  match q.2, ctxA c, ctxDst c with
  | some p, some a, some dst =>
    let op := leAt p 0 1
    let int32 := leAt p 1 1 == 1
    let n := leAt p 2 2
    let r := readOpd c a n q.1
    match r.2 with
    | none => r.1
    | some d =>
      let s := r.1
      let key := leAt c.md.image 0x18 8 * 256 + opBctx c.o.w0
      let fresh : CollLocal :=
        { key := key, scope := barrierKey c, op := op, int32 := int32, bytes := n, group := c.o.group, ops := [],
          data := [], dsts := [], tag := c.x.cs, detail := coreDetail s c.o.core }
      let old := s.xk.colls.find? fun l => decide (l.key = key) && decide (l.scope = barrierKey c) &&
        decide (l.group = c.o.group) && !l.out
      let new := (old.getD fresh).data.isEmpty
      if new && decide (0 < redShort s key n) then redWaits c.id (redShort s key n) again s
      else
      let s := if new then redRoom key n s else s
      let s := if old.isSome then s else xkMod (fun x => { x with colls := x.colls ++ [fresh] }) s
      let l := collAdd (old.getD fresh) d
      let at_ := bufferAddr s c dst
      let l := { l with ops := l.ops ++ [c.id], dsts := if l.dsts.contains at_ then l.dsts else l.dsts ++ [at_] }
      let s := xkMod (fun x => { x with colls := collPut l x.colls }) s
      if (barrierMembers s c).length ≤ l.ops.length + l.before then collSend l s else s
  | _, _, _ => q.1

/-- COLLECTIVE (R571). -/
def collectiveEffect (c : OpCtx) (s : State) : State := collectiveTry false c s

/-- The tile-ops that wait for ways of the far cache try again, oldest first (R572). The first argument bounds the rounds:
one that goes on may send its lines. -/
def redRetry : Nat → State → State
  | 0, s => s
  | f + 1, s =>
    let ids := s.xk.redWait
    if ids.isEmpty then s
    else
      let s' := ids.foldl (fun s' id =>
        match opCtx s' id with
        | some c => collectiveTry true c s'
        | none => s') (xkMod (fun x => { x with redWait := [] }) s)
      if s'.xk.redWait == ids then s' else redRetry f s'

/-- Lines of the far cache have gone: what waits for their ways tries again. -/
def redGone (s : State) : State := redRetry (s.xk.redWait.length + 1) s

/-- COLLECTIVE, and those that waited for ways where its lines have been sent. -/
def collective (id : Nat) (s : State) : State :=
  let t := issueOp 0x45 collectiveEffect id s
  if t.xk.redWait.length = s.xk.redWait.length then redGone t else t

def execCollective (op : Nat) (s : State) : Host.Outcome State Fault Refusal := done (collective op s)

/-- COLL_LOCAL (R863): no result by the end of cycle c′ + 4. -/
def collLate (key : Nat) (s : State) : State :=
  let late (l : CollLocal) : Bool := l.out && decide (l.key = key) && (match l.sent with
    | some c => decide (5 ≤ (s.xk.cycle + 2 ^ 32 - c) % 2 ^ 32)
    | none => false)
  match s.xk.colls.find? late with
  | some l => collAlone l s
  | none => s

def execCollLocal (key : Nat) (s : State) : Host.Outcome State Fault Refusal := done (collLate key s)

/-! ## Range operations of the far cache (R574, R575) -/

/-- Every reduction line is sent as it stands: it has no address, so it is in every range. (DEDUCED, log entry 40) -/
def fcSendLines (s : State) : State :=
  (s.xk.colls.filter fun l => !l.out && !l.ops.isEmpty).foldl (fun s' l =>
    let s' := collSend l s'
    let rest := { l with ops := [], data := [], dsts := [], before := l.before + l.ops.length }
    xkMod (fun x => { x with colls := x.colls ++ [rest] }) s') s

/-- FC FLUSH (1), INVALIDATE (2) and FLUSH_INVALIDATE (3). -/
def fcRangeOp (b op : Nat) (s : State) : State :=
  if bitAt (rgReg s b 0x230) 30 then rgRefuse b 0x230 s
  else
    let s := if op = 2 then s else fcSendLines s
    let s := match fcRange s b with
      | some (n, l, k) => if op = 1 then s else fcDrop n l k s
      | none => s
    rgStart b 0x230 0 true op (redGone s)

def execFcPrefetch (req : Req) (hint : Fin 3) (s : State) : Host.Outcome State Fault Refusal :=
  done (guarded req 0x22C (fcPrefetch (reqBank req) (hintOf hint)) s)
def execFcFlush (req : Req) (s : State) : Host.Outcome State Fault Refusal :=
  done (guarded req 0x22C (fcRangeOp (reqBank req) 1) s)
def execFcInvalidate (req : Req) (s : State) : Host.Outcome State Fault Refusal :=
  done (guarded req 0x22C (fcRangeOp (reqBank req) 2) s)
def execFcFlushInvalidate (req : Req) (s : State) : Host.Outcome State Fault Refusal :=
  done (guarded req 0x22C (fcRangeOp (reqBank req) 3) s)

end Sys2Proof.Machine
end

