-- ==== Sys2Proof/Machine/XkPhy.lean ====
section
/-! DEFINITION. Xanik frames on the cable (14_xanik_phy.md): tone maps, airtime, header, scrambling, coding,
interleaving, pilots, and the tone map built from a sounding body. -/

namespace Sys2Proof.Machine

open Sys2Proof

/-! ## Tone maps (R788 to R794) -/

/-- Bits per carrier of a constellation code (R786). -/
def qamBits (c : Nat) : Nat := [0, 1, 2, 4, 6, 8].getD c 0

/-- Is used carrier 8 + i a pilot (R765)? -/
def isPilot (i : Nat) : Bool := i % 16 == 0

def mapVersion (m : List Byte) : Nat := bitsOf (leAt m 0 1) 0 4
def mapRate (m : List Byte) : Nat := bitsOf (leAt m 0 1) 4 2
def mapCbps (m : List Byte) : Nat := leAt m 2 2
def mapCode (m : List Byte) (i : Nat) : Nat := bitsOf (leAt m (4 + i / 2) 1) (4 * (i % 2)) 4

/-- Coded bits in a puncturing period (R781, R782), and data bits in it. -/
def rateCoded (r : Nat) : Nat := [2, 3, 4, 6].getD r 2
def rateData (r : Nat) : Nat := [1, 2, 3, 5].getD r 1

/-- Data bits per symbol (R776). -/
def dbpsOf (cbps rate : Nat) : Nat := cbps * rateData rate / rateCoded rate

/-- Is a map valid (R789)? -/
def mapValid (m : List Byte) : Bool :=
  let codes := (natsFrom 0 394).map (mapCode m)
  decide (m.length = 256) && decide (leAt m 0 1 < 64) && decide (leAt m 1 1 = 0) &&
  codes.all (fun c => decide (c ≤ 5)) && (natsFrom 0 394).all (fun i => !isPilot i || decide (mapCode m i = 0)) &&
  decide (mapCbps m = (codes.map qamBits).foldl (· + ·) 0) && decide (mapCbps m % rateCoded (mapRate m) = 0) &&
  decide (24 ≤ mapCbps m) && ((m.drop 201).all fun b => b == 0)

/-- The robust map (R790). -/
def robustCode (i : Nat) : Nat := if isPilot i then 0 else 2

/-- The code of every used carrier under a map, or under the robust map. -/
def carrierCodes (m : Option (List Byte)) : List Nat :=
  (natsFrom 0 394).map fun i => match m with | some m => mapCode m i | none => robustCode i

def mapDbps (m : Option (List Byte)) : Nat := match m with | some m => dbpsOf (mapCbps m) (mapRate m) | none => 369

/-- Body symbols of a payload (R776). -/
def bodySyms (len dbps : Nat) : Nat := if len = 0 then 0 else cdiv (8 * (len + 4) + 6) dbps

/-- Required SNR in dB of constellation code c at rate r (R794). -/
def snrNeed (r c : Nat) : Nat :=
  ([[0, 3, 6, 12, 18, 24], [0, 5, 8, 14, 20, 26], [0, 6, 9, 15, 21, 27], [0, 7, 10, 16, 22, 28]].getD r []).getD c 0

/-- The largest constellation a carrier's SNR, in 1/256 dB, carries at rate r with 3 dB of margin. -/
def snrCode (r snr : Nat) : Nat := (natsFrom 1 5).foldl (fun b c => if 256 * (snrNeed r c + 3) ≤ snr then c else b) 0

/-- One step down. -/
def dropCode (c : Nat) : Nat := c - 1

/-- The carrier of lowest SNR that is not off; the first among equals. -/
def weakest (snr codes : List Nat) : Option Nat :=
  (natsFrom 0 codes.length).foldl (fun b i =>
    if codes.getD i 0 = 0 then b
    else match b with
      | some j => if snr.getD i 0 < snr.getD j 0 then some i else b
      | none => some i) none

/-- Step 2 of R794: drop steps until the sum is a multiple. The first argument bounds the steps. -/
def fitCodes (r : Nat) (snr : List Nat) : Nat → List Nat → List Nat
  | 0, cs => cs
  | n + 1, cs =>
    if (cs.map qamBits).foldl (· + ·) 0 % rateCoded r = 0 then cs
    else match weakest snr cs with
      | some i => fitCodes r snr n (listSet cs i (dropCode (cs.getD i 0)))
      | none => cs

/-- The codes that rate r gets (R794, steps 1 and 2). -/
def rateCodes (r : Nat) (snr : List Nat) : List Nat :=
  fitCodes r snr 64 ((natsFrom 0 394).map fun i => if isPilot i then 0 else snrCode r (snr.getD i 0))

/-- A tone map from per-carrier SNR (R794), under a version; none when the robust map is to be used. -/
def buildMap (ver : Nat) (snr : List Nat) : Option (List Byte) :=
  let sum (cs : List Nat) : Nat := (cs.map qamBits).foldl (· + ·) 0
  let best := (natsFrom 1 3).foldl (fun (b : Nat × List Nat) r =>
    let cs := rateCodes r snr
    if dbpsOf (sum b.2) b.1 < dbpsOf (sum cs) r then (r, cs) else b) (0, rateCodes 0 snr)
  let nib := (natsFrom 0 197).map fun i => b8 (best.2.getD (2 * i) 0 + 16 * best.2.getD (2 * i + 1) 0)
  let m := [b8 (ver + 16 * best.1), 0] ++ leBytes 2 (sum best.2) ++ nib ++ List.replicate 55 0
  if dbpsOf (sum best.2) best.1 < 369 || !mapValid m then none else some m

/-- Data rate of a map in kbit/s, with the cyclic prefix of the sender. -/
def mapKbps (m : Option (List Byte)) (cp : Bool) : Nat :=
  let num := mapDbps m * 1000000
  let den := if cp then 5120 else 4608
  if num % den = 0 then num / den else if Config.roundsUp num den then num / den + 1 else num / den

/-! ## Frames as the sender forms them -/

/-- The transmit map of a frame (R842, R775): none for the robust map. -/
def frameMap (s : State) (f : XkFrame) : Option (List Byte) :=
  if f.dest < 16 && f.kind ≠ 12 && f.kind ≠ 13 && !f.body.isEmpty then ((peerOf s f.dest).txMaps.head?).map (·.2) else none

/-- NSYM (R773, R776). -/
def frameSyms (s : State) (f : XkFrame) : Nat :=
  if f.kind = 13 then 8 else bodySyms f.body.length (mapDbps (frameMap s f))

/-- Time of the body symbols. -/
def symTime (cp : Bool) (n : Nat) : Nat := n * (if cp then 5120 else 4608)

/-- The A of R840: from the first short-training period to the start of the ramp-down extension. -/
def frameAir (s : State) (f : XkFrame) : Nat := 19456 + symTime s.xk.cp (frameSyms s f)

/-- T_R (R818), and the gap of R819. -/
def rampNs (s : State) : Nat := (regBits s 0x900C 0 4 + 1) * 250
def gapNs (s : State) : Nat := 2 * rampNs s + 2000

/-- The header of a frame (R772, R843). -/
def frameHeader (s : State) (f : XkFrame) : List Byte :=
  let m := frameMap s f
  let bc := decide (16 ≤ f.dest)
  let b0 := atBit (b2n s.xk.cp) 2 + atBit (b2n m.isSome) 3 + atBit (b2n (f.kind == 13)) 4
  let b1 := s.xk.node + atBit (b2n bc) 4
  let b2 := (if bc then 0 else f.dest) + (match m with | some m => 16 * mapVersion m | none => 0)
  let h := [b8 b0, b8 b1, b8 b2, 0] ++ leBytes 2 f.body.length ++ leBytes 2 (frameSyms s f) ++
    [b8 (f.kind + atBit (b2n (decide (0 < f.retries))) 4)] ++ leBytes 2 f.seq ++ leBytes 2 (s.xk.cycle % 65536) ++
    [b8 (b2n (f.kind == 2 && s.xk.eligible)), 0, 0]
  h ++ leBytes 2 (crc16 h)

/-! ## Scrambling, coding, interleaving (R767, R774 to R784) -/

/-- Bits of bytes, least significant first. -/
def bitsOfBytes (d : List Byte) : List Nat := d.foldr (fun b l => (natsFrom 0 8).map (fun i => bitsOf b.toNat i 1) ++ l) []

/-- A generator x^a + x^b + 1 run `n` times: its output bits and its state. (PRESUMED, log entry 54) -/
def lfsrBits (a b : Nat) : Nat → Nat → List Nat
  | 0, _ => []
  | n + 1, s =>
    let o := bitsOf s (a - 1) 1 ^^^ bitsOf s (b - 1) 1
    o :: lfsrBits a b n ((2 * s + o) % 2 ^ a)

/-- Data bits, tail and pad, scrambled but for the tail. (PRESUMED, log entry 54) -/
def scrambled (d : List Nat) (pad : Nat) : List Nat :=
  let g := lfsrBits 7 4 (d.length + pad) 127
  let x := (d ++ List.replicate pad 0).zipWith (· ^^^ ·) g
  x.take d.length ++ List.replicate 6 0 ++ x.drop d.length

/-- The puncturing patterns (R781): is bit A, or bit B, of the input bit at place p of a period sent? -/
def keepsA (rate p : Nat) : Bool := ([[1], [1, 1], [1, 1, 0], [1, 1, 0, 1, 0]].getD rate []).getD p 0 == 1
def keepsB (rate p : Nat) : Bool := ([[1], [1, 0], [1, 0, 1], [1, 0, 1, 0, 1]].getD rate []).getD p 0 == 1

def parity (n : Nat) : Nat := ((natsFrom 0 7).foldl (fun a i => a + bitsOf n i 1) 0) % 2

/-- The A bit and the B bit of an input bit and the six before it, the latest highest (R780). -/
def codeA (h : Nat) : Nat := parity (h &&& 0o133)
def codeB (h : Nat) : Nat := parity (h &&& 0o171)

/-- The encoder (R780), with puncturing (R781): `p` counts input bits within the period; the state holds the last six
input bits, the latest highest. (PRESUMED, log entry 54) -/
def convEncode (rate : Nat) : Nat → Nat → List Nat → List Nat
  | _, _, [] => []
  | p, st, b :: t =>
    let h := 64 * b + st
    (if keepsA rate p then [codeA h] else []) ++ (if keepsB rate p then [codeB h] else []) ++
      convEncode rate ((p + 1) % rateData rate) (h / 2) t

/-- The step S of the interleaver (R784). -/
def stepOf (m : Nat) : Nat := ((natsFrom 29 400).find? fun x => Nat.gcd x m = 1).getD 29

/-- Carrier and bit that successive coded bits of a symbol go to (R784). (PRESUMED, log entry 54) -/
def dealt (codes : List Nat) : List (Nat × Nat) :=
  let cs := (natsFrom 0 codes.length).filter fun i => codes.getD i 0 ≠ 0
  let m := cs.length
  (natsFrom 0 8).foldr (fun r l =>
    ((natsFrom 0 m).filterMap fun i =>
      let c := cs.getD (i * stepOf m % m) 0
      if r < qamBits (codes.getD c 0) then some (c, r) else none) ++ l) []

/-- One symbol: the bits of each used carrier, b_0 lowest (R785); a pilot carries its bit of the pilot sequence.
(PRESUMED, log entry 54) -/
def symbolOf (codes bits pilots : List Nat) : List Nat :=
  let ds := (dealt codes).zip bits
  let v := ds.foldl (fun l e => listSet l e.1.1 (l.getD e.1.1 0 + 2 ^ e.1.2 * e.2)) (List.replicate codes.length 0)
  (natsFrom 0 codes.length).map fun i => if isPilot i then pilots.getD (i / 16) 0 else v.getD i 0

/-- Symbols from coded bits, `n` of them, the first being number `k` of the frame's header and body. -/
def symbolsOf (codes : List Nat) (cbps : Nat) : Nat → Nat → List Nat → List (List Nat)
  | 0, _, _ => []
  | n + 1, k, bits =>
    symbolOf codes (bits.take cbps) ((lfsrBits 11 9 (25 * (k + 1)) 2047).drop (25 * k)) ::
      symbolsOf codes cbps n (k + 1) (bits.drop cbps)

/-- The QPSK points of a sounding body (R778). -/
def soundSymbols : List (List Nat) :=
  let cs := (natsFrom 0 394).filter fun i => !isPilot i
  let g := lfsrBits 7 4 (8 * 738) 127
  (natsFrom 0 8).map fun n =>
    let pts := cs.zip ((natsFrom 0 369).map fun i => g.getD (738 * n + 2 * i) 0 + 2 * g.getD (738 * n + 2 * i + 1) 0)
    let v := pts.foldl (fun l e => listSet l e.1 e.2) (List.replicate 394 0)
    let p := (lfsrBits 11 9 (25 * (n + 2)) 2047).drop (25 * (n + 1))
    (natsFrom 0 394).map fun i => if isPilot i then p.getD (i / 16) 0 else v.getD i 0

/-- Header symbol and body symbols of a frame (R774 to R778). -/
def frameSymbols (s : State) (f : XkFrame) : List (List Nat) :=
  let robust := carrierCodes none
  let head := symbolsOf robust 738 1 0 (convEncode 0 0 0 (scrambled (bitsOfBytes (frameHeader s f)) 219))
  if f.kind = 13 then head ++ soundSymbols
  else
    let m := frameMap s f
    let n := frameSyms s f
    let d := bitsOfBytes (f.body ++ leBytes 4 (crc32c f.body))
    let cbps := match m with | some m => mapCbps m | none => 738
    let rate := match m with | some m => mapRate m | none => 0
    let bits := convEncode rate 0 0 (scrambled d (n * mapDbps m - d.length - 6))
    if n = 0 then head else head ++ symbolsOf (carrierCodes m) cbps n 1 bits

end Sys2Proof.Machine
end

