-- ==== Sys2Proof/Machine/Ofdm.lean ====
section
/-! DEFINITION. The signal of Xanik frames (R765 to R771, R785 to R787, R817, R822): constellation points, the transform,
training, ramps, and the codes of the transmit converter. Values are fixed-point numbers of Special.lean.
(DESIGN CHOICE, log entry 84) -/

namespace Sys2Proof.Machine

open Sys2Proof

/-! ## Complex values -/

def cxZero : Cx := ⟨0, 0⟩
def cxAdd (a b : Cx) : Cx := ⟨a.re + b.re, a.im + b.im⟩
def cxSub (a b : Cx) : Cx := ⟨a.re - b.re, a.im - b.im⟩
def cxMul (a b : Cx) : Cx := ⟨fxMul a.re b.re - fxMul a.im b.im, fxMul a.re b.im + fxMul a.im b.re⟩
def cxConj (a : Cx) : Cx := ⟨a.re, -a.im⟩
def cxScale (x : Int) (a : Cx) : Cx := ⟨fxMul x a.re, fxMul x a.im⟩
def cxNorm (a : Cx) : Int := fxMul a.re a.re + fxMul a.im a.im

/-- The quotient of two values; 0 by 0. -/
def cxDiv (a b : Cx) : Cx :=
  let n := cxNorm b
  let q := cxMul a (cxConj b)
  if n = 0 then cxZero else ⟨fxDiv q.re n, fxDiv q.im n⟩

/-- The alternating sum of every second term x^k / k!, over `n` of them from `k` on; `p` is the first, `x2` the square
of x. -/
def fxTrigSum (x2 : Int) : Nat → Nat → Int → Int
  | 0, _, _ => 0
  | n + 1, k, p => p + fxTrigSum x2 n (k + 2) (-(fxMul p x2) / ((k + 1) * (k + 2)))

/-- exp(j 2π x), for x up to one turn. -/
def cxCis (x : Int) : Cx :=
  let y := fxMul (2 * fxPi) x
  let y2 := fxMul y y
  ⟨fxTrigSum y2 60 0 fxOne, fxTrigSum y2 60 1 y⟩

/-- exp(j 2π n / d). -/
def cxTurn (n d : Nat) : Cx := cxCis (fxOne * (n % d : Nat) / d)

/-- Every second element, from the first. -/
def evens : List α → List α
  | [] => []
  | [a] => [a]
  | a :: _ :: t => a :: evens t

/-- The transform of 2^d values: `tw` holds exp(± j 2π i / 2^d) for i below half of that. -/
def transformGo : Nat → List Cx → List Cx → List Cx
  | 0, _, l => l
  | d + 1, tw, l =>
    let e := transformGo d (evens tw) (evens l)
    let o := tw.zipWith cxMul (transformGo d (evens tw) (evens (l.drop 1)))
    e.zipWith cxAdd o ++ e.zipWith cxSub o

/-- The FFT of 1,024 values, or its inverse without the factor 1/1,024. -/
def transform (inverse : Bool) (l : List Cx) : List Cx :=
  transformGo 10 ((natsFrom 0 512).map fun i => cxTurn (if inverse then i else 1024 - i) 1024) l

/-! ## Constellations (R785 to R787) -/

/-- The level index of a Gray code of at most four bits (R786). -/
def grayLevel (g : Nat) : Nat := g ^^^ (g / 2) ^^^ (g / 4) ^^^ (g / 8)

/-- Bits on an axis, m of R785. -/
def axisBits (c : Nat) : Nat := [0, 1, 1, 2, 3, 4].getD c 0

/-- The normalizing factor N (R786). -/
def qamNorm (c : Nat) : Int := fxSqrt (fxOne / ([1, 1, 2, 10, 42, 170].getD c 1 : Nat))

/-- An axis value from the bits of the axis, its b_0 lowest (R786). -/
def axisValue (c bits : Nat) : Int :=
  let m := axisBits c
  let g := (natsFrom 0 m).foldl (fun g i => 2 * g + bitsOf bits i 1) 0
  (2 * (grayLevel g : Int) - (2 ^ m - 1)) * qamNorm c

/-- The point of a carrier from its bits, b_0 lowest (R785, R787). -/
def qamPoint (c v : Nat) : Cx :=
  if c = 0 then cxZero
  else if c = 1 then ⟨axisValue 1 v, 0⟩
  else ⟨axisValue c (v % 2 ^ axisBits c), axisValue c (v / 2 ^ axisBits c)⟩

/-- The points of a symbol from the bits of its carriers: a pilot is 1 or −1 (R767). -/
def symbolPoints (codes bits : List Nat) : List Cx :=
  (natsFrom 0 394).map fun i =>
    let v := bits.getD i 0
    if isPilot i then ⟨fxOne * (1 - 2 * (v : Int)), 0⟩ else qamPoint (codes.getD i 0) v

/-! ## Time signals (R766, R770, R771) -/

/-- X[k] for every k, from the values of the used carriers: the conjugates mirrored, every other bin 0 (R766). -/
def binsOf (v : List Cx) : List Cx :=
  List.replicate 8 cxZero ++ v ++ List.replicate 221 cxZero ++ (v.map cxConj).reverse ++ List.replicate 7 cxZero

/-- The FFT period of a symbol, before the common factor (R766, R768). -/
def signalOf (v : List Cx) : List Int := (transform true (binsOf v)).map (·.re)

/-- A symbol with its cyclic prefix of n samples (R766). -/
def withPrefix (n : Nat) (x : List Int) : List Int := x.drop (1024 - n) ++ x

/-- The short-training pattern (R770). -/
def shortPoints : List Cx :=
  (natsFrom 0 394).map fun i =>
    if i % 8 = 0 then cxScale (fxSqrt (394 * fxOne / 50)) (cxTurn ((i / 8 + 1) * (i / 8 + 1)) 100) else cxZero

/-- The long-training symbol (R771): exp(−jπ i²/394) for k = 8 + i. -/
def longPoints : List Cx := (natsFrom 0 394).map fun i => cxTurn (788 - i * i % 788) 788

def shortPattern : List Int := (signalOf shortPoints).take 128
def longSignal : List Int := signalOf longPoints

/-! ## A frame at the transmit converter (R762, R769, R817, R822) -/

/-- w(t) of R817, t and T_R in ns. -/
def rampW (t tr : Nat) : Int := (fxOne - (cxTurn t (2 * tr)).re) / 2

/-- The ramp-up extension: the samples 4 ns apart that end where the short training begins (R817). -/
def rampUp (tr : Nat) : List Int :=
  let n := tr / 4
  (natsFrom 0 n).map fun i => fxMul (shortPattern.getD ((1024 + i - n) % 128) 0) (rampW (tr + 4 * i - 4 * n) tr)

/-- The ramp-down extension: the first samples of the last symbol's FFT period (R817). -/
def rampDown (tr : Nat) (last : List Int) : List Int :=
  (natsFrom 0 (tr / 4)).map fun i => fxMul (last.getD i 0) (fxOne - rampW (4 * i) tr)

/-- The common factor of R768: the code, in fixed point, of a carrier sum of 1. With unit energy on the 394 used carriers
the RMS is `backoff` dB below full scale (R822). -/
def levelFactor (backoff : Nat) : Int :=
  fxDiv (fxMul (fxSqrt (2 ^ 21 * fxOne)) (fxExp (-(backoff * fxLn (10 * fxOne)) / 20))) (fxSqrt (788 * fxOne))

/-- Is a value beyond the converter's full scale (R822)? -/
def beyond (x : Int) : Bool := decide (2047 * fxOne < x) || decide (x < -2048 * fxOne)

/-- The converter's code of a value (R822). -/
def dacCode (x : Int) : BitVec 12 :=
  if 2047 * fxOne < x then 2047
  else if x < -2048 * fxOne then BitVec.ofInt 12 (-2048)
  else BitVec.ofInt 12 (if x % fxOne ≠ 0 && Config.dacUp x then x / fxOne + 1 else x / fxOne)

/-- The FFT periods of a frame's header and body symbols, scaled. -/
def framePeriods (s : State) (f : XkFrame) : List (List Int) :=
  let g := levelFactor (regBits s 0x900C 8 5)
  let codes := carrierCodes (frameMap s f)
  let points : List (List Cx) := match frameSymbols s f with
    | h :: b => symbolPoints (carrierCodes none) h :: b.map (symbolPoints codes)
    | [] => []
  points.map fun v => (signalOf v).map (fxMul g)

/-- The symbols of a frame in which a sample is limited (R822). -/
def frameClips (s : State) (f : XkFrame) : Nat := (framePeriods s f).countP fun x => x.any beyond

/-- The codes of a frame at the transmit converter, first to last (R769). -/
def frameSamples (s : State) (f : XkFrame) : List (BitVec 12) :=
  let g := fxMul (levelFactor (regBits s 0x900C 8 5))
  let tr := rampNs s
  let ps := framePeriods s f
  let cp := if s.xk.cp then 256 else 128
  let symbols := match ps with
    | h :: b => withPrefix 256 h ++ b.flatMap (withPrefix cp)
    | [] => []
  let training := (natsFrom 0 10).flatMap fun _ => shortPattern.map g
  let long := longSignal.map g
  ((rampUp tr).map g ++ training ++ (long.drop 768 ++ long ++ long) ++ symbols ++ rampDown tr (ps.getLastD [])).map dacCode

end Sys2Proof.Machine
end

