-- ==== Sys2Proof/Machine/XkNet.lean ====
section
/-! DEFINITION. The Xanik network layer: membership and PRESENT (R829, R830, R851 to R855), cycles and beacons (R831 to
R838), slots and the transmitter (R819, R820, R825, R839 to R842), sequence numbers and acknowledgement (R845 to R850). -/

namespace Sys2Proof.Machine

open Sys2Proof

/-! ## Membership -/

/-- A switchable domain that is no bank group. -/
def domOf (s : State) (n : Nat) : Domain := tabGet {} s.pwr.doms n
def domPut (n : Nat) (d : Domain) (s : State) : State := { s with pwr := { s.pwr with doms := tabPut {} s.pwr.doms n d } }

/-- Is a domain ON, and in no transition? -/
def domOn (s : State) (n : Nat) : Bool := (domOf s n).on && (domOf s n).trans.isNone

/-- The Xanik front end is ON (R764). -/
def xkOn (s : State) : Bool := domOn s 95

/-- The nodes of a mask, ascending. -/
def nodesOf (m : Nat) : List Nat := (natsFrom 0 16).filter (bitAt m)
def maskOf (l : List Nat) : Nat := (natsFrom 0 16).foldl (fun m n => if l.contains n then m + 2 ^ n else m) 0

/-- Give its result to every XK_SOUND that awaits no node any more (R870). -/
def soundEnd (q : Sounding) (s : State) : State :=
  let rate := (nodesOf q.maps).foldl (fun (m : Option Nat) n =>
    let r := mapKbps (((peerOf s n).txMaps.head?).map (·.2)) s.xk.cp
    some (match m with | some x => min x r | none => r)) none
  longDoneAt q.cmd 0 0 (leBytes 2 q.maps ++ [0, 0] ++ leBytes 4 (rate.getD 0)) s
def soundCheck (s : State) : State :=
  let ended (q : Sounding) : Bool := q.wait.isEmpty
  (s.xk.soundings.filter ended).foldl (fun s' q => soundEnd q s')
    (xkMod (fun x => { x with soundings := x.soundings.filter fun q => !ended q }) s)

/-- A node answers, or is gone. -/
def soundFrom (n maps : Nat) (s : State) : State :=
  let f (q : Sounding) : Sounding :=
    if q.wait.contains n then { q with wait := q.wait.erase n, maps := q.maps + maps } else q
  soundCheck (xkMod (fun x => { x with soundings := x.soundings.map f }) s)

/-- Every XK_MODEL_BCAST completes that waits for no recipient any more (R866). -/
def bcastCheck (s : State) : State :=
  let ended (b : BcastTx) : Bool := b.waiting.isEmpty
  (s.xk.bcastTx.filter ended).foldl (fun s' b => longDoneAt b.cmd 0 0 (leBytes 2 b.loaded ++ leBytes 2 b.failed) s')
    (xkMod (fun x => { x with bcastTx := x.bcastTx.filter fun b => !ended b }) s)

/-- Recipient n of the transfers that `p` names goes into FAILED, or into LOADED. -/
def bcastReport (p : BcastTx → Bool) (n : Nat) (ok : Bool) (s : State) : State :=
  let f (b : BcastTx) : BcastTx :=
    if p b && b.waiting.contains n then
      { b with waiting := b.waiting.erase n, loaded := if ok then b.loaded + 2 ^ n else b.loaded,
               failed := if ok then b.failed else b.failed + 2 ^ n }
    else b
  bcastCheck (xkMod (fun x => { x with bcastTx := x.bcastTx.map f }) s)

/-- Nothing more can be had from node n (R855): outstanding requests end, far ones with DECERR, a relay with FAULT;
frames to it and what is held from it go. -/
def nodeGone (n : Nat) (s : State) : State :=
  let rs := s.xk.relays.filter fun r => decide (r.2.1 = n)
  let s := xkMod (fun x => { x with relays := x.relays.filter fun r => decide (r.2.1 ≠ n) }) s
  let s := rs.foldl (fun s' r => longDoneAt r.1 0x40 0 [] s') s
  let s := peerMod n (fun p => { p with txStarted := false, out := [], rxValid := false, held := [], retryRun := 0,
                                        missed := 0, heard := false }) s
  let s := xkMod (fun x => { x with queue := x.queue.filter fun f => decide (f.dest ≠ n),
                                    txQueue := x.txQueue.filter fun f => decide (f.frame.dest ≠ n) }) s
  let s := bcastReport (fun _ => true) n false (soundFrom n 0 s)
  if s.xk.far.any fun w => decide (w.node = n) then schedTick (farComplete (fun w => decide (w.node = n)) 1 [] s) else s

/-- The nodes whose bit differs in a new PRESENT. -/
def presentChanges (s : State) (new : Nat) : List Nat := (natsFrom 0 16).filter fun n => bitAt s.xk.present n != bitAt new n

/-- PRESENT takes a new value: MEMBER_CHANGE for each node that changed, this one too (R855).
(DEDUCED, log entry 56) -/
def presentIs (new : Nat) (s : State) : State :=
  (presentChanges s new).foldl (fun s' n => xkEvent 2 n s') (xkMod (fun x => { x with present := new }) s)

/-- PRESENT takes a new value; each other node that changed ends what was outstanding (R855). -/
def xkPresent (new : Nat) (s : State) : State :=
  let ch := (presentChanges s new).erase s.xk.node
  let s := xkMod (fun x => { x with leavers := maskOf ((nodesOf x.leavers).filter (bitAt new)) }) (presentIs new s)
  ch.foldl (fun s' n => nodeGone n s') s

/-- This node's own membership ends: everything it waited for ends, collectives complete locally (R863). -/
def xkOut (st : XkNet) (s : State) : State :=
  let others := (nodesOf s.xk.present).erase s.xk.node
  let s := xkMod (fun x => { x with net := st, txQueue := [], queue := [], rounds := [], admits := [] }) s
  let s := others.foldl (fun s' n => nodeGone n s') s
  (s.xk.colls.filter (·.out)).foldl (fun s' l => collAlone l s') s

/-- The master is now another node (R853). -/
def masterIs (n : Nat) (s : State) : State :=
  if s.xk.master = n then s
  else xkMod (fun x => { x with master := n, rounds := [] }) (xkEvent 3 n (regAdd 0x90CC 1 s))

/-- Own node bit. -/
def ownBit (s : State) : Nat := 2 ^ s.xk.node

/-- The next whole k of R831 beyond the present LX. -/
def nextAnchor (s : State) : Nat := lxNow s / (s.xk.cycleLines * 256) + 1

/-- RESULTS of a completed XK_JOIN. -/
def joinDone (s : State) : State :=
  longDone (fun l => l.opcode == 0x0601) 0 0 ([b8 s.xk.master, 0] ++ leBytes 2 s.xk.present) s

/-- This node becomes master of a segment with these nodes (R851, R853). (DEDUCED, log entry 56) -/
def becomeMaster (present : Nat) (s : State) : State :=
  let was := xkJoined s
  let s := xkMod (fun x => { x with net := .master, eligibles := x.eligibles ||| ownBit s, admits := [], rounds := [] }) s
  let s := if was then masterIs s.xk.node s else xkMod (fun x => { x with master := x.node }) (xkEvent 0 s.xk.node s)
  xkPresent present (xkMod (fun x => { x with anchor := nextAnchor s }) s)

/-! ## Sequence numbers (R845 to R850) -/

/-- Is a frame type acknowledged (R844)? -/
def acked (kind : Nat) : Bool := kind == 4 || kind == 5 || kind == 6 || (9 ≤ kind && kind ≤ 12)

/-- Deliver the held frames that follow in order. The first argument bounds them. -/
def rxDrain (deliver : Nat → Nat → List Byte → State → State) (src : Nat) : Nat → State → State
  | 0, s => s
  | f + 1, s =>
    let p := peerOf s src
    match tabGet? p.held p.rxNext with
    | some (kind, body) =>
      let s := peerMod src (fun p => { p with rxNext := (p.rxNext + 1) % 4096, held := tabDel p.held p.rxNext }) s
      rxDrain deliver src f (deliver kind src body s)
    | none => s

/-- An acknowledged frame arrives (R847): accepted within the window and delivered in SEQ order, or a duplicate.
(DEDUCED, log entry 55) -/
def rxFrame (deliver : Nat → Nat → List Byte → State → State) (src seq kind : Nat) (body : List Byte) (s : State) : State :=
  let p := peerOf s src
  if (seq + 4096 - p.rxNext) % 4096 < 64 then
    let s := peerMod src (fun p => { p with rxValid := true, rx := satAdd 0xFFFFFFFF p.rx 1,
                                            held := tabSet p.held seq (kind, body) }) s
    rxDrain deliver src 64 s
  else s

/-- Is a frame acknowledged by a STATUS entry (R849)? -/
def ackedBy (rxNext rxMap seq : Nat) : Bool :=
  let d := (rxNext + 4096 - seq) % 4096
  let e := (seq + 4096 - rxNext) % 4096
  (0 < d && d ≤ 64) || (1 ≤ e && e ≤ 16 && bitAt rxMap (e - 1))

/-- A STATUS entry for this node (R846, R848, R849). (DEDUCED, log entry 55) -/
def statusEntry (deliver : Nat → Nat → List Byte → State → State) (src e : Nat) (s : State) : State :=
  let next := bitsOf e 0 12
  let map := bitsOf e 12 16
  let base := bitsOf e 32 12
  let s := if bitAt e 28 then
      peerMod src (fun p =>
        let clean := p.out.any fun f => ackedBy next map f.seq && decide (f.retries = 0)
        { p with out := p.out.filter fun f => !ackedBy next map f.seq, retryRun := if clean then 0 else p.retryRun }) s
    else s
  if !bitAt e 29 then s
  else
    let p := peerOf s src
    let d := (base + 4096 - p.rxNext) % 4096
    if !p.rxValid then
      rxDrain deliver src 64 (peerMod src (fun p => { p with rxNext := base, rxValid := true }) s)
    else if d = 0 || 64 < d then s
    else
      let gap := (natsFrom 0 d).filter fun i => (tabGet? p.held ((p.rxNext + i) % 4096)).isNone
      let s := regAdd 0x90D8 gap.length s
      let run := (natsFrom 0 d).filterMap fun i => tabGet? p.held ((p.rxNext + i) % 4096)
      let h := (natsFrom 0 d).foldl (fun h i => tabDel h ((p.rxNext + i) % 4096)) p.held
      let s := peerMod src (fun p => { p with rxNext := base, held := h }) s
      rxDrain deliver src 64 (run.foldl (fun s' f => deliver f.1 src f.2 s') s)

/-- A received STATUS frame. (DEDUCED, log entry 55) -/
def statusRx (deliver : Nat → Nat → List Byte → State → State) (src : Nat) (payload : List Byte) (s : State) : State :=
  if !xkJoined s || src = s.xk.node then s
  else statusEntry deliver src (leAt payload (8 * s.xk.node) 8) (peerMod src (fun p => { p with heard := true }) s)

/-- This node's STATUS body (R846). -/
def statusBody (s : State) : List Byte :=
  (natsFrom 0 16).foldr (fun n l =>
    let p := peerOf s n
    let map := (natsFrom 0 16).foldl (fun m i =>
      if (tabGet? p.held ((p.rxNext + 1 + i) % 4096)).isSome then m + 2 ^ i else m) 0
    let base := match p.out with | f :: _ => f.seq | [] => p.txNext
    let other := n ≠ s.xk.node && bitAt s.xk.present n
    (if other then leBytes 8 (p.rxNext + atBit map 12 + atBit (b2n p.rxValid) 28 + 2 ^ 29 + atBit base 32)
     else List.replicate 8 0) ++ l) []

/-! ## Cycles and beacons (R831 to R838) -/

/-- Present nodes, and the end of a cycle's schedule (R832). -/
def xkCount (s : State) : Nat := (nodesOf s.xk.present).length
def schedEnd (s : State) (c : Nat) : Nat := c + 65000 + xkCount s * s.xk.slotUs * 1000

/-- SLOT_US (R838) for P nodes, with v at an instant. -/
def slotUsAt (s : State) (p t : Nat) (moving : Bool) : Nat :=
  let v := velAt s.lt (masterScale s) t
  let us : Int := if !moving then ((s.xk.stopPeriod : Int) - 65) / (p : Int)
    else if v.1 = 0 then 1000
    else (15 * 4096 * (s.xk.cycleLines : Int) * (v.2 : Int) - 65000 * (v.1.natAbs : Int)) / ((v.1.natAbs : Int) * 1000 * (p : Int))
  if us < 45 then 45 else if us > 1000 then 1000 else us.toNat

/-- One more cycle has passed for every other present node (R855). -/
def missedTick (s : State) : State :=
  ((nodesOf s.xk.present).erase s.xk.node).foldl (fun s' n =>
    peerMod n (fun p => { p with missed := if p.heard then 0 else p.missed + 1, heard := false }) s') s

/-- The lowest eligible node of a mask, as far as this node knows. -/
def lowestEligible (s : State) (m : Nat) : Option Nat := (nodesOf m).find? (bitAt s.xk.eligibles)

/-- The beacon payload (R835, R836). (DEDUCED, log entry 56) -/
def beaconBody (s : State) (t slot : Nat) (timeMode : Bool) (newNode succ : Option Nat) (present : Nat) : List Byte :=
  let ref := t + rampNs s + 6144
  let press := match s.lt.press with | .stopped => 0 | .forward => 1 | .reverse => 2
  leBytes 4 s.xk.cycle ++ leBytes 8 ref ++ leBytes 8 (posAt s.lt (masterScale s) ref / 256 % 2 ^ 56) ++
    leBytes 4 s.lt.repeatCount.toNat ++ leBytes 2 present ++ leBytes 2 slot ++
    [b8 (press + atBit (b2n timeMode) 2), b8 (newNode.getD 255), b8 (succ.getD 255), 0]

/-- XK_LEAVE will be done at an instant (R855). -/
def leaveDue (u : Nat) (s : State) : State :=
  let s := longDone (fun l => l.opcode == 0x0602) 0 0 [] s
  let f (e : Nat × LongCmd) : Nat × LongCmd := if e.2.opcode = 0x0602 then (e.1, { e.2 with deadline := some u }) else e
  { s with sup := { s.sup with longs := s.sup.longs.map f } }

/-- The master starts a cycle at C = t (R831 to R838, R852 to R855). -/
def cycleBegin (moving : Bool) (t : Nat) (s : State) : State :=
  let first := s.xk.lastC.isNone
  let s := if first then s else missedTick s
  let gone := ((nodesOf s.xk.present).erase s.xk.node).filter fun n =>
    decide (8 ≤ (peerOf s n).missed) || bitAt s.xk.leavers n
  let adm := s.xk.admits.head?
  let stay := (nodesOf s.xk.present).filter fun n => !gone.contains n && !(s.xk.leaving && decide (n = s.xk.node))
  let present := maskOf (match adm with | some a => a.1 :: stay | none => stay)
  let elig := match adm with
    | some a => if a.2 then s.xk.eligibles ||| 2 ^ a.1 else s.xk.eligibles
    | none => s.xk.eligibles
  let s := xkMod (fun x => { x with admits := x.admits.drop 1, eligibles := elig }) s
  let succ := if s.xk.leaving then lowestEligible s present
    else match adm with
      | some a => if a.2 && a.1 < s.xk.node then some a.1 else none
      | none => none
  let leaving := s.xk.leaving
  let s := xkPresent present s
  let slot := slotUsAt s (max 1 (xkCount s)) (t + rampNs s + 6144) moving
  let s := xkMod (fun x => { x with
    cycle := (x.cycle + 1) % 2 ^ 32, interval := match x.lastC with | some c => t - c | none => x.interval,
    lastC := some t, slotUs := slot, timeMode := !moving, anchor := nextAnchor s, succ := succ,
    newNode := adm.map (·.1) }) s
  let body := beaconBody s t slot (!moving) (adm.map (·.1)) succ present
  let tx : XkTx := { start := t, limit := t + 35000, frame := { dest := 16, kind := 0, seq := 0, body := body } }
  let s := evPulse 160 s
  let s := if leaving then xkOut .detached (xkMod (fun x => { x with leaving := false }) (leaveDue (schedEnd s t) s))
    else match succ with
      | some n => masterIs n (xkMod (fun x => { x with net := .member }) s)
      | none => s
  xkMod (fun x => { x with txQueue := tx :: x.txQueue }) s

/-- CYCLE_START: at an anchor of the line index, or by time (R831, R832). -/
def cycleStart (t : Nat) (s : State) : State :=
  let s := timeTo t s
  if !(s.xk.net == .master && xkOn s) then s
  else
    let moving := s.lt.press == .forward && !s.lt.behind
    let endd := match s.xk.lastC with | some c => schedEnd s c | none => 0
    if moving then
      if lxNow s < s.xk.anchor * s.xk.cycleLines * 256 then s
      else if t < endd then
        xkMod (fun x => { x with anchor := nextAnchor s }) (xkEvent 4 s.xk.node (regAdd 0x90C8 1 s))
      else cycleBegin true t s
    else
      let due := match s.xk.lastC with | some c => max (c + s.xk.stopPeriod * 1000) endd | none => 0
      if t < due then s else cycleBegin false t s

def execCycleStart (t : Nat) (s : State) : Host.Outcome State Fault Refusal := done (cycleStart t s)

/-- The retry delay of R852: the generator advances 16 steps; d comes from its low bits. (PRESUMED, log entry 54) -/
def lfsr16 : Nat → Nat → Nat
  | 0, l => l
  | n + 1, l => lfsr16 n (l / 2 + 2 ^ 15 * (bitsOf l 0 1 ^^^ bitsOf l 2 1 ^^^ bitsOf l 3 1 ^^^ bitsOf l 5 1))

/-- A JOINING node saw a beacon without its bit: JOIN again, 1 + d cycles after the one that failed. -/
def joinRetry (s : State) : State :=
  let l := lfsr16 16 s.xk.lfsr
  let w := 2 ^ min 4 s.xk.joinTries
  xkMod (fun x => { x with lfsr := l, joinCycle := some ((x.cycle + l % w) % 2 ^ 32) }) s

/-- What a beacon says, recorded (R837, R834). -/
def beaconRecord (src : Nat) (p : List Byte) (stamp : Nat) (s : State) : State :=
  let c := stamp - (rampNs s + 6144)
  let s := regSet 0x90AC (w32 (leAt p 0x10 4 % 2 ^ 24)) (regSet 0x90A8 (w32 (leAt p 0x0C 4))
    (regSet 0x909C (w32 (leAt p 8 4)) (regSet 0x9098 (w32 (leAt p 4 4))
    (regSet 0x90A4 (w32 (stamp / 2 ^ 32)) (regSet 0x90A0 (w32 stamp) s)))))
  let succ := leAt p 0x1E 1
  let s := xkMod (fun x => { x with
    cycle := leAt p 0 4, interval := match x.lastC with | some l => c - l | none => x.interval, lastC := some c,
    slotUs := leAt p 0x1A 2, timeMode := bitAt (leAt p 0x1C 1) 2, succ := if succ < 16 then some succ else none,
    eligibles := x.eligibles ||| 2 ^ src }) s
  evPulse 161 (evPulse 160 s)

/-- The cycle in which LEAVE went out has ended: the node is out (R855). -/
def leaveEnd (s : State) : State :=
  if s.xk.leaving && bitAt s.xk.leavers s.xk.node then
    xkOut .detached (xkMod (fun x => { x with leaving := false, leavers := 0 }) s)
  else s

/-- The beacon of the master this node follows. (DEDUCED, log entry 56) -/
def beaconFollow (src : Nat) (p : List Byte) (s : State) : State :=
  let present := leAt p 0x18 2
  let mine := bitAt present s.xk.node
  if s.xk.net == .listen then
    if mine then
      longDone (fun l => l.opcode == 0x0601) 0x40 1 [] (xkMod (fun x => { x with net := .detached }) (presentIs present s))
    else
      xkMod (fun x => { x with net := .joining, master := src, joinTries := 0, joinCycle := some x.cycle }) (presentIs present s)
  else if s.xk.net == .joining then
    let s := xkPresent present (xkMod (fun x => { x with master := src }) s)
    if mine then joinDone (xkEvent 0 s.xk.node (xkMod (fun x => { x with net := .member, joinCycle := none }) s))
    else if s.xk.joinCycle.isNone then joinRetry s else s
  else if s.xk.leaving && bitAt s.xk.leavers s.xk.node then presentIs present (leaveEnd s)
  else if !mine then
    let s := presentIs present (xkOut .joining (xkEvent 1 s.xk.node s))
    xkMod (fun x => { x with master := src, joinTries := 0, joinCycle := some x.cycle }) s
  else
    let s := xkPresent present (masterIs src s)
    if s.xk.succ = some s.xk.node then becomeMaster present s else s

/-- A beacon is accepted (R834, R837, R851 to R855). -/
def beaconRx (src : Nat) (p : List Byte) (stamp : Nat) (s : State) : State :=
  let s := timeTo stamp s
  if !xkOn s || s.xk.net == .detached || src = s.xk.node then s
  else if s.xk.net == .master then
    if s.xk.node < src then s
    else
      let s := masterIs src (xkOut .listen (beaconRecord src p stamp s))
      beaconFollow src p s
  else beaconFollow src p (beaconRecord src p stamp s)

def execBeacon (src : Fin 16) (payload : List Byte) (stamp : Nat) (s : State) : Host.Outcome State Fault Refusal :=
  done (beaconRx src.val payload stamp s)

/-- JOIN reaches the master (R852). (DEDUCED, log entry 56) -/
def joinRx (src : Nat) (eligible : Bool) (s : State) : State :=
  if s.xk.net == .master && xkOn s && !bitAt s.xk.present src && !(s.xk.admits.any fun a => decide (a.1 = src)) then
    xkMod (fun x => { x with admits := x.admits ++ [(src, eligible)] }) s
  else s

def execJoin (src : Fin 16) (eligible : Bool) (s : State) : Host.Outcome State Fault Refusal :=
  done (joinRx src.val eligible s)

/-- LEAVE: the node is out of PRESENT from the next beacon on (R855). (DEDUCED, log entry 56) -/
def leaveRx (src : Nat) (s : State) : State :=
  if xkJoined s && bitAt s.xk.present src && src ≠ s.xk.node then xkMod (fun x => { x with leavers := x.leavers ||| 2 ^ src }) s else s

def execLeave (src : Fin 16) (s : State) : Host.Outcome State Fault Refusal := done (leaveRx src.val s)

/-- LISTEN_TIMEOUT (R851): an eligible node that heard no beacon becomes MASTER alone. -/
def listenTimeout (t : Nat) (s : State) : State :=
  let s := timeTo t s
  if s.xk.net == .listen && s.xk.eligible && decide (s.xk.listenEnd ≤ t) then
    joinDone (becomeMaster (ownBit s) (presentIs (ownBit s) (xkMod (fun x => { x with lastC := none }) s)))
  else s

def execListenTimeout (t : Nat) (s : State) : Host.Outcome State Fault Refusal := done (listenTimeout t s)

/-- JOIN_TIMEOUT (R851). -/
def joinTimeout (t : Nat) (s : State) : State :=
  let s := timeTo t s
  let due := s.sup.longs.any fun e => decide (e.2.opcode = 0x0601) && e.2.done.isNone &&
    (match e.2.deadline with | some d => decide (d ≤ t) | none => false)
  if due && (s.xk.net == .listen || s.xk.net == .joining) then
    longDone (fun l => l.opcode == 0x0601) 0x40 2 [] (xkOut .detached s)
  else s

def execJoinTimeout (t : Nat) (s : State) : Host.Outcome State Fault Refusal := done (joinTimeout t s)

/-- BEACON_LOSS (R853, R854): the master is silent. -/
def beaconLoss (t : Nat) (s : State) : State :=
  let s := timeTo t s
  match s.xk.lastC with
  | none => s
  | some c =>
    let rest := maskOf (((nodesOf s.xk.present).erase s.xk.master).filter fun n => !bitAt s.xk.leavers n)
    let heir := lowestEligible (xkMod (fun x => { x with eligibles := if x.eligible then x.eligibles ||| ownBit s else x.eligibles }) s) rest
    if s.xk.net == .member && decide (c + max (3 * s.xk.interval) 3000000 ≤ t) && decide (heir = some s.xk.node) then
      becomeMaster rest s
    else s

def execBeaconLoss (t : Nat) (s : State) : Host.Outcome State Fault Refusal := done (beaconLoss t s)

/-! ## Slots (R839 to R842, R850, R871) -/

/-- The bounds of this node's slot. -/
def slotWindow (s : State) : Option (Nat × Nat) :=
  match s.xk.lastC with
  | none => none
  | some c =>
    let ps := nodesOf s.xk.present
    if ps.contains s.xk.node then
      let a := c + 35000 + (ps.filter fun n => decide (n < s.xk.node)).length * s.xk.slotUs * 1000
      some (a, a + s.xk.slotUs * 1000)
    else none

/-- Place in the service order of R841; LEAVE goes before new frames. -/
def serviceOf (kind : Nat) : Nat := ([15, 0, 14, 1, 5, 4, 3, 2, 11, 10, 7, 6, 8, 9].getD kind 15)

/-- A frame put in by service order, after those of its own service. -/
def serviceInsert (f : XkFrame) : List XkFrame → List XkFrame
  | [] => [f]
  | g :: t => if serviceOf f.kind < serviceOf g.kind then f :: g :: t else g :: serviceInsert f t

/-- Ask for one frame at `u` if it fits the window that ends at `e` (R840): the next instant. (DEDUCED, log entry 55) -/
def askFrame (e : Nat) (f : XkFrame) (q : State × Nat) : Option (State × Nat) :=
  let a := frameAir q.1 f + gapNs q.1
  if q.2 + a ≤ e then
    some (xkMod (fun x => { x with txQueue := x.txQueue ++ [{ start := q.2, limit := e, frame := f }] }) q.1, q.2 + a)
  else none

/-- Frames outstanding to a peer, with those asked for (R849). -/
def outTo (s : State) (n : Nat) : Nat :=
  (peerOf s n).out.length +
    (s.xk.txQueue.filter fun x => decide (x.frame.dest = n) && acked x.frame.kind && decide (x.frame.retries = 0)).length

/-- One frame of a peer's window was not acknowledged: a retry, or dropped after the third (R850). -/
def retryOne (e n : Nat) (f : XkFrame) (q : State × Nat) : State × Nat :=
  if 3 ≤ f.retries then
    (peerMod n (fun p => { p with out := p.out.filter fun g => decide (g.seq ≠ f.seq),
                                  nDropped := satAdd 0xFFFFFFFF p.nDropped 1 })
      (xkEvent 5 n (regAdd 0x90C4 1 q.1)), q.2)
  else (askFrame e { f with retries := f.retries + 1 } q).getD q

/-- A frame of a peer needs its first retry: after four in a row the map is discarded and the peer sounded (R871). -/
def retryCount (n : Nat) (s : State) : State :=
  let p := peerOf s n
  if p.retryRun < 3 then peerMod n (fun p => { p with retryRun := p.retryRun + 1 }) s
  else xkSend n 13 [] (peerMod n (fun p => { p with retryRun := 0, txMaps := [] }) s)

/-- The frames of a peer not acknowledged by the start of the slot, in SEQ order. -/
def retryPeer (e n : Nat) (q : State × Nat) : State × Nat :=
  let late := (peerOf q.1 n).out.filter fun f => decide (f.sent ≠ q.1.xk.cycle)
  let s := (late.filter fun f => decide (f.retries = 0)).foldl (fun s' _ => retryCount n s') q.1
  late.foldl (fun q f => retryOne e n f q) (s, q.2)

/-- New frames in service order, each if it fits. (DEDUCED, log entry 55) -/
def newFrames (e : Nat) : List XkFrame → State × Nat → State × Nat
  | [], q => q
  | f :: t, q =>
    let keep (q : State × Nat) : State × Nat := (xkMod (fun x => { x with queue := x.queue ++ [f] }) q.1, q.2)
    if acked f.kind && decide (64 ≤ outTo q.1 f.dest) then newFrames e t (keep q)
    else match askFrame e f q with
      | some q' => newFrames e t q'
      | none => newFrames e t (keep q)

/-- A fragment of the model broadcast (R865). -/
def bcastFrame (b : BcastTx) (off : Nat) : XkFrame :=
  { dest := 16, kind := 8, seq := 0,
    body := leBytes 2 b.xfer ++ [0, 0] ++ leBytes 4 off ++ leBytes 4 b.data.length ++ [0, 0, 0, 0] ++
      (b.data.drop off).take b.frag }

/-- An offset takes its place in a rising list. -/
def offInsert (o : Nat) : List Nat → List Nat
  | [] => [o]
  | q :: t => if o ≤ q then o :: q :: t else q :: offInsert o t

/-- A transfer whose fragments are all out starts a round of resending what was reported missing (R865).
(DEDUCED, log entry 58) -/
def bcastRound (b : BcastTx) : BcastTx :=
  if b.queue.isEmpty && !b.missing.isEmpty && decide (b.round < 3) then
    { b with queue := b.missing.foldl (fun l o => offInsert o l) [], missing := [], round := b.round + 1 }
  else b

/-- Fragments of one transfer, as long as they fit. -/
def bcastOne (e : Nat) (b : BcastTx) : List Nat → State × Nat → State × Nat
  | [], q => (xkMod (fun x => { x with bcastTx := x.bcastTx ++ [{ b with queue := [] }] }) q.1, q.2)
  | off :: t, q =>
    match askFrame e (bcastFrame b off) q with
    | some q' => bcastOne e b t q'
    | none => (xkMod (fun x => { x with bcastTx := x.bcastTx ++ [{ b with queue := off :: t }] }) q.1, q.2)

/-- Fragments of the model broadcasts, oldest transfer first. -/
def bcastFrames (e : Nat) (q : State × Nat) : State × Nat :=
  let bs := q.1.xk.bcastTx.map bcastRound
  bs.foldl (fun q b => bcastOne e b b.queue q) (xkMod (fun x => { x with bcastTx := [] }) q.1, q.2)

/-- The results a master broadcasts in this slot (R862): rounds of cycle now − 2 and now − 3. The first copy is also the
master's own result. -/
def roundSend (s : State) : State :=
  let age (r : CollRound) : Nat := (s.xk.cycle + 2 ^ 32 - r.cycle) % 2 ^ 32
  let due := s.xk.rounds.filter fun r => decide (2 ≤ age r)
  due.foldl (fun s' r =>
    let d := roundResult r
    let m := roundMask r
    let s' := (collBodies r.key r.op r.int32 r.bytes m d).foldl (fun s'' b => xkSend 16 7 b s'') s'
    let r' := { r with closed := true, copies := r.copies + 1 }
    let put (q : CollRound) : List CollRound := if q = r then (if r'.copies < 2 then [r'] else []) else [q]
    let s' := xkMod (fun x => { x with rounds := x.rounds.flatMap put }) s'
    if r.copies = 0 then collResultFor r.key d m s' else s') s

/-- SLOT_START (R841). -/
def slotStart (t : Nat) (s : State) : State :=
  let s := timeTo t s
  match slotWindow s with
  | none => s
  | some (a, e) =>
    if !(xkJoined s && xkOn s) || decide (t < a) || decide (e ≤ t) || s.xk.slotCycle == some s.xk.cycle then s
    else
      let s := xkMod (fun x => { x with slotCycle := some x.cycle }) s
      let s := if s.xk.net == .master then roundSend s else s
      let st : XkFrame := { dest := 16, kind := 1, seq := 0, body := statusBody s }
      let q := (askFrame e st (s, t)).getD (s, t)
      let q := ((nodesOf s.xk.present).erase s.xk.node).foldl (fun q n => retryPeer e n q) q
      let s := q.1
      let s := if s.xk.leaving && s.xk.net == .member then
          let c := s.xk.lastC.getD 0
          xkSend 16 3 [] (xkMod (fun x => { x with leavers := ownBit s }) (leaveDue (schedEnd s c) s))
        else s
      let fs := s.xk.queue.foldl (fun l f => serviceInsert f l) []
      let q := newFrames e fs (xkMod (fun x => { x with queue := [] }) s, q.2)
      (bcastFrames e q).1

def execSlotStart (t : Nat) (s : State) : Host.Outcome State Fault Refusal := done (slotStart t s)

/-- JOIN_WINDOW (R839, R852). -/
def joinWindow (t : Nat) (s : State) : State :=
  let s := timeTo t s
  match s.xk.lastC, s.xk.joinCycle with
  | some c, some j =>
    let a := c + 35000 + xkCount s * s.xk.slotUs * 1000
    if s.xk.net == .joining && xkOn s && decide (j = s.xk.cycle) && decide (a ≤ t) then
      let f : XkFrame := { dest := s.xk.master, kind := 2, seq := 0, body := [] }
      match askFrame (a + 30000) f (s, t) with
      | some q =>
        let s := if s.xk.joinTries = 0 then q.1 else regAdd 0x90D4 1 q.1
        xkMod (fun x => { x with joinTries := x.joinTries + 1, joinCycle := none }) s
      | none => s
    else s
  | _, _ => s

def execJoinWindow (t : Nat) (s : State) : Host.Outcome State Fault Refusal := done (joinWindow t s)

/-! ## The transmitter (R819 to R826) -/

/-- The window was missed: the frames of the slot go back to wait for the next one (R841); STATUS, a beacon, a JOIN and
retries are formed anew. -/
def txReturn (s : State) : State :=
  let back := s.xk.txQueue.filterMap fun x =>
    if x.frame.kind ≤ 2 || decide (0 < x.frame.retries) then none else some x.frame
  xkMod (fun x => { x with txQueue := [], queue := back ++ x.queue }) s

/-- What the services note when a frame of theirs goes out for the first time. -/
def txNote (f : XkFrame) (s : State) : State :=
  let c := s.xk.cycle
  if f.kind = 4 then
    let tag := leAt f.body 1 1
    let mark (w : FarWait) : FarWait := if w.id = some tag ∧ w.cycle.isNone then { w with cycle := some c } else w
    xkMod (fun x => { x with far := x.far.map mark }) s
  else if f.kind = 6 then
    let key := leAt f.body 0 8 * 256 + leAt f.body 8 1
    let mark (l : CollLocal) : CollLocal := if l.key = key ∧ l.out ∧ l.sent.isNone then { l with sent := some c } else l
    xkMod (fun x => { x with colls := x.colls.map mark }) s
  else if f.kind = 8 then
    let mark (b : BcastTx) : BcastTx := if b.xfer = leAt f.body 0 2 then { b with lastCycle := c } else b
    xkMod (fun x => { x with bcastTx := x.bcastTx.map mark }) s
  else if f.kind = 10 then
    let mark (r : Nat × Nat × Nat) : Nat × Nat × Nat := if r.2.1 = f.dest then (r.1, r.2.1, c) else r
    xkMod (fun x => { x with relays := x.relays.map mark }) s
  else if f.kind = 13 then
    let mark (q : Sounding) : Sounding := if q.dest = f.dest then { q with cycle := c } else q
    xkMod (fun x => { x with soundings := x.soundings.map mark }) s
  else s

/-- The frame leaves at t; its symbols with a limited sample are counted (R822). -/
def txSend (f : XkFrame) (t : Nat) (s : State) : State :=
  let new := acked f.kind && decide (f.retries = 0)
  let seq := if new then (peerOf s f.dest).txNext else if 16 ≤ f.dest then s.xk.bcastSeq else f.seq
  let f := { f with seq := seq, sent := s.xk.cycle }
  let s := if new then
      txNote f (peerMod f.dest (fun p => { p with txNext := (p.txNext + 1) % 4096, txStarted := true, out := p.out ++ [f] }) s)
    else if acked f.kind then
      regAdd 0x90C0 1 (peerMod f.dest (fun p => { p with
        out := p.out.map fun g => if g.seq = f.seq then f else g, nRetries := satAdd 0xFFFFFFFF p.nRetries 1 }) s)
    else txNote f s
  let s := if f.dest < 16 then peerMod f.dest (fun p => { p with tx := satAdd 0xFFFFFFFF p.tx 1 }) s
    else xkMod (fun x => { x with bcastSeq := (x.bcastSeq + 1) % 4096 }) s
  let s := emit (.xanik f.dest f.kind seq t
    (frameHeader s f ++ f.body ++ (if f.body.isEmpty then [] else leBytes 4 (crc32c f.body))) (frameSamples s f)) s
  let clip := frameClips s f
  let s := if clip = 0 then s else regAdd 0x9060 clip (regOr 0x9004 0x80 s)
  let e := t + rampNs s + frameAir s f
  regAdd 0x9040 1 (xkMod (fun x => { x with rx := .transmit, hdr := none, frozen := false, stamp := none, qualAt := none,
                                            lastEnd := some e, txStart := t, txEnd := e + rampNs s + 1000 }) s)

/-- FRAME_START: the next frame asked for starts, is deferred, or misses its window (R819, R820, R825, R826). -/
def frameStart (t : Nat) (s : State) : State :=
  let s := timeTo t s
  match s.xk.txQueue with
  | [] => s
  | q :: rest =>
    let wait (u : Nat) (s : State) : State :=
      if u + frameAir s q.frame + gapNs s ≤ q.limit then
        xkMod (fun x => { x with txQueue := { q with start := u } :: rest }) s
      else txReturn s
    let free := match s.xk.lastEnd with | some e => e + rampNs s + 2000 | none => 0
    if !xkOn s || decide (t < q.start) then s
    else if t < free then wait free s
    else if s.xk.rx == .receive || s.xk.rx == .busy then
      wait (max t (s.xk.rxEnd + rampNs s + 2000)) (regAdd 0x9064 1 (regOr 0x9004 0x40 s))
    else if q.limit < t + frameAir s q.frame + gapNs s then txReturn s
    else
      let s := if s.xk.rx == .acquire then regAdd 0x9068 1 (regOr 0x9004 0x20 s) else s
      txSend q.frame t (xkMod (fun x => { x with txQueue := rest }) s)

def execFrameStart (t : Nat) (s : State) : Host.Outcome State Fault Refusal := done (frameStart t s)

/-- GAIN of XK_RX_SET, in 0.5 dB steps. -/
def restGain (s : State) : Nat := 2 * regBits s 0x9010 10 6

/-- The receiver goes back to SEARCH (R800, R802). -/
def toSearch (s : State) : State :=
  xkMod (fun x => { x with rx := .search, gain := restGain s, frozen := false, qualAt := none, stamp := none, hdr := none }) s

/-- TRANSMIT_END (R824). -/
def transmitEnd (t : Nat) (s : State) : State :=
  let s := timeTo t s
  if s.xk.rx == .transmit && decide (s.xk.txEnd ≤ t) then toSearch s else s

def execTransmitEnd (t : Nat) (s : State) : Host.Outcome State Fault Refusal := done (transmitEnd t s)

end Sys2Proof.Machine
end

