-- ==== Sys2Proof/Machine/View.lean ====
section
/-! DEFINITION. What a register reads as: the registers computed from the state of their block, and the read rules of
R40 and R50 to R56. -/

namespace Sys2Proof.Machine

open Sys2Proof

/-- LO and HI words of a value. -/
def halfOf (v : Nat) (hi : Bool) : Word := w32 (if hi then v / 2 ^ 32 else v)

/-- A word from flags and fields: (value, lowest bit). -/
def packed (l : List (Nat × Nat)) : Word := w32 (l.foldl (fun a e => a + e.1 * 2 ^ e.2) 0)

/-! ## Blocks -/

/-- State code of a bank group (DS_GROUPS). -/
def groupCode (g : GroupState) : Nat := match g with | .off => 0 | .retain => 1 | .on => 2 | _ => 3

/-- State code of a core (R366). -/
def coreCode (c : CoreState) : Nat :=
  match c with | .off => 0 | .idle => 1 | .mapped => 2 | .quarantined => 3 | .pending => 4 | .waking => 5

/-- State code of a switchable domain (PWR_DOM_j). -/
def domCode (s : State) (n : Nat) : Nat :=
  if 68 ≤ n ∧ n < 85 then groupCode (groupOf s (n - 68))
  else if (domOf s n).trans.isSome then 3
  else if n < 68 then
    match (tabGet {} s.cores n).state with
    | .off => 0
    | .waking => 3
    | .quarantined => 2 * b2n (domOf s n).on
    | _ => 2
  else 2 * b2n (domOf s n).on

/-- GLB registers that are computed. (DESIGN CHOICE, log entry 68) -/
def viewGlb (s : State) (off : Nat) : Option Word :=
  if off = 0x0C then some (if Config.commercial then 2 else 1)
  else if off = 0x10 then some (packed [(s.xk.node, 0), (b2n (xkJoined s), 8)])
  else if off = 0x40 then some (halfOf Config.uid.toNat false)
  else if off = 0x44 then some (halfOf Config.uid.toNat true)
  else if off = 0x20C then
    let ids := (s.xk.far.filter fun w => !w.write).filterMap (·.id)
    some (packed [(b2n (bitAt (regGet s off).toNat 0), 0), (ids.eraseDups.length, 16)])
  else if off = 0x300 then
    some (packed ((natsFrom 0 8).map fun i =>
      ((match (tabGet {} s.harts i).state with
        | .off => 0 | .reset => 1 | .running => 2 | .haltRequested => 3 | .halted => 4 | .stopped => 5), 4 * i)))
  else if 0x500 ≤ off ∧ off < 0x540 then
    some (packed ((natsFrom 0 4).map fun m =>
      match physCore s (off - 0x500 + m) with | some p => (128 + p, 8 * m) | none => (0, 0)))
  else if 0x540 ≤ off ∧ off < 0x564 then
    some (packed ((natsFrom 0 8).map fun m =>
      let p := 2 * (off - 0x540) + m
      (if p < 68 then coreCode (tabGet {} s.cores p).state else 0, 4 * m)))
  else if off = 0x700 then
    some (packed [((s.ops.filter fun e => e.2.issued).length, 0), ((s.ops.filter fun e => e.2.dst.isSome).length, 16)])
  else if 0x740 ≤ off ∧ off < 0x780 then
    let cs := (off - 0x740) / 4
    if (tabGet? s.coreSets cs).isNone then some 0
    else
      let l := s.sgroups.filter fun e => decide (e.2.cs = cs)
      match (l.find? fun e => e.2.phase != .waiting).orElse fun _ => l.head? with
      | none => some 1
      | some (_, g) =>
        let st := match g.phase with | .waiting => 1 | .running => 2 | .boundary => 3 | .aborting => 4
        match g.task with
        | some t => some (packed [(st, 0), ((t.epochs.filter fun e => e.2 == .open_).length % 256, 8), (t.rep % 65536, 16)])
        | none => some (w32 st)
  else if off = 0x800 then some (packed ((natsFrom 0 16).map fun g => (groupCode (groupOf s g), 2 * g)))
  else if off = 0x804 then
    let mapped := (natsFrom 0 16).foldl (fun m j => if s.bankMap.any (fun e => e.2 = 256 + j) then m + 2 ^ j else m) 0
    some (packed [(groupCode (groupOf s 16), 0), (b2n s.autowake, 3), (b2n s.copy.isSome, 4), (mapped, 16)])
  else if off = 0x830 then some (w32 (s.handles.filter fun e => e.2.valid).length)
  else if off = 0x834 then some (w32 (freeUnits s))
  else if off = 0x838 then some (w32 (largestFree s))
  else none

/-- LT registers that are computed. -/
def viewLt (s : State) (off : Nat) : Option Word :=
  let l := s.lt
  if off = 0x3000 ∨ off = 0x3004 then some (halfOf (lxNow s % 2 ^ 56) (off = 0x3004))
  else if off = 0x3008 ∨ off = 0x300C then some (halfOf s.ts (off = 0x300C))
  else if off = 0x3010 ∨ off = 0x3014 then some (halfOf (l.hwm % 2 ^ 56) (off = 0x3014))
  else if off = 0x3018 then some l.repeatCount
  else if off = 0x3028 then some (velReg s)
  else if off = 0x3030 then
    let press := match l.press with | .stopped => 0 | .forward => 1 | .reverse => 2
    some (packed [(press, 0), (b2n l.behind, 2), (b2n (decide (0 < l.suspect)), 3), (l.master, 4), (b2n l.failover, 6),
      (b2n l.mLock, 8), (b2n (decide (0 < l.mHold)), 9), (l.mHold, 10)])
  else if 0x3040 ≤ off ∧ off < 0x3080 ∧ (off % 16 = 0 ∨ off % 16 = 4) then
    let e := encOf s ((off - 0x3040) / 16)
    if off % 16 = 0 then some e.count
    else some (packed [(e.reject, 0), (e.illegal, 16), (b2n e.a, 24), (b2n e.b, 25), (b2n e.z, 26)])
  else if off = 0x3080 then some (w32 (mainsPhase l s.ts))
  else if off = 0x3084 then some (w32 l.mPeriod)
  else if off = 0x30B0 ∨ off = 0x30B4 then some (halfOf (l.zLatch % 2 ^ 56) (off = 0x30B4))
  else none

/-- SP registers that are computed. -/
def viewSp (s : State) (off : Nat) : Option Word :=
  let n := (off - 0xA000) / 0x400
  let o := off % 0x400
  let p := portOf s n
  if o = 0 then
    let link := match p.link with | .disabled => 0 | .down => 1 | .discovery => 2 | .up => 3 | .degraded => 4
    let run := (natsFrom 0 4).foldl (fun m k => if (streamOf s (4 * n + k)).state == .stopped then m else m + 2 ^ k) 0
    let up := p.conns.foldl (fun m e => if e.2.up then m + 2 ^ e.1 else m) 0
    some (packed [(link, 0), (up, 4), (p.speed, 8), (p.pwrEn, 12), (run, 16)])
  else if o = 4 then
    some (packed (p.conns.map fun e => (e.2.devId + 4 * b2n e.2.master + 8 * b2n e.2.up, 8 * e.1)))
  else if o = 0x100 ∨ o = 0x140 ∨ o = 0x180 ∨ o = 0x1C0 then
    let m := streamOf s (4 * n + (o - 0x100) / 0x40)
    let st := match m.state with | .stopped => 0 | .running => 1 | .draining => 2 | .atRepeat => 3
    some (packed [(st, 0), (fifoLevel m, 8), (m.fifoMax, 16), (m.trigQ.length, 24)])
  else none

/-- A slot as BK_r_SLOTS_j shows it. -/
def slotByte (x : Slot) : Nat :=
  let st := match x.state with | .empty => 0 | .filling => 1 | .full => 2 | .shadow => 3 | .draining => 4
  st + 8 * x.rc + 64 * b2n x.committed + 128 * b2n (x.epoch.isSome && !x.conf)

/-- BK registers that are computed. (DESIGN CHOICE, log entry 68) -/
def viewBk (s : State) (off : Nat) : Option Word :=
  let g := ringOf s ((off - 0x10000) / 0x200)
  let o := off % 0x200
  if !g.declared then (if o < 0x20 ∨ (0x40 ≤ o ∧ o < 0x80) then some 0 else none)
  else if o = 0 then
    some (packed [(g.slots, 0), (g.refs, 8), (b2n g.autoUp, 12), (b2n g.autoDown, 13), (b2n g.spec, 14), (1, 15),
      (g.handle % 256, 16), (g.producer, 24)])
  else if o = 4 then some (w32 g.slotUnits)
  else if o = 8 then some (w32 (handleOf s (g.handle % 256)).base)
  else if o = 0xC then some (packed [(g.head, 0), (g.tail, 16)])
  else if o = 0x10 then
    match g.tab.find? fun e => e.2.epoch.isSome && !e.2.conf with
    | some e => some (packed [(g.pub, 0), (e.2.epoch.getD 0 % 256, 16), (1, 24)])
    | none => some (w32 g.pub)
  else if o = 0x14 then some (w32 (wrapOf g))
  else if 0x40 ≤ o ∧ o < 0x80 then
    some (packed ((natsFrom 0 4).map fun m => (slotByte (slotOf g (o - 0x40 + m)), 8 * m)))
  else none

/-- A channel is pending (R595, R623): it runs free until its last burst has issued, or has a counted request. -/
def dmaPending (s : State) (n : Nat) : Bool :=
  let c := dmaOf s n
  let paced := bitAt (regGet s (dmaBase n + 0x60)).toNat 5
  let state := regBits s (dmaBase n + 0x84) 0 3
  c.active && (state == 1 || state == 2) && (!paced || decide (0 < regBits s (dmaBase n + 0xA0) 0 8))

/-- DMA registers that are computed. -/
def viewDma (s : State) (off : Nat) : Option Word :=
  if off < 0x5000 ∧ off % 0x100 = 0x84 then
    some (setField (regGet s off) 5 1 (b2n (bitAt (regGet s (off + 12)).toNat 1)))
  else if off = 0x5000 then
    let pend := (natsFrom 0 16).foldl (fun m n => if dmaPending s n then m + 2 ^ n else m) 0
    some (packed [(s.dmaBusy.getD 0, 0), (b2n s.dmaBusy.isSome, 4), (pend, 16)])
  else if off = 0x5004 then
    some (w32 ((natsFrom 0 16).foldl (fun m n => if dmaInt s n then m + 2 ^ n else m) 0))
  else none

/-- XK registers that are computed. The mean noise level is a free value (log entry 30): no command of the block tells
the samples of SEARCH. -/
def viewXk (s : State) (off : Nat) : Option Word :=
  let x := s.xk
  if off = 0x9000 then
    let st := match x.rx with | .off => 0 | .search => 1 | .acquire => 2 | .receive => 3 | .busy => 4 | .transmit => 5
    some (packed [(st, 0), (b2n x.frozen, 3), (if x.rx == .off then 0 else x.gain, 8)])
  else if off = 0x901C then some (w32 ((freeNow s).toNat % 65536))
  else if off = 0x9080 then
    let st := match x.net with | .detached => 0 | .listen => 1 | .joining => 2 | .member => 3 | .master => 4
    some (packed [(st, 0), (b2n x.timeMode, 11), (x.master, 12), (x.present, 16)])
  else if off = 0x9084 then some (w32 x.cycle)
  else if off = 0x9088 then some (packed [(x.slotUs, 0), (xkCount s, 16)])
  else none

/-- The registers with no stored word of their own. -/
def viewOf (s : State) (off : Nat) : Option Word :=
  if off < 0x1000 then viewGlb s off
  else if off = 0x2000 ∨ off = 0x2004 then
    some (w32 ((natsFrom 0 32).foldl (fun m i => if irqAsserted s (i + 8 * (off - 0x2000)) then m + 2 ^ i else m) 0))
  else if 0x3000 ≤ off ∧ off < 0x4000 then viewLt s off
  else if 0x4000 ≤ off ∧ off < 0x6000 then viewDma s off
  else if 0x8040 ≤ off ∧ off < 0x8058 then
    some (packed ((natsFrom 0 16).map fun m => (domCode s (4 * (off - 0x8040) + m), 2 * m)))
  else if 0x9000 ≤ off ∧ off < 0xA000 then viewXk s off
  else if 0xA000 ≤ off ∧ off < 0xB800 then viewSp s off
  else if 0x10000 ≤ off ∧ off < 0x20000 then viewBk s off
  else none

/-- A 32-bit register as requester bank `b` reads it: its own copy of a banked one, 0 where no card names it (R63). -/
def regRead32 (b off : Nat) (s : State) : Word :=
  if 0x2800 ≤ off ∧ off < 0x2C00 then msixWord s ((off - 0x2800) / 4)
  else if off = 0x2C00 ∨ off = 0x2C04 then halfOf s.pba (off = 0x2C04)
  else match cardAt off with
    | none => 0
    | some c => if c.banked then regGet s (bankKey b off) else (viewOf s off).getD (regGet s off)

/-- Size and alignment of R49. (DEDUCED, log entry 15) -/
def regSizeOk (off size : Nat) : Bool := (size == 4 || size == 8) && off % size == 0

/-! ## Reads (R50 to R56) -/

/-- A mailbox buffer window read: the response buffer, defined while the state is DONE (R689, R694).
(DESIGN CHOICE, log entry 42) -/
def mbWindow (s : State) (off size : Nat) : Option (List Byte) :=
  if 0x1000 ≤ off ∧ off < 0x2000 ∧ off % 0x200 < 0x100 then
    let n := (off - 0x1000) / 0x200
    let o := off % 0x200
    if regBits s (0x1104 + 0x200 * n) 0 3 = 3 then
      some ((natsFrom o size).map fun i => (tabGet {} s.mboxes n).rsp.getD i 0)
    else some ((natsFrom 0 size).map fun i => b8 ((freeNow s).toNat / 256 ^ i))
  else none

/-- A register read: the response code and the bytes. (DEDUCED, log entry 15) -/
def regRead (r : Req) (off size : Nat) (s : State) : State × Nat × List Byte :=
  let b := reqBank r
  if !regSizeOk off size then (regViolation r 0x10 off false s, 0, List.replicate size 0)
  else if !mayAccess r off false then (regViolation r 2 off false s, 2, List.replicate size 0)
  else match mbWindow s off size with
    | some d => (freeStep s, 0, d)
    | none =>
      let s' := if off / 4 = 0x901C / 4 ∨ (size = 8 ∧ off = 0x9018) then freeStep s else s
      if size = 8 then (s', 0, leBytes 4 (regRead32 b off s).toNat ++ leBytes 4 (regRead32 b (off + 4) s).toNat)
      else if isLo64 off then
        ({ s' with latches := tabSet s'.latches b (off, regRead32 b (off + 4) s) }, 0, leBytes 4 (regRead32 b off s).toNat)
      else if 4 ≤ off ∧ isLo64 (off - 4) then
        match tabGet? s.latches b with
        | some (o, w) =>
          if o = off - 4 then ({ s' with latches := tabDel s'.latches b }, 0, leBytes 4 w.toNat)
          else (s', 0, leBytes 4 (regRead32 b off s).toNat)
        | none => (s', 0, leBytes 4 (regRead32 b off s).toNat)
      else (s', 0, leBytes 4 (regRead32 b off s).toNat)

/-- A read and the response on the requester's port. (DEDUCED, log entry 15) -/
def regReadReply (r : Req) (off size : Nat) (s : State) : State :=
  let q := regRead r off size s
  reply (reqBank r) { resp := q.2.1, data := q.2.2 } q.1

def execRegisterRead (req : Req) (off size : Nat) (s : State) : Host.Outcome State Fault Refusal :=
  done (regReadReply req off size s)

/-- REGISTER_LO_READ (R53): the latch takes the live HI word. -/
def execRegisterLoRead (req : Req) (off : Nat) (s : State) : Host.Outcome State Fault Refusal :=
  done (regReadReply req off 4 s)

/-- REGISTER_HI_READ (R54): `off` is the offset of the HI word. -/
def execRegisterHiRead (req : Req) (off : Nat) (s : State) : Host.Outcome State Fault Refusal :=
  done (regReadReply req off 4 s)

end Sys2Proof.Machine
end

