-- ==== Sys2Proof/Machine/Fabric.lean ====
section
/-! DEFINITION. Accesses over the fabric address map (R35 to R39): local store, node windows, near stores (R421 to R427),
control space; the rows of a single access and of the fabric timeout (R65 to R69). -/

namespace Sys2Proof.Machine

open Sys2Proof

/-! ## Near stores from the fabric (R424) -/

/-- One access of a Trestle core or a DMA channel to the near store of a logical core. -/
def nearAccess (r : DsReq) (a : Nat) (s : State) : State × Reply :=
  let core := (a - 0x2000000000) / 0x100000
  let off := a % 0x100000
  if !viewOk r a then (dsErrLog r 5 a s, { resp := 5 })
  else match physCore s core with
    | none => (dsErrLog r 6 a s, { resp := 6 })
    | some p =>
      let st := (tabGet {} s.cores p).state
      if !(st == .mapped || st == .pending) then (dsErrLog r 6 a s, { resp := 6 })
      else if r.tag < 0x10 ∨ r.tag = 0x18 ∨ 0x1A ≤ r.tag then (dsErrLog r 2 a s, { resp := 2 })
      else
        let c : EccCause := ⟨r.tag, accFlags r⟩
        let k := nearKey p off
        if r.write then
          let q := nearWrite c (r.size + 1) k r.data s
          (q.1, { resp := if q.2 then 0 else 3 })
        else
          let q := nearReadEcc c k r.size s
          if q.2 then (q.1, { data := (natsFrom k r.size).map (nearByte q.1) }) else (q.1, { resp := 3 })

/-! ## The map (R35) -/

/-- The requester of the control space that a tag stands for. -/
def tagReq (tag detail : Nat) : Option Req :=
  if 0x10 ≤ tag ∧ tag < 0x18 then some (.trestle (Fin.ofNat 8 (tag - 0x10)))
  else if tag = 0x19 then some (.dma (Fin.ofNat 16 detail))
  else if tag = 0x18 then some .host
  else if tag = 0x1C then some .supA
  else none

/-- Does an address lie in the own node's window (R37)? -/
def ownWindow (s : State) (a : Nat) : Bool :=
  match farWindow a with
  | some (n, _) => xkJoined s && decide (n = s.xk.node)
  | none => false

/-- The traffic class of an access by fabric address (R348): that of its requester at the local store, by whichever
window; FAR where the far cache serves it. -/
def fabClass (s : State) (r : DsReq) (a : Nat) : Option Nat :=
  if a < 0x40000000 || ownWindow s a then bwClassOf r.tag r.write
  else match farWindow a with
    | some (n, off) => farCls s r n off
    | none => none

/-- May the access issue now, as far as the regulator goes (R351)? -/
def fabReady (s : State) (r : DsReq) (a : Nat) : Bool :=
  match fabClass s r a with
  | some c => bwReady s c
  | none => true

/-- One access by fabric address. Nothing is answered yet where a far response is awaited. Writes to the control space
are performed by the requester's own path; here they get RIGHTS (R610). -/
def fabAccess (r : DsReq) (a : Nat) (mode : FarMode) (s : State) : State × Option Reply :=
  let s := match fabClass s r a with | some c => bwCharge c 1 s | none => s
  if a < 0x40000000 then
    let q := dsAccess { r with target := .addr a } false s
    (q.1, some q.2)
  else match farWindow a with
    | some (n, off) =>
      if ownWindow s a then
        let q := dsAccessAt (farAddr n 0) { r with target := .addr off } false s
        (q.1, some q.2)
      else if r.write then
        let q := farWrite r.tag r.detail n off r.data s
        (q.1, some q.2)
      else farRead r.tag r.detail n off r.size .normal mode s
    | none =>
      if 0x2000000000 ≤ a ∧ a < 0x2004000000 then
        let q := nearAccess r a s
        (q.1, some q.2)
      else if 0x3000000000 ≤ a ∧ a < 0x3000040000 ∧ !r.write then
        match tagReq r.tag r.detail with
        | some rq =>
          let q := regRead rq (a - 0x3000000000) r.size s
          (q.1, some { resp := q.2.1, data := q.2.2 })
        | none => (dsErrLog r 2 a s, some { resp := 2 })
      else
        let code := if 0x3000000000 ≤ a ∧ a < 0x3000040000 then 2 else 1
        (dsErrLog r code a s, some { resp := code })

/-! ## Rows of one access -/

/-- A single access to the local store, made now (R231). -/
def deepNow (r : DsReq) (s : State) : State :=
  let q := dsAccess r false s
  respond r (dsCheck s r).2.1 q.2 q.1

/-- DEEP_STORE_ACCESS (R231): made when its class has a unit for it (R351). -/
def deepAccess (r : DsReq) (s : State) : State := bwGate (bwClassOf r.tag r.write) (.deep r) (deepNow r) s

def execDeepStoreAccess (acc : DsReq) (s : State) : Host.Outcome State Fault Refusal := done (schedTick (deepAccess acc s))

/-- Can a request by this address run into the timeout of R68? Not one to the local Deep Store, by its range or by the
own node's window (R271), nor one to another node, whose timeout is the link's (R68, R859). (DEDUCED, log entry 80) -/
def mayTimeOut (r : DsReq) : Option Nat :=
  match r.target with
  | .addr a => if a < 0x40000000 || (farWindow a).isSome then none else some a
  | .handle _ _ => none

/-- FABRIC_TIMEOUT (R68): the request has had no response within 100 µs. -/
def fabTimeout (r : DsReq) (s : State) : State :=
  match mayTimeOut r with
  | some a => respond r a { resp := 7 } (dsErrLog r 7 a s)
  | none => s

def execFabricTimeout (acc : DsReq) (s : State) : Host.Outcome State Fault Refusal := done (schedTick (fabTimeout acc s))

end Sys2Proof.Machine
end

