-- ==== Sys2Proof/Machine/Dma.lean ====
section
/-! DEFINITION. The DMA engine (10_dma.md). A service unit moves its lines whole; where a line waits for a far response or
for host data the unit stays the engine's and goes on at the next DMA_SERVICE_UNIT. -/

namespace Sys2Proof.Machine

open Sys2Proof

/-! ## The active set -/

/-- A 64-bit address register of the active set: SRC 0x00, DST 0x08, CRC_ADDR 0x28. -/
def actAddr (s : State) (n x : Nat) : Nat :=
  (regGet s (dmaBase n + 0x40 + x)).toNat + 2 ^ 32 * (regGet s (dmaBase n + 0x44 + x)).toNat

def actLen (s : State) (n : Nat) : Nat := (regGet s (dmaBase n + 0x50)).toNat
def actLines (s : State) (n : Nat) : Nat := (regGet s (dmaBase n + 0x54)).toNat
def actStride (s : State) (n : Nat) (dst : Bool) : Int := (regGet s (dmaBase n + (if dst then 0x5C else 0x58))).toInt
def actBurst (s : State) (n : Nat) : Nat := (regGet s (dmaBase n + 0x64)).toNat

/-- A bit of CFG of the active set: 0 SRC_SPACE, 1 DST_SPACE, 2 CRC_SPACE, 3 CRC_WRITE, 4 CRC_CONT, 5 PACE, 11 INT_EN. -/
def actBit (s : State) (n i : Nat) : Bool := bitAt (regGet s (dmaBase n + 0x60)).toNat i

/-- STATE, with ARMED and STOP_PENDING of DMA_n_STATUS. (DEDUCED, log entry 41) -/
def dmaState (s : State) (n : Nat) : Nat := regBits s (dmaBase n + 0x84) 0 3
def dmaArmed (s : State) (n : Nat) : Bool := bitAt (regGet s (dmaBase n + 0x84)).toNat 3
def dmaSetState (n v : Nat) (s : State) : State := regField (dmaBase n + 0x84) 0 3 v s

/-- PROGRESS and the CRC hold no defined value. -/
def dmaUndefined (n : Nat) (s : State) : State :=
  let v := freeNow s
  freeStep (regSet (dmaBase n + 0x88) (w32 (v.toNat / 2 ^ 32 % 2 ^ 17)) (regSet (dmaBase n + 0x8C) (w32 v.toNat) s))

/-- The first address that fails R616, and whether it lies in HOST space (R617). -/
def dmaMisaligned (s : State) (n : Nat) : Option (Nat × Bool) :=
  if actAddr s n 0 % 8 ≠ 0 then some (actAddr s n 0, actBit s n 0)
  else if actAddr s n 8 % 8 ≠ 0 then some (actAddr s n 8, actBit s n 1)
  else if actBit s n 3 && decide (actAddr s n 0x28 % 8 ≠ 0) then some (actAddr s n 0x28, actBit s n 2)
  else if actLen s n % 8 ≠ 0 ∨ actStride s n false % 8 ≠ 0 ∨ actStride s n true % 8 ≠ 0 then
    some (actAddr s n 0, actBit s n 0)
  else none

/-- Engine lines that arrived for a channel are dropped. -/
def dmaForget (n : Nat) (s : State) : State :=
  xkMod (fun x => { x with got := x.got.filter fun e => decide (e.1 / 2 ^ 28 ≠ 0x19 * 32 + n) }) s

/-- The shadow set becomes the active set (R600, R616, R617, R622, R624, R625). -/
def dmaLoad (n : Nat) (s : State) : State :=
  let b := dmaBase n
  let same := regBits s (b + 0x60) 6 5 == regBits s (b + 0x20) 6 5
  let s := (natsFrom 0 12).foldl (fun s' i => regSet (b + 0x40 + 4 * i) (regGet s' (b + 4 * i)) s') s
  let s := if same then s else regField (b + 0xA0) 0 8 0 s
  let v := freeNow s
  let s := freeStep (regSet (b + 0x8C) (w32 v.toNat) (regSet (b + 0x88) 0 (regSet (b + 0x84) 1 s)))
  let seed := if actBit s n 4 then (dmaOf s n).lastCrc ^^^ 0xFFFFFFFF else 0xFFFFFFFF
  let s := dmaForget n (dmaMod n (fun c => { c with active := true, line := 0, unitEnd := 0, outstanding := 0, bursts := 0,
                                                    crc := seed, hostAddr := none, crcDone := false }) s)
  match dmaMisaligned s n with
  | some (a, host) =>
    let s := logPut { source := 0x19, cls := 2, code := 0x13, detail := n, addr := a % 2 ^ 40,
                      flags := atBit (b2n host) 1 } s
    dmaStop n 5 a s
  | none => s

/-- ARM (R599 to R603, R638). -/
def dmaArm (n : Nat) (s : State) : State :=
  let b := dmaBase n
  let len := (regGet s (b + 0x10)).toNat
  let lines := (regGet s (b + 0x14)).toNat
  let burst := (regGet s (b + 0x24)).toNat
  let ok := decide (8 ≤ len) && decide (len ≤ 16777216) && decide (1 ≤ lines) && decide (lines ≤ 65536) &&
    decide (1 ≤ burst) && decide (burst ≤ 65536) && regBits s (b + 0x20) 14 2 != 3 &&
    !bitAt (regGet s (b + 0x90)).toNat 1 && decide (dmaState s n < 4)
  if dmaArmed s n then s
  else if !ok then regOr (b + 0x90) 4 s
  else if (dmaOf s n).active then regField (b + 0x84) 3 1 1 s
  else dmaLoad n s

/-- STOP_AT_BOUNDARY (R632, R638). (DEDUCED, log entry 41) -/
def dmaStopBoundary (n : Nat) (s : State) : State :=
  if (dmaOf s n).active && decide (dmaState s n < 4) then regField (dmaBase n + 0x84) 3 2 2 s
  else regField (dmaBase n + 0x84) 3 1 0 s

/-- DISABLE has drained (R633). (DEDUCED, log entry 41) -/
def dmaDrained (n : Nat) (s : State) : State :=
  if dmaState s n = 4 && decide ((dmaOf s n).outstanding = 0) then
    regOr (dmaBase n + 0x90) 0x20 (dmaSetState n 0 (dmaMod n (fun c => { c with active := false }) s))
  else s

/-- DISABLE (R633, R634, R622). (DEDUCED, log entry 41) -/
def dmaDisable (n : Nat) (s : State) : State :=
  let s := regField (dmaBase n + 0x84) 3 2 0 s
  if (dmaOf s n).active && decide (dmaState s n < 4) then
    let s := dmaUndefined n (dmaSetState n 4 (regField (dmaBase n + 0xA0) 0 8 0 s))
    let s := if s.dmaBusy = some n then { s with dmaBusy := none } else s
    dmaDrained n (dmaForget n (dmaMod n (fun c => { c with bursts := 0 }) s))
  else s

/-- A write to DMA_n_CTRL performs one action (R604). -/
def dmaCtrl (n v : Nat) (s : State) : State :=
  if bitAt v 2 then dmaDisable n s else if bitAt v 1 then dmaStopBoundary n s else if bitAt v 0 then dmaArm n s else s

def execDmaArm (req : Req) (ch : Fin 16) (s : State) : Host.Outcome State Fault Refusal :=
  done (guarded req (dmaBase ch + 0x80) (dmaArm ch) s)
def execDmaStopAtBoundary (req : Req) (ch : Fin 16) (s : State) : Host.Outcome State Fault Refusal :=
  done (guarded req (dmaBase ch + 0x80) (dmaStopBoundary ch) s)
def execDmaDisable (req : Req) (ch : Fin 16) (s : State) : Host.Outcome State Fault Refusal :=
  done (guarded req (dmaBase ch + 0x80) (dmaDisable ch) s)
def execDmaDrained (ch : Fin 16) (s : State) : Host.Outcome State Fault Refusal := done (dmaDrained ch s)

/-- DMA_REQ_SW: one request on each line whose bit is 1 (R618). -/
def dmaReqSw (v : Word) (s : State) : State :=
  (natsFrom 0 32).foldl (fun s' j => if bitAt v.toNat j then dmaRequest j s' else s') s

def execDmaReqSw (req : Req) (lines : Word) (s : State) : Host.Outcome State Fault Refusal :=
  done (guarded req 0x5010 (dmaReqSw lines) s)

/-! ## Moving a line (R608 to R615) -/

/-- The piece of a FABRIC line that begins at `a` (R228): by 256 B line where another node serves it, else wide or narrow,
the own node's window too (R37). -/
def dmaPieceSize (s : State) (a n : Nat) : Nat :=
  if (farWindow a).isSome && !ownWindow s a then min n (256 - a % 256) else if a % 64 = 0 ∧ 64 ≤ n then 64 else 8

/-- The pieces of a FABRIC line. The first argument bounds their number. -/
def dmaPieces (s : State) (f a n : Nat) : List (Nat × Nat) := cutBy (dmaPieceSize s) f a n

/-- May the line's accesses issue: does each class they belong to hold a unit (R351)? A line that may begin is moved
whole. (DESIGN CHOICE, log entry 19) -/
def dmaReady (s : State) (n : Nat) (write : Bool) (ps : List (Nat × Nat)) : Bool :=
  ps.all fun p => fabReady s ⟨0x19, n, .addr p.1, decide (p.2 = 64), write, p.2, []⟩ p.1

/-- The far lines among the pieces that this channel has neither at hand nor asked for, and whether all are at hand. -/
def dmaFarMissing (s : State) (n : Nat) (ps : List (Nat × Nat)) : List (Nat × Nat) × Bool :=
  ps.foldl (fun q p =>
    match farWindow p.1 with
    | none => q
    | some (node, off) =>
      if (xkJoined s && decide (node = s.xk.node)) || !xkReaches s node then q
      else
        let line := off / 256
        let have_ := (tabGet? s.xk.got (gotKey 0x19 n node line)).isSome ||
          ((tabGet? s.fcache (fcKey node line)).map (fcFresh s)).getD false
        let asked := s.xk.far.any fun w => decide (w.tag = 0x19) && decide (w.detail = n) && decide (w.node = node) &&
          decide (w.offset / 256 = line) && !w.write
        if have_ then q else (if asked then q.1 else q.1 ++ [p], false)) ([], true)

/-- A read of pieces in ascending order: the bytes, or the code and address of the first error. -/
def dmaReadPieces (n : Nat) : List (Nat × Nat) → State → State × (Option (Nat × Nat)) × List Byte
  | [], s => (s, none, [])
  | (a, k) :: t, s =>
    let q := fabAccess ⟨0x19, n, .addr a, decide (k = 64), false, k, []⟩ a .engine s
    match q.2 with
    | some p =>
      if p.resp = 0 then
        let r := dmaReadPieces n t q.1
        (r.1, r.2.1, p.data ++ r.2.2)
      else (q.1, some (p.resp, a), [])
    | none => (q.1, none, [])

/-- A write in pieces; the first error ends it. Far pieces go as the writes R856 allows. -/
def dmaWritePieces (n : Nat) : List (Nat × Nat) → List Byte → State → State × Option (Nat × Nat)
  | [], _, s => (s, none)
  | (a, k) :: t, d, s =>
    let q := fabAccess ⟨0x19, n, .addr a, decide (k = 64), true, k, d.take k⟩ a .engine s
    match q.2 with
    | some p => if p.resp = 0 then dmaWritePieces n t (d.drop k) q.1 else (q.1, some (p.resp, a))
    | none => (q.1, none)

/-- HOST requests of at most `max` bytes that cross no 4 KiB boundary (R613). -/
def hostPieces (max : Nat) : Nat → Nat → Nat → List (Nat × Nat)
  | 0, _, _ => []
  | f + 1, a, n =>
    if n = 0 then []
    else
      let k := min (min n max) (4096 - a % 4096)
      (a, k) :: hostPieces max f (a + k) (n - k)

/-- May HOST requests be sent (R614, R41)? -/
def hostOpen (s : State) : Bool := s.pwr.busMaster && s.pwr.linkUp && !s.pwr.d3hot

/-- The channel stops on an error of its own: the log entry (R637), then the stop. -/
def dmaFail (n code addr : Nat) (host : Bool) (write : Bool) (s : State) : State :=
  let cls := if code = 7 then 3 else if code = 3 then 1 else 2
  dmaStop n code addr (logPut { source := 0x19, cls := cls, code := code, detail := n, addr := addr % 2 ^ 40,
                                flags := atBit (b2n host) 1 + atBit (b2n write) 2 } s)

/-- Is a range of `n` bytes from `a` inside its space (R609)? -/
def inSpace (a : Int) (n : Nat) (host : Bool) : Bool := decide (0 ≤ a) && decide (a + n ≤ (if host then 2 ^ 64 else 2 ^ 40 : Nat))

/-- Is byte `d` of a range in some line of the source (R615)? -/
def inSource (s : State) (n d : Nat) : Bool :=
  (natsFrom 0 (actLines s n)).any fun i =>
    let a := (actAddr s n 0 : Int) + actStride s n false * i
    decide (a ≤ d) && decide ((d : Int) < a + actLen s n)

/-- Lowest and highest byte that the lines of a side take. -/
def sideBox (s : State) (n : Nat) (dst : Bool) : Int × Int :=
  let b : Int := (actAddr s n (if dst then 8 else 0) : Nat)
  let e := b + actStride s n dst * ((actLines s n - 1 : Nat) : Int)
  (min b e, max b e + actLen s n)

/-- The bytes a line writes: free values where the destination overlaps the source (R615). (DEDUCED, log entry 41) -/
def dmaOverlap (s : State) (n a : Nat) (d : List Byte) : List Byte :=
  let x := sideBox s n false
  let y := sideBox s n true
  if actBit s n 0 = actBit s n 1 ∧ x.1 < y.2 ∧ y.1 < x.2 then
    (natsFrom 0 d.length).map fun k =>
      if inSource s n (a + k) then b8 (Config.freeValue (s.free + k)).toNat else d.getD k 0
  else d

/-- Write a line or the CRC word to its space. False when the channel stopped. -/
def dmaPut (n a : Nat) (host : Bool) (d : List Byte) (s : State) : State × Bool :=
  if host then
    if hostOpen s then
      let ps := hostPieces s.pwr.maxPayload d.length a d.length
      let s := ps.foldl (fun s' p => emit (.hostWrite p.1 ((d.drop (p.1 - a)).take p.2)) s') s
      (dmaMod n (fun c => { c with hostAddr := some (a + d.length - 8) }) s, true)
    else (dmaFail n 6 a true true s, false)
  else
    let ps := (dmaPieces s d.length a d.length).flatMap fun p =>
      if (farWindow p.1).isSome then pieces p.2 p.1 p.2 else [p]
    let q := dmaWritePieces n ps d s
    match q.2 with
    | some (code, a) => (dmaStop n code a q.1, false)
    | none => (q.1, true)

/-- One line once its bytes are there (R608, R615, R624): CRC, write, PROGRESS. -/
def dmaLine (n i : Nat) (d : List Byte) (s : State) : State × Bool :=
  let dst := (actAddr s n 8 : Int) + actStride s n true * i
  let host := actBit s n 1
  let s := dmaMod n (fun c => { c with crc := crc32cRun c.crc d }) s
  if !inSpace dst d.length host then (dmaFail n 1 (unsgn 64 dst) host true s, false)
  else
    let out := dmaOverlap s n dst.toNat d
    let s := if out = d then s else { s with free := s.free + d.length }
    let q := dmaPut n dst.toNat host out s
    if q.2 then
      (regSet (dmaBase n + 0x88) (w32 (i + 1)) (dmaMod n (fun c => { c with line := i + 1 }) q.1), true)
    else q

/-- The lines of the unit, one after the other, with the host data still to be taken: until the unit ends, the channel
stops, or a line has to wait. (DESIGN CHOICE, log entry 20) -/
def dmaMove (n : Nat) : Nat → List Byte → State → State
  | 0, _, s => s
  | f + 1, h, s =>
    let c := dmaOf s n
    let i := c.line
    if !c.active || decide (c.unitEnd ≤ i) then s
    else
      let src := (actAddr s n 0 : Int) + actStride s n false * i
      let len := actLen s n
      let host := actBit s n 0
      let dst := (actAddr s n 8 : Int) + actStride s n true * i
      let out := if actBit s n 1 then [] else dmaPieces s len dst.toNat len
      if !inSpace src len host then dmaFail n 1 (unsgn 64 src) host false s
      else if !(dmaReady s n true out && (host || dmaReady s n false (dmaPieces s len src.toNat len))) then bwStall 4 s
      else if host then
        if !hostOpen s then dmaFail n 6 src.toNat true false s
        else if h.length < len then s
        else
          let s := (hostPieces s.pwr.maxRead len src.toNat len).foldl (fun s' p => emit (.hostRead p.1 p.2) s') s
          let q := dmaLine n i (h.take len) s
          if q.2 then dmaMove n f (h.drop len) q.1 else q.1
      else
        let ps := dmaPieces s len src.toNat len
        let m := dmaFarMissing s n ps
        if !m.2 then
          m.1.foldl (fun s' p => (fabAccess ⟨0x19, n, .addr p.1, false, false, p.2, []⟩ p.1 .engine s').1) s
        else
          let q := dmaReadPieces n ps s
          match q.2.1 with
          | some (code, a) => dmaStop n code a q.1
          | none =>
            let r := dmaLine n i q.2.2 q.1
            if r.2 then dmaMove n f h r.1 else r.1

/-- The CRC word (R626). -/
def dmaCrcWord (n : Nat) (s : State) : State :=
  if actBit s n 3 then
    let a := actAddr s n 0x28
    let host := actBit s n 2
    if !inSpace a 8 host then dmaFail n 1 a host true s
    else (dmaPut n a host (leBytes 4 ((dmaOf s n).crc ^^^ 0xFFFFFFFF) ++ leBytes 4 (actLines s n - 1)) s).1
  else s

/-- The unit has issued its last access: WAIT for the next one, or DRAIN after the CRC word (R626, R627). -/
def dmaUnitEnd (n : Nat) (s : State) : State :=
  let c := dmaOf s n
  if c.active && dmaState s n == 2 && decide (c.unitEnd ≤ c.line) then
    let s := dmaMod n (fun c => { c with bursts := c.bursts + 1 }) { s with dmaBusy := none }
    if c.line < actLines s n then dmaSetState n 1 s
    else
      let s := dmaCrcWord n s
      if (dmaOf s n).active && dmaState s n == 2 then dmaSetState n 3 (dmaMod n (fun c => { c with crcDone := true }) s)
      else s
  else s

/-- DMA_SERVICE_UNIT (R594 to R596, R621): the unit under way goes on, or that of the lowest-numbered pending channel
starts. `hostData` is what HOST reads return. -/
def dmaService (h : List Byte) (s : State) : State :=
  let start := match s.dmaBusy with
    | some n => some (n, s)
    | none => ((natsFrom 0 16).find? (dmaPending s)).map fun n =>
        let s := if actBit s n 5 then regField (dmaBase n + 0xA0) 0 8 (regBits s (dmaBase n + 0xA0) 0 8 - 1) s else s
        let e := min (actLines s n) ((dmaOf s n).line + actBurst s n)
        (n, dmaSetState n 2 (dmaMod n (fun c => { c with unitEnd := e }) { s with dmaBusy := some n }))
  match start with
  | none => s
  | some (n, s) => dmaUnitEnd n (dmaMove n (actLines s n + 1) h s)

def execDmaServiceUnit (hostData : List Byte) (s : State) : Host.Outcome State Fault Refusal :=
  done (schedTick (dmaService hostData s))

/-! ## Completion (R627 to R632) -/

/-- The flushing read (R628): the last 8 B written. (DESIGN CHOICE, log entry 42) -/
def dmaFlush (n : Nat) (s : State) : State :=
  match (dmaOf s n).hostAddr with
  | some a => emit (.hostRead a 8) s
  | none => s

/-- EV_MODE of the active set. -/
def dmaEvMode (s : State) (n : Nat) : Nat := regBits s (dmaBase n + 0x60) 12 2

/-- Bursts before the last one whose writes are not all answered: the last one gets its pulse at completion. -/
def dmaEarly (s : State) (n : Nat) : Nat :=
  let c := dmaOf s n
  c.bursts - (if actLines s n ≤ c.line then 1 else 0)

/-- May the oldest unanswered burst have all its answers? Not while accesses are outstanding and all are its own. -/
def dmaAnswered (s : State) (n : Nat) : Bool :=
  let c := dmaOf s n
  decide (c.outstanding = 0) || decide (2 ≤ c.bursts) || s.dmaBusy == some n

/-- DMA_BURST_ANSWERED (R630), of the oldest such burst. -/
def dmaBurstAnswered (n : Nat) (s : State) : State :=
  if (dmaOf s n).active && decide (0 < dmaEarly s n) && dmaAnswered s n && decide (dmaEvMode s n = 2) then
    evPulse (96 + n) (dmaFlush n (dmaMod n (fun c => { c with bursts := c.bursts - 1 }) s))
  else s

def execDmaBurstAnswered (ch : Fin 16) (s : State) : Host.Outcome State Fault Refusal := done (dmaBurstAnswered ch s)

/-- DMA_SET_COMPLETE (R627 to R629, R632). -/
def dmaComplete (n : Nat) (s : State) : State :=
  let b := dmaBase n
  let c := dmaOf s n
  if c.active && dmaState s n == 3 && decide (c.outstanding = 0) then
    let s := dmaFlush n s
    let crc := c.crc ^^^ 0xFFFFFFFF
    let s := regSet (b + 0x8C) (w32 crc) (regOr (b + 0x90) 1 s)
    let s := dmaMod n (fun c => { c with active := false, bursts := 0, lastCrc := crc, intDone := actBit s n 11 }) s
    let s := if dmaEvMode s n = 1 ∨ dmaEvMode s n = 2 then evPulse (96 + n) s else s
    if dmaArmed s n && !bitAt (regGet s (b + 0x84)).toNat 4 then dmaLoad n s else regSet (b + 0x84) 0 s
  else s

def execDmaSetComplete (ch : Fin 16) (s : State) : Host.Outcome State Fault Refusal := done (dmaComplete ch s)

/-- Does a HOST range of the active set hold an address? -/
def dmaHostAddr (s : State) (n a : Nat) : Bool :=
  (actBit s n 0 && decide ((sideBox s n false).1 ≤ a) && decide ((a : Int) < (sideBox s n false).2)) ||
  (actBit s n 1 && decide ((sideBox s n true).1 ≤ a) && decide ((a : Int) < (sideBox s n true).2)) ||
  (actBit s n 3 && actBit s n 2 && decide (actAddr s n 0x28 = a))

/-- AER notes a failed completion of a HOST read (R41): a poisoned one in bit 12, a timeout in bit 14.
(PRESUMED, log entry 64) -/
def aerNote (code : Nat) (s : State) : State :=
  let bit := if code = 3 then 2 ^ 12 else if code = 7 then 2 ^ 14 else 0
  { s with pwr := { s.pwr with aer := s.pwr.aer ||| bit } }

/-- DMA_ERROR_STOP (R635, R636): an error response, or the failed completion of a HOST read. (DEDUCED, log entry 41) -/
def dmaErrorStop (n code a : Nat) (s : State) : State :=
  if (dmaOf s n).active && decide (dmaState s n < 4) && decide (code ≠ 0) then
    let host := decide (code = 8) || dmaHostAddr s n a
    dmaFail n code a host false (if host then aerNote code s else s)
  else s

def execDmaErrorStop (ch : Fin 16) (code : Fin 9) (addr : BitVec 64) (s : State) : Host.Outcome State Fault Refusal :=
  done (dmaErrorStop ch code addr.toNat s)

/-- ERROR_DRAIN_DONE (R635). -/
def dmaErrorDrained (n : Nat) (s : State) : State :=
  if dmaState s n = 5 && decide ((dmaOf s n).outstanding = 0) then
    dmaSetState n 0 (dmaMod n (fun c => { c with active := false }) s)
  else s

def execErrorDrainDone (ch : Fin 16) (s : State) : Host.Outcome State Fault Refusal := done (dmaErrorDrained ch s)

end Sys2Proof.Machine
end

