-- ==== Sys2Proof/Machine/RingOps.lean ====
section
/-! DEFINITION. The rows of BK_r_OP (R318 to R322, R1008), each followed by what the scheduler does when rings move. -/

namespace Sys2Proof.Machine

open Sys2Proof

/-- An operation written to BK_r_OP (R318): what moves wakes the scheduler. -/
def ringOp (req : Req) (ring : Nat) (f : State → State) (s : State) : State :=
  guarded req (bkBase ring + 0x20) (fun s => schedTick (f s)) s

/-- BK_r_OP by its fields (R318 to R321, R1008). -/
def ringOpBy (req : Req) (ring op : Nat) (forDma : Bool) (counter : Nat) (first last : Bool) (s : State) : State :=
  let b := reqBank req
  let tag := actTag req forDma
  match op with
  | 0 => bkProdTry b tag ring s
  | 1 => bkConsTry b tag ring counter s
  | 2 => bkCommit b tag (reqTag req) (reqDetail req) ring counter first last s
  | 3 => bkRelease b tag (reqTag req) (reqDetail req) ring counter s
  | 4 => bkProdArm b tag ring s
  | 5 => bkConsArm b tag ring counter s
  | _ => bkArmCancel b ring s

def execProdTry (req : Req) (ring : Fin 128) (forDma : Bool) (s : State) : Host.Outcome State Fault Refusal :=
  done (ringOp req ring (ringOpBy req ring 0 forDma 0 false false) s)

def execConsTry (req : Req) (ring : Fin 128) (forDma : Bool) (counter : BitVec 16) (s : State) :
    Host.Outcome State Fault Refusal :=
  done (ringOp req ring (ringOpBy req ring 1 forDma counter.toNat false false) s)

def execCommitSlot (req : Req) (ring : Fin 128) (forDma : Bool) (counter : BitVec 16) (first last : Bool)
    (s : State) : Host.Outcome State Fault Refusal :=
  done (ringOp req ring (ringOpBy req ring 2 forDma counter.toNat first last) s)

def execReleaseSlot (req : Req) (ring : Fin 128) (forDma : Bool) (counter : BitVec 16) (s : State) :
    Host.Outcome State Fault Refusal :=
  done (ringOp req ring (ringOpBy req ring 3 forDma counter.toNat false false) s)

def execProdArm (req : Req) (ring : Fin 128) (forDma : Bool) (s : State) : Host.Outcome State Fault Refusal :=
  done (ringOp req ring (ringOpBy req ring 4 forDma 0 false false) s)

def execConsArm (req : Req) (ring : Fin 128) (forDma : Bool) (counter : BitVec 16) (s : State) :
    Host.Outcome State Fault Refusal :=
  done (ringOp req ring (ringOpBy req ring 5 forDma counter.toNat false false) s)

def execArmCancel (req : Req) (ring : Fin 128) (s : State) : Host.Outcome State Fault Refusal :=
  done (ringOp req ring (ringOpBy req ring 6 false 0 false false) s)

def execRingAcquireGrant (ring : Fin 128) (s : State) : Host.Outcome State Fault Refusal :=
  done (schedTick (ringSettle ring s))

end Sys2Proof.Machine
end

