-- ==== Sys2Proof/Machine/Regs.lean ====
section
/-! DEFINITION. Register writes (R15 to R18, R49, R50, R57 to R62, R64): the access codes of the cards, the registers whose
write is an operation, the mailbox window and doorbell (R689, R692, R693), the notice queue tail (R708), IRQ_EOI and the
MSI-X table (R721 to R723), the error-log window (R879, R880). -/

namespace Sys2Proof.Machine

open Sys2Proof

/-! ## Mailboxes (R689, R692, R693) -/

def mbBase (n : Nat) : Nat := 0x1000 + 0x200 * n
def mbOf (s : State) (n : Nat) : Mailbox := tabGet {} s.mboxes n
def mbMod (n : Nat) (f : Mailbox → Mailbox) (s : State) : State := { s with mboxes := tabMod {} s.mboxes n f }

/-- STATE: 0 IDLE, 1 PENDING, 2 BUSY, 3 DONE. -/
def mbState (s : State) (n : Nat) : Nat := regBits s (mbBase n + 0x104) 0 3

/-- The request buffer accepts writes, and the doorbell a GO. -/
def mbFree (s : State) (n : Nat) : Bool := mbState s n == 0 || mbState s n == 3

/-- Bytes into the request buffer. -/
def mbFill (n o : Nat) (d : List Byte) (s : State) : State :=
  if mbFree s n then
    mbMod n (fun m => { m with req := (d.zip (natsFrom o d.length)).foldl (fun t e => tabPut 0 t e.2 e.1) m.req }) s
  else regOr (mbBase n + 0x104) 0x20 s

/-- GO (R692, R693, R695). -/
def mbGo (n : Nat) (s : State) : State :=
  if mbFree s n then
    let s := regField (mbBase n + 0x104) 0 3 1 (regClr (mbBase n + 0x104) 8 s)
    mbMod n (fun m => { m with order := s.sup.bells + 1 }) { s with sup := { s.sup with bells := s.sup.bells + 1 } }
  else regOr (mbBase n + 0x104) 0x10 s

def execDoorbell (req : Req) (mb : Fin 8) (s : State) : Host.Outcome State Fault Refusal :=
  done (guarded req (mbBase mb + 0x100) (mbGo mb) s)

/-! ## Interrupt block -/

/-- IRQ_NQ_TAIL (R708). -/
def nqTail (v : Word) (s : State) : State :=
  let t := v.toNat % 256
  if (t + 256 - (regGet s 0x2208).toNat) % 256 ≤ noticeOcc s then regSet 0x2208 (w32 t) s else regOr 0x220C 4 s

def execIrqNqTail (req : Req) (v : Word) (s : State) : Host.Outcome State Fault Refusal :=
  done (guarded req 0x2208 (nqTail v) s)

/-- IRQ_EOI (R721); the message follows with the interrupts of this step. -/
def irqEoi (i : Nat) (s : State) : State := { s with irqArmed := s.irqArmed ||| 2 ^ i }

def execIrqEoi (req : Req) (source : Fin 64) (s : State) : Host.Outcome State Fault Refusal :=
  done (guarded req 0x2010 (irqEoi source) s)

/-- A pending message of a vector goes once it is not masked (R722). -/
def msixFlush (v : Nat) (s : State) : State :=
  if bitAt s.pba v && !msixMasked s v then emit (.msix v) { s with pba := s.pba - 2 ^ v } else s

/-- A word of the MSI-X table; only the mask bit of Vector Control and the address above bit 1 are stored. -/
def msixSet (k : Nat) (w : Word) (s : State) : State :=
  let w := if k % 4 = 0 then w &&& 0xFFFFFFFC else if k % 4 = 3 then w &&& 1 else w
  msixFlush (k / 4) { s with msix := tabPut (if k % 4 = 3 then 1 else 0) s.msix k w }

def execMsixUnmask (vector : Fin 64) (s : State) : Host.Outcome State Fault Refusal :=
  done (msixSet (4 * vector.val + 3) (msixWord s (4 * vector.val + 3) &&& 0xFFFFFFFE) s)

/-! ## Error log window -/

/-- FLT_LOG_TAIL (R879). -/
def logTail (v : Word) (s : State) : State :=
  let occ := ((regGet s 0x6000).toNat + 2 ^ 32 - (regGet s 0x6004).toNat) % 2 ^ 32
  if (v.toNat + 2 ^ 32 - (regGet s 0x6004).toNat) % 2 ^ 32 ≤ occ then regSet 0x6004 v s else regOr 0x6010 0x400 s

def execFltLogTail (req : Req) (v : Word) (s : State) : Host.Outcome State Fault Refusal :=
  done (guarded req 0x6004 (logTail v) s)

/-- FLT_LOG_SEL (R880). -/
def logSel (b : Nat) (c : Word) (s : State) : State :=
  let d := ((regGet s 0x6000).toNat + 2 ^ 32 - c.toNat) % 2 ^ 32
  let i := c.toNat % 256
  let e := if 1 ≤ d ∧ d ≤ 256 then tabGet? s.log i else none
  let bytes := match e with | some e => logBytes e | none => []
  let s := regSet (bankKey b 0x6104) (packed [(i, 0), (b2n e.isSome, 31)]) s
  (natsFrom 0 8).foldl (fun s' w => regSet (bankKey b (0x6120 + 4 * w)) (w32 (leAt bytes (4 * w) 4)) s') s

def execFltLogSel (req : Req) (counter : Word) (s : State) : Host.Outcome State Fault Refusal :=
  done (guarded req 0x6100 (logSel (reqBank req) counter) s)

/-! ## Operation registers (R18) -/

/-- DS_SEM_OP. -/
def semOpWrite (r : Req) (v : Word) (s : State) : State :=
  let i := fieldOf v 16 12
  let n := fieldOf v 0 16
  match fieldOf v 28 4 with
  | 0 => semSignalBy r i n s
  | 1 => semTryBy r i n s
  | 2 => semReadBy r i s
  | 3 => semArm (reqBank r) (reqTag r) i n s
  | 4 => semCancel (reqBank r) s
  | _ => semFailed (reqBank r) s

/-- BK_r_OP. -/
def bkOpWrite (r : Req) (ring : Nat) (v : Word) (s : State) : State :=
  if 7 ≤ fieldOf v 28 4 then bkResult (reqBank r) ring false 8 s
  else
    schedTick (ringOpBy r ring (fieldOf v 28 4) (bitAt v.toNat 27) (fieldOf v 0 16) (bitAt v.toNat 26) (bitAt v.toNat 25) s)

/-- TC_OP_CTRL and FC_OP_CTRL: without GO nothing starts. (DESIGN CHOICE, log entry 42) -/
def rangeOpWrite (r : Req) (far : Bool) (v : Word) (s : State) : State :=
  let b := reqBank r
  let op := fieldOf v 0 3
  if !bitAt v.toNat 31 then s
  else if 4 ≤ op ∨ fieldOf v 4 2 = 3 then rgRefuse b (if far then 0x230 else 0x124) s
  else if op = 0 then
    (if far then fcPrefetch b (hintOf (fieldOf v 4 2)) s else tcPrefetch b (hintOf (fieldOf v 4 2)) s)
  else if far then fcRangeOp b op s else tcRangeOp b op s

/-- The registers whose write is an operation: none for the others. -/
def opRegister (r : Req) (off : Nat) (v : Word) : Option (State → State) :=
  if off = 0x120 then some (rangeOpWrite r false v)
  else if off = 0x22C then some (rangeOpWrite r true v)
  else if off = 0x710 then some (epochCancelWrite v)
  else if off = 0x880 then some (semOpWrite r v)
  else if 0x1000 ≤ off ∧ off < 0x2000 ∧ off % 0x200 = 0x100 then
    some fun s => if bitAt v.toNat 0 then mbGo ((off - 0x1000) / 0x200) s else s
  else if off = 0x2010 then some (irqEoi (fieldOf v 0 6))
  else if off = 0x2208 then some (nqTail v)
  else if 0x4000 ≤ off ∧ off < 0x5000 ∧ off % 0x100 = 0x80 then some (dmaCtrl ((off - 0x4000) / 0x100) v.toNat)
  else if off = 0x5010 then some (dmaReqSw v)
  else if off = 0x6004 then some (logTail v)
  else if off = 0x6100 then some (logSel (reqBank r) v)
  else if 0x10000 ≤ off ∧ off < 0x20000 ∧ off % 0x200 = 0x20 then some (bkOpWrite r ((off - 0x10000) / 0x200) v)
  else none

/-! ## Stored registers (R15 to R17, R57 to R61) -/

/-- A shadow register of a channel whose shadow set is armed (R601). -/
def shadowLocked (s : State) (off : Nat) : Bool :=
  decide (0x4000 ≤ off) && decide (off < 0x5000) && decide (off % 0x100 < 0x40) && dmaArmed s ((off - 0x4000) / 0x100)

/-- A field written with a reserved encoding keeps its value (R17): EV_MODE 0b11, BACKOFF 0 to 5. -/
def keepReserved (off : Nat) (old v : Word) : Word :=
  if 0x4000 ≤ off ∧ off < 0x5000 ∧ off % 0x100 = 0x20 ∧ fieldOf v 12 2 = 3 then setField v 12 2 (fieldOf old 12 2)
  else if off = 0x900C ∧ fieldOf v 8 5 < 6 then setField v 8 5 (fieldOf old 8 5)
  else v

/-- Store, clear or ignore the fields of a register as its card says. -/
def cardWrite (b off : Nat) (v : Word) (s : State) : State :=
  match cardAt off with
  | none => s
  | some c =>
    let k := if c.banked then bankKey b off else off
    let old := regGet s k
    let v := keepReserved off old v
    regSet k (((old &&& ~~~(w32 c.rw)) ||| (v &&& w32 c.rw)) &&& ~~~(v &&& w32 c.w1c)) s

/-- Is this the LO word of a 64-bit register that a write may change (R57)? -/
def isStaged (off : Nat) : Bool := isLo64 off && ((cardAt off).map fun c => decide (c.rw ≠ 0)).getD false

/-- A locked shadow register refuses the write (R601). -/
def shadowRefuse (off : Nat) (s : State) : State := regOr (dmaBase ((off - 0x4000) / 0x100) + 0x90) 8 s

/-- A 32-bit write that the requester may make. -/
def regWrite32 (r : Req) (off : Nat) (v : Word) (s : State) : State :=
  let b := reqBank r
  if 0x1000 ≤ off ∧ off < 0x2000 ∧ off % 0x200 < 0x100 then mbFill ((off - 0x1000) / 0x200) (off % 0x200) (leBytes 4 v.toNat) s
  else if 0x2800 ≤ off ∧ off < 0x2C00 then msixSet ((off - 0x2800) / 4) v s
  else match opRegister r off v with
    | some f => f s
    | none =>
      if shadowLocked s off then shadowRefuse off s
      else if isStaged off then { s with staging := tabSet s.staging b (off, v) }
      else if 4 ≤ off ∧ isStaged (off - 4) then
        match tabGet? s.staging b with
        | some (o, w) =>
          if o = off - 4 then cardWrite b off v (cardWrite b (off - 4) w { s with staging := tabDel s.staging b })
          else cardWrite b off v s
        | none => cardWrite b off v s
      else cardWrite b off v s

/-- A 64-bit write: both words of a 64-bit register in one cycle, past the staging word (R59). -/
def regWrite64 (r : Req) (off v : Nat) (s : State) : State :=
  let b := reqBank r
  if isStaged off then
    if shadowLocked s off then shadowRefuse off s else cardWrite b (off + 4) (w32 (v / 2 ^ 32)) (cardWrite b off (w32 v) s)
  else regWrite32 r (off + 4) (w32 (v / 2 ^ 32)) (regWrite32 r off (w32 v) s)

/-- A register write by a requester (R40, R49, R50). (DEDUCED, log entry 15) -/
def regWrite (r : Req) (off size v : Nat) (s : State) : State :=
  if !regSizeOk off size then regViolation r 0x10 off true s
  else guarded r off (fun s => if size = 8 then regWrite64 r off v s else regWrite32 r off (w32 v) s) s

def execRegisterWrite (req : Req) (off size : Nat) (v : BitVec 64) (s : State) : Host.Outcome State Fault Refusal :=
  done (regWrite req off size v.toNat s)

/-- REGISTER_LO_WRITE (R57): the staging word takes the LO word. -/
def execRegisterLoWrite (req : Req) (off : Nat) (v : Word) (s : State) : Host.Outcome State Fault Refusal :=
  done (regWrite req off 4 v.toNat s)

/-- REGISTER_HI_WRITE (R57): `off` is the offset of the HI word. -/
def execRegisterHiWrite (req : Req) (off : Nat) (v : Word) (s : State) : Host.Outcome State Fault Refusal :=
  done (regWrite req off 4 v.toNat s)

/-- OP_WRITE_REFUSED (R18). -/
def execOpWriteRefused (req : Req) (off : Nat) (v : Word) (s : State) : Host.Outcome State Fault Refusal :=
  done (regWrite req off 4 v.toNat s)

end Sys2Proof.Machine
end

