-- ==== Sys2Proof/Machine/Revoke.lean ====
section
/-! DEFINITION. Quarantine and revocation (16_faults_repair.md, R885 to R894), forced and graceful disables of pixel
cores (06_pixel_cores.md, R428 to R436), a hung core (R891). -/

namespace Sys2Proof.Machine

open Sys2Proof

/-- The requester bank of an owner tag that has one. -/
def tagBank (tag : Nat) : Option Nat :=
  if tag = 0x18 then some 0 else if 0x10 ≤ tag ∧ tag ≤ 0x17 then some (tag - 0x0F) else none

/-- How many groups have an aborting task. -/
def abortCount (s : State) : Nat := (s.sgroups.filter fun e => e.2.phase == .aborting).length

/-- Semaphore waits of a tag. -/
def waitCount (s : State) (tag : Nat) : Nat :=
  (s.sems.map fun e => (e.2.queue.filter fun w => w.tag = tag).length).foldl (· + ·) 0

/-- Windows and waiting acquires of a tag. -/
def holdingCount (s : State) (tag : Nat) : Nat :=
  (s.windows.filter fun w => w.tag = tag).length +
    (s.rings.map fun e => ((e.2.waitP ++ e.2.waitC).filter fun a => a.tag = tag).length).foldl (· + ·) 0

/-- The tasks that a ring reset by revocation involves abort with cause 6 (R888). -/
def abortHolders (r tag : Nat) (s : State) : State :=
  let css := (natsFrom 0 16).filter fun cs =>
    decide ((ringOf s r).producer = cs) || s.windows.any fun w => decide (w.ring = r) && decide (w.tag = cs)
  css.foldl (fun s' cs => abortCs cs 6 tag s') s

/-- One ring loses the holdings of a tag (R887, R888). -/
def revokeRing (tag r : Nat) (s : State) : State :=
  let g := ringOf s r
  let s := ((g.waitP ++ g.waitC).filter fun a => a.tag = tag).foldl (fun s' a => bkResetRes r a s') s
  let s := dropAcquires r (fun a => a.tag = tag) s
  let produced := s.windows.any fun w => decide (w.ring = r) && decide (w.tag = tag) && w.producer
  let s := releaseAll r tag s
  if produced then ringReset r (abortHolders r tag s) else ringSettle r s

/-- Revoke the holdings of an owner tag (R886, R887, R890); `na` tasks were aborting before the quarantine. -/
def revokeFrom (na tag : Nat) (s : State) : State :=
  let nw := holdingCount s tag
  let ns := waitCount s tag
  let nl := (s.handles.filter fun e => e.2.lock == some tag).length
  let s := s.sems.foldl (fun s' e => semRevoke tag e.1 s') s
  let s := s.rings.foldl (fun s' e => revokeRing tag e.1 s') s
  let unlock (e : Nat × Handle) : Nat × Handle :=
    if e.2.lock == some tag then (e.1, { e.2 with lock := none }) else e
  let quiet (e : Nat × RangeOp) : Nat × RangeOp :=
    if tagBank tag == some (e.1 / 2) then (e.1, { e.2 with quiet := true }) else e
  let s := { s with handles := s.handles.map unlock, rangeOps := s.rangeOps.map quiet }
  let held := s.sgroups.filter fun e => match e.2.task with
    | some t => decide (e.2.cs = tag) && !t.arrivals.isEmpty && e.2.phase == .running
    | none => false
  let s := held.foldl (fun s' e => abortTask e.1 6 tag s') s
  let last := atBit tag 24 + atBit (min 255 nw) 16 + atBit (min 255 ns) 8 + atBit (min 15 nl) 4 +
    min 15 (abortCount s - na)
  regAdd 0x6050 1 (regSet 0x6054 (w32 last) s)

/-- Revoke the holdings of an owner tag whose own tasks stay as they are. -/
def revokeTag (tag : Nat) (s : State) : State := revokeFrom (abortCount s) tag s

/-- A replacement core that is OFF starts to wake (R433); the wake is its domain's transition. -/
def startWake (p : Nat) (s : State) : State :=
  let k := tabGet {} s.cores p
  if k.state == .off then
    { coreMod p (fun x => { x with state := .waking }) s with
      pwr := { s.pwr with doms := tabSet s.pwr.doms p { on := false, trans := some (true, s.ts) } } }
  else s

/-- A forced disable (R430 to R433): the core stops and is quarantined, its core set's holdings are revoked, the tasks
abort with cause 2, and a replacement, if named, takes over the logical core. -/
def forceDisable (p : Nat) (rep : Option Nat) (s : State) : State :=
  let c := (s.coreMap.find? fun e => e.2 = p).map (·.1)
  let s := regOr 0x570 8 (coreMod p (fun x => { x with state := .quarantined, disable := none, mapTo := none }) s)
  let s := { s with pwr := { s.pwr with doms := tabSet s.pwr.doms p { on := true } } }
  let s := match rep with | some r => startWake r s | none => s
  match c with
  | none => s
  | some c =>
    let s := match csOfCore s c with
      | some cs => abortCs cs 2 cs (revokeFrom (abortCount s) cs (abortCs cs 2 cs s))
      | none => s
    schedTick (moveCore c rep s)

/-- The replacement the device picks itself (R892): IDLE before OFF, the same quadrant first, the lowest number. -/
def pickSpare (s : State) (p : Nat) : Option Nat :=
  let st (k : Nat) : CoreState := (tabGet {} s.cores k).state
  let all := (natsFrom 0 68).filter fun k => k ≠ p
  let quad := all.filter fun k => k / 17 = p / 17
  match quad.find? fun k => st k == .idle with
  | some k => some k
  | none => match quad.find? fun k => st k == .off with
    | some k => some k
    | none => match all.find? fun k => st k == .idle with
      | some k => some k
      | none => all.find? fun k => st k == .off

/-- The logical core that a physical core serves. -/
def logicalOf (s : State) (p : Nat) : Option Nat := (s.coreMap.find? fun e => e.2 = p).map (·.1)

/-- RESULTS of CORE_DISABLE: LOGICAL and NEW_PHYS. -/
def forcedResult (s : State) (p : Nat) (rep : Option Nat) : List Byte := [b8 ((logicalOf s p).getD 0xFF), b8 (rep.getD 0xFF), 0, 0]

/-- A pending graceful CORE_DISABLE that a forced disable has overridden completes with DETAIL 1 (R432, R753).
(DESIGN CHOICE, log entry 43) -/
def gracefulEnds (p : Nat) (res : List Byte) (s : State) : State :=
  longDone (fun l => l.opcode == 0x0701 && decide (l.obj = p)) 0 1 res s

/-- A compute tile-op issued 50 ms ago has not completed (R891): HANG is logged and its core disabled by force. -/
def coreHang (id t : Nat) (s : State) : State :=
  let s := tsTo t s
  match tabGet? s.ops id with
  | none => s
  | some o =>
    if o.issued && (o.unit == .matrix || o.unit == .vector || o.unit == .sfu) &&
        decide (o.issuedAt + 50000000 ≤ s.ts) then
      let p := coreDetail s o.core
      let s := logPut { source := groupCs s o.group, cls := 3, code := 0x08, detail := p, flags := 0x20 } s
      gracefulEnds p (forcedResult s p (pickSpare s p)) (forceDisable p (pickSpare s p) { s with ops := tabDel s.ops id })
    else s

def execCoreHang (op : Nat) (t : Nat) (s : State) : Host.Outcome State Fault Refusal := done (coreHang op t s)

end Sys2Proof.Machine
end

