-- ==== Sys2Proof/Machine/Cluster.lean ====
section
/-! DEFINITION. The Trestle cluster around its cores (11_trestle_cluster.md): core states, the interrupt controller
(R655 to R660), the cluster-local registers (R652), halt request and forced stop (R667 to R670), software events
(R673). What a core executes is in the Tr files. -/

namespace Sys2Proof.Machine

open Sys2Proof

/-! ## Interrupt controller (R655 to R660) -/

/-- A register of the cluster-local region. -/
def clReg (s : State) (off : Nat) : Word := regGet s (clusterKey off)

/-- The cause of a level source (R655). -/
def ticCause (s : State) (n : Nat) : Bool :=
  if 32 ≤ n ∧ n < 48 then dmaInt s (n - 32) && dmaToTrestle s (n - 32)
  else if n = 48 ∨ n = 49 then bitAt (regGet s (mbBase (n - 44) + 0x104)).toNat 3
  else if n = 51 then enabledBit s 0x3090 0x3094
  else if 56 ≤ n ∧ n < 64 then (hartOf s (n - 56)).state == .haltRequested
  else false

/-- Is a source a level source? -/
def ticLevel (n : Nat) : Bool := (32 ≤ n && n < 50) || n == 51 || (56 ≤ n && n < 64)

/-- Is a source pending (R657, R660)? -/
def ticPending (s : State) (n : Nat) : Bool :=
  if ticLevel n then ticCause s n && !s.tic.claimed.contains n else s.tic.pend.contains n

/-- The sources that reach core i, as bits of enable word w (R656). -/
def ticMask (i w : Nat) : Nat :=
  if w = 0 then 0x01010101 * 2 ^ i else if w = 1 then 0x00FFFFFF + 2 ^ (24 + i) else 0xFFFFFFFF

/-- Offset of the first enable word, the threshold and the claim register of core i in a mode. -/
def ticEn (i : Nat) (sMode : Bool) : Nat := 0x2000 + 0x100 * i + 0x20 * b2n sMode
def ticThr (i : Nat) (sMode : Bool) : Nat := 0x2040 + 0x100 * i + 8 * b2n sMode

def ticEnabled (s : State) (i : Nat) (sMode : Bool) (n : Nat) : Bool :=
  bitAt (clReg s (ticEn i sMode + 4 * (n / 32))).toNat (n % 32)

def ticPrio (s : State) (n : Nat) : Nat := fieldOf (clReg s (4 * n)) 0 3

/-- The source a claim of core i returns: highest priority above the threshold, lowest number among equals (R658,
R659). -/
def ticBest (s : State) (i : Nat) (sMode : Bool) : Option Nat :=
  let thr := fieldOf (clReg s (ticThr i sMode)) 0 3
  (natsFrom 0 256).foldl (fun b n =>
    if ticPending s n && ticEnabled s i sMode n && decide (thr < ticPrio s n) then
      match b with
      | some m => if ticPrio s m < ticPrio s n then some n else b
      | none => some n
    else b) none

/-- A read of a claim register (R659). -/
def ticClaim (i : Nat) (sMode : Bool) (s : State) : State × Word :=
  match ticBest s i sMode with
  | none => (s, 0)
  | some n =>
    ({ s with tic := { s.tic with pend := s.tic.pend.filter (· ≠ n), claimed := n :: s.tic.claimed } },
      w32 (0x80000000 + n))

/-- A write of a source number to a claim register (R660). (DEDUCED, log entry 36) -/
def ticComplete (n : Nat) (s : State) : State :=
  if s.tic.claimed.contains n then
    let t := s.tic
    let pend := if t.kept.contains n && !t.pend.contains n then n :: t.pend else t.pend
    { s with tic := { pend := pend, claimed := t.claimed.filter (· ≠ n), kept := t.kept.filter (· ≠ n) } }
  else s

def execTicClaim (core : Fin 8) (sMode : Bool) (s : State) : Host.Outcome State Fault Refusal :=
  let q := ticClaim core sMode s
  done (reply (1 + core.val) { data := leBytes 4 q.2.toNat } q.1)

def execTicComplete (_core : Fin 8) (source : Fin 256) (s : State) : Host.Outcome State Fault Refusal :=
  done (ticComplete source s)

/-! ## Halt request, forced stop, software events -/

/-- TR_HALT_ACK (R668). (DEDUCED, log entry 36) -/
def haltAck (i : Nat) (s : State) : State :=
  if (hartOf s i).state == .haltRequested then hartMod i (fun h => { h with haltAck := true }) s else s

def execTrHaltAck (core : Fin 8) (s : State) : Host.Outcome State Fault Refusal := done (haltAck core s)

/-- The cores of a TR_HALT command (first payload byte), and what its notice reports. -/
def haltCores (l : LongCmd) : Nat := leAt l.payload 0 1
def haltStates (s : State) (cores : Nat) (x : TrState) : Nat :=
  (natsFrom 0 8).foldl (fun m i => if bitAt cores i && (hartOf s i).state == x then m + 2 ^ i else m) 0
def haltResult (s : State) (cores : Nat) : List Byte :=
  [b8 (haltStates s cores .halted), b8 (haltStates s cores .stopped), 0, 0]

/-- The halt commands whose cores have all come to rest are done (R670); an overridden one (`aux` 9) with DETAIL 1. -/
def haltCheck (s : State) : State :=
  s.sup.longs.foldl (fun s' e =>
    let c := haltCores e.2
    if e.2.opcode = 0x0A01 ∧ e.2.done.isNone ∧
        haltStates s' c .halted + haltStates s' c .stopped = c % 256 then
      longDoneAt e.1 0 (if e.2.aux = 9 then 1 else 0) (haltResult s' c) s'
    else s') s

/-- Core i halts on request (R668). -/
def haltNow (i : Nat) (s : State) : State :=
  haltCheck (regOr 0x304 (2 ^ i) (trTo i .halted (hartMod i (fun h => { h with haltAck := false, haltBy := none }) s)))

/-- The far loads of core i are discarded: what has come, and what comes. (DESIGN CHOICE, log entry 37) -/
def loadsDrop (i : Nat) (s : State) : State :=
  let mine (w : FarWait) : Bool := !w.write && decide (w.tag = 0x10 + i) && w.mode == .engine
  xkMod (fun x => { x with got := x.got.filter fun e => decide (e.1 / 2 ^ 33 ≠ 0x10 + i)
                           far := x.far.map fun w => if mine w then { w with mode := .prefetch } else w }) s

/-- A forced stop of core i (R669). -/
def forceStop (i : Nat) (s : State) : State :=
  let s := regOr 0x304 (2 ^ (8 + i)) (trTo i .stopped
    (hartMod i (fun h => { h with haltAck := false, haltBy := none, wfi := false, resv := none }) s))
  haltCheck (schedTick (revokeTag (0x10 + i) (loadsDrop i s)))

/-- HALT_TIMEOUT (R670). -/
def haltExpire (i : Nat) (s : State) : State :=
  match (hartOf s i).haltBy with
  | some (t, _) => if t ≤ s.ts && trRuns s i then forceStop i s else s
  | none => s

def execHaltTimeout (core : Fin 8) (t : Nat) (s : State) : Host.Outcome State Fault Refusal :=
  done (haltExpire core (timeTo t s))

/-- TR_EV_PULSE (R673). -/
def trEvPulse (i k : Nat) (s : State) : State :=
  if tabGet? s.evOwner k == some i then evPulse (144 + k) s else regOr 0x304 0x40000 (regAdd 0x30C 1 s)

def execTrEvPulse (core : Fin 8) (k : Fin 16) (s : State) : Host.Outcome State Fault Refusal :=
  done (schedTick (trEvPulse core k s))

/-! ## Timer (R653, R654) -/

/-- MTIMECMP of core i. -/
def mtimecmp (s : State) (i : Nat) : Nat := (clReg s (0x4000 + 8 * i)).toNat + 2 ^ 32 * (clReg s (0x4004 + 8 * i)).toNat

/-- TIMER_INTERRUPT (R654): a core that waits in WFI wakes; the pending bit itself follows from TS. -/
def timerWake (i : Nat) (sMode : Bool) (s : State) : State :=
  let h := hartOf s i
  let cmp := if sMode then (tabGet 0 h.csr 0x14D).toNat else mtimecmp s i
  if cmp ≤ s.ts then hartMod i (fun h => { h with wfi := false }) s else s

def execTimerInterrupt (core : Fin 8) (sMode : Bool) (t : Nat) (s : State) : Host.Outcome State Fault Refusal :=
  done (timerWake core sMode (timeTo t s))

/-! ## Cluster-local region (R652) -/

/-- The bits of a register of the region that a write stores; 0 where the table names none. -/
def clMask (off : Nat) : Nat :=
  if off < 0x400 then 7
  else if 0x2000 ≤ off ∧ off < 0x2800 then
    let i := (off - 0x2000) / 0x100
    let o := off % 0x100
    if o < 0x40 then ticMask i (o % 0x20 / 4) else if o = 0x40 ∨ o = 0x48 then 7 else 0
  else if 0x3000 ≤ off ∧ off < 0x3100 then 0x1FF
  else if 0x4000 ≤ off ∧ off < 0x4040 then 0xFFFFFFFF
  else if 0x4100 ≤ off ∧ off < 0x4120 then 1
  else 0

/-- Is it a claim register, and of which mode and core? -/
def clClaim (off : Nat) : Option (Nat × Bool) :=
  if 0x2000 ≤ off ∧ off < 0x2800 ∧ (off % 0x100 = 0x44 ∨ off % 0x100 = 0x4C) then
    some ((off - 0x2000) / 0x100, decide (off % 0x100 = 0x4C))
  else none

/-- A 32-bit read. -/
def clRead32 (off : Nat) (s : State) : State × Word :=
  match clClaim off with
  | some (i, m) => ticClaim i m s
  | none =>
    if 0x1000 ≤ off ∧ off < 0x1020 then
      let w := (off - 0x1000) / 4
      (s, w32 ((natsFrom 0 32).foldl (fun m b => if ticPending s (32 * w + b) then m + 2 ^ b else m) 0))
    else if clMask off = 0 then (s, 0)
    else (s, clReg s off)

/-- A 32-bit write by core c. -/
def clWrite32 (c off : Nat) (v : Word) (s : State) : State :=
  match clClaim off with
  | some _ => ticComplete (fieldOf v 0 8) s
  | none =>
    if off = 0x5000 then haltAck c s
    else if off = 0x5004 then trEvPulse c (fieldOf v 0 4) s
    else if clMask off = 0 then s
    else regSet (clusterKey off) (v &&& w32 (clMask off)) s

/-- The registers of the region that are 64-bit. -/
def clWide (off : Nat) : Bool := decide (0x4000 ≤ off) && decide (off < 0x4040) && decide (off % 8 = 0)

/-- A VIOLATION entry for the size or alignment of an access (R50). -/
def clViolation (c off : Nat) (write : Bool) (s : State) : State :=
  logPut { source := 0x10 + c, cls := 2, code := 0x10, addr := off, flags := atBit (b2n write) 2 } s

/-- A read by core c under R49 to R56; the core's latch is the one of its registers. -/
def clRead (c off size : Nat) (s : State) : State × Nat :=
  if !regSizeOk off size then (clViolation c off false s, 0)
  else if size = 8 then
    let a := clRead32 off s
    let b := clRead32 (off + 4) a.1
    (b.1, a.2.toNat + 2 ^ 32 * b.2.toNat)
  else if clWide off then
    ({ s with latches := tabSet s.latches (1 + c) (clusterKey off, clReg s (off + 4)) }, (clReg s off).toNat)
  else match tabGet? s.latches (1 + c) with
    | some (o, w) =>
      if 4 ≤ off ∧ clWide (off - 4) ∧ o = clusterKey (off - 4) then
        ({ s with latches := tabDel s.latches (1 + c) }, w.toNat)
      else let q := clRead32 off s; (q.1, q.2.toNat)
    | none => let q := clRead32 off s; (q.1, q.2.toNat)

/-- A write by core c under R49, R50, R57 to R59. -/
def clWrite (c off size v : Nat) (s : State) : State :=
  if !regSizeOk off size then clViolation c off true s
  else if size = 8 then clWrite32 c (off + 4) (w32 (v / 2 ^ 32)) (clWrite32 c off (w32 v) s)
  else if clWide off then { s with staging := tabSet s.staging (1 + c) (clusterKey off, w32 v) }
  else match tabGet? s.staging (1 + c) with
    | some (o, w) =>
      if 4 ≤ off ∧ clWide (off - 4) ∧ o = clusterKey (off - 4) then
        clWrite32 c off (w32 v) (clWrite32 c (off - 4) w { s with staging := tabDel s.staging (1 + c) })
      else clWrite32 c off (w32 v) s
    | none => clWrite32 c off (w32 v) s

end Sys2Proof.Machine
end

