-- ==== Sys2Proof/Machine/Cmd.lean ====
section
/-! DEFINITION. What every supervisor command shares (12_supervisor_mailboxes.md, 13_command_set.md): the order of checks
(R699), the object of a command (R729), sequence numbers and commit (R696 to R698), responses (R691 to R694), long
commands (R703, R730), the relay through MB_7 (R867). -/

namespace Sys2Proof.Machine

open Sys2Proof

/-- What a command comes to: a status other than OK and ACCEPTED, with which nothing changes (R676); results; or
acceptance, a notice to follow (R701). -/
inductive CmdRes where
  | stop (status : Nat) (data : List Byte)
  | ok (s : State) (data : List Byte)
  | accepted (s : State)
  deriving DecidableEq, Repr

/-- A command's meaning, given the header and payload of its request. -/
abbrev CmdFun := Hdr → List Byte → State → CmdRes

/-! ## Checks (R699, R725, R726) -/

/-- The first failing check sets the status. -/
def checks (l : List (Bool × Nat)) (k : CmdRes) : CmdRes :=
  match l.find? fun e => e.1 with
  | some e => .stop e.2 []
  | none => k

/-- Steps 5 and 6 as far as every command has them: the LENGTH, and the reserved FLAGS. -/
def lenIs (h : Hdr) (p : List Byte) (n : Nat) : List (Bool × Nat) :=
  [(p.length != n, 0x11), (decide (1 < h.flags.toNat), 0x12)]

/-- A check with its status. -/
def badIf (c : Prop) [Decidable c] (status : Nat) : Bool × Nat := (decide c, status)

/-- Bytes [off, off + n) of a payload are 0. -/
def zeroAt (p : List Byte) (off n : Nat) : Bool := leAt p off n == 0

/-- Reserved payload bytes. -/
def rsv (p : List Byte) (off n : Nat) : Bool × Nat := (!zeroAt p off n, 0x12)

/-! ## The object of a command (R729) -/

/-- What the first payload field of a command names, and the field's size: 0 the whole device, 1 a port, 2 a stream,
3 a handle, 4 a model, 5 a core set, 6 a stream group, 7 a handle-table index, 8 a semaphore, 9 an arrival counter,
10 a ring, 11 a node, 12 a physical core, 13 a logical core, 14 a logical bank, 15 a physical bank, 16 bank groups,
17 a Trestle pair, 18 Trestle cores, 19 a class, 20 a calendar entry, 21 an event owner, 22 a configuration item,
32 + g the unit of group g of the command table, where the first field names nothing. (DEDUCED, log entry 45) -/
def objKind (op : Nat) : Nat × Nat :=
  match op with
  | 0x0101 | 0x0103 => (0, 0)
  | 0x0200 | 0x0204 | 0x0205 | 0x0206 | 0x0802 | 0x0805 => (1, 1)
  | 0x0202 | 0x0203 => (2, 1)
  | 0x0300 | 0x0401 | 0x0403 | 0x0404 | 0x0904 | 0x0A00 => (3, 2)
  | 0x0301 | 0x0302 | 0x0607 => (4, 1)
  | 0x0303 | 0x0304 | 0x030B => (5, 1)
  | 0x0305 | 0x0306 | 0x0307 | 0x0308 | 0x0309 | 0x030A => (6, 1)
  | 0x0402 => (7, 1)
  | 0x0406 | 0x0407 => (8, 2)
  | 0x0408 | 0x0409 => (9, 2)
  | 0x040A | 0x040B | 0x040C => (10, 1)
  | 0x040E => (19, 1)
  | 0x0501 | 0x0502 | 0x0503 => (20, 2)
  | 0x0600 | 0x0603 | 0x0605 | 0x0606 => (11, 1)
  | 0x0701 | 0x0702 | 0x0801 => (12, 1)
  | 0x0703 => (13, 1)
  | 0x0704 => (14, 2)
  | 0x0705 => (15, 2)
  | 0x0800 => (16, 4)
  | 0x0803 => (17, 1)
  | 0x0A01 => (18, 1)
  | 0x0A02 => (21, 1)
  | 0x0900 | 0x0901 => (22, 2)
  | 0x0602 | 0x0706 | 0x0707 | 0x0807 | 0x0902 | 0x0903 | 0x0905 => (0, 0)
  | _ => (32 + op / 256, 0)

/-- Do two values of the first field name one object? Masks do where they share a bit, PEER 0xFF is every node.
(DEDUCED, log entry 45) -/
def objMeets (k a b : Nat) : Bool :=
  if k = 16 ∨ k = 18 then a &&& b != 0
  else if k = 11 then a == b || a == 0xFF || b == 0xFF
  else if k = 3 then a % 256 == b % 256
  else a == b

/-- Step 8: an accepted class L command on the same object has not posted its notice. `skip` names the ones a rule
exempts. (DEDUCED, log entry 45) -/
def busyBut (s : State) (op : Nat) (p : List Byte) (skip : LongCmd → Bool) : Bool :=
  let k := objKind op
  s.sup.longs.any fun e =>
    let j := objKind e.2.opcode
    decide (j.1 = k.1) && objMeets k.1 (leAt p 0 k.2) (leAt e.2.payload 0 j.2) && !skip e.2

def busy (s : State) (op : Nat) (p : List Byte) : Bool × Nat := (busyBut s op p fun _ => false, 0x20)

/-- Accept a long command: it gets a key. -/
def accept (h : Hdr) (op obj : Nat) (p : List Byte) (deadline : Option Nat) (aux : Nat) (s : State) : State × Nat :=
  let k := s.sup.nextCmd
  let l : LongCmd := { mb := h.mb, seq := h.seq.toNat, opcode := op, obj := obj, payload := p, deadline := deadline,
                       aux := aux }
  ({ s with sup := { s.sup with nextCmd := k + 1, longs := tabSet s.sup.longs k l } }, k)

/-- Accept a long command whose work needs nothing but time: its final status is known, the notice follows. -/
def acceptDone (h : Hdr) (op obj : Nat) (p : List Byte) (status detail : Nat) (res : List Byte) (s : State) : CmdRes :=
  let q := accept h op obj p none 0 s
  .accepted (longDoneAt q.2 status detail res q.1)

/-! ## Rights (R687, R688) -/

/-- The rights of a mailbox. -/
def mbRights (s : State) (n : Nat) : Nat := if n = 6 then 0xFF else regBits s (mbBase n + 0x10C) 0 8

/-- Does mailbox n have a right, by its bit; none is needed by some commands. -/
def hasRight (s : State) (n : Nat) (r : Option Nat) : Bool :=
  match r with
  | some b => bitAt (mbRights s n) b
  | none => true

/-! ## Responses -/

/-- A UART frame (R714). -/
def uartBytes (d : List Byte) : List Byte := [0xA5, 0x5A] ++ d ++ leBytes 2 (crc16 d)

/-- The 8 B header of a request or response, and the payload (R691). -/
def msgBytes (op seq word : Nat) (d : List Byte) : List Byte :=
  leBytes 2 op ++ leBytes 2 seq ++ leBytes 2 d.length ++ leBytes 2 word ++ d

/-- A relayed request goes into MB_7 when it is free (R867). (DEDUCED, log entry 59) -/
def relayNext (s : State) : State :=
  match s.xk.relayBusy, s.xk.relayIn with
  | none, (src, d) :: t =>
    if mbFree s 7 then mbGo 7 (mbFill 7 0 d (xkMod (fun x => { x with relayBusy := some src, relayIn := t }) s)) else s
  | _, _ => s

/-- A relayed response has come back from a node (R751): OK with its status, LENGTH and the first 16 B of its payload. -/
def relayDone (src : Nat) (d : List Byte) (s : State) : State :=
  match s.xk.relays.find? fun r => decide (r.2.1 = src) with
  | none => s
  | some r =>
    let b := (d.drop 8).take 16
    longDoneAt r.1 0 0 (leBytes 2 (leAt d 6 2) ++ leBytes 2 (leAt d 4 2) ++ b ++ List.replicate (16 - b.length) 0)
      (xkMod (fun x => { x with relays := x.relays.erase r }) s)

/-- A response of MB_7 goes back to the source of its request; this node may have relayed to itself. -/
def relayBack (src : Nat) (d : List Byte) (s : State) : State :=
  let s := xkMod (fun x => { x with relayBusy := none }) s
  relayNext (if xkJoined s && decide (src = s.xk.node) then relayDone src d s else xkSend src 11 d s)

/-- The response buffer holds a response: STATE becomes DONE, RSP_NEW is set unless QUIET (R691, R692); over the UART it
leaves as a frame (R715), from MB_7 as RELAY_RSP to the source (R867). (DEDUCED, log entry 44) -/
def mbPost (n : Nat) (quiet : Bool) (d : List Byte) (s : State) : State :=
  let b := mbBase n + 0x104
  let s := regField b 0 3 3 (mbMod n (fun m => { m with rsp := d }) s)
  let s := if quiet then s else regOr b 8 s
  let s := if n = 6 && bitAt (regGet s b).toNat 8 then emit (.uart (uartBytes d)) s else s
  match n, s.xk.relayBusy with
  | 7, some src => relayBack src d s
  | _, _ => s

/-- A response that is not committed, to be posted. -/
def mbAnswer (h : Hdr) (op status : Nat) (s : State) : State × List Byte := (s, msgBytes op h.seq.toNat status [])

/-- Commit: the record of LAST is kept, LAST becomes the request's sequence (R679, R698); the response is to be posted. -/
def mbCommit (h : Hdr) (op status : Nat) (data : List Byte) (s : State) : State × List Byte :=
  let d := msgBytes op h.seq.toNat status data
  (mbMod h.mb (fun m => { m with record := d }) (regSet (mbBase h.mb + 0x108) (w32 h.seq.toNat) s), d)

/-- The recorded response of LAST; before any request it is undefined. (DEDUCED, log entry 44) -/
def mbRecord (s : State) (n : Nat) : List Byte :=
  let r := (mbOf s n).record
  if r.isEmpty then leBytes 8 (freeNow s).toNat else r

/-- Does the active supervisor serve commands: boot complete (R939), no takeover (R684) or hand-over (R686) under way? -/
def serves (s : State) : Bool := bitAt (regGet s 0x20).toNat 0 && !s.sup.failed && s.sup.handover.isNone

/-- Steps 2 to 10 of R699 for a request whose LENGTH is at most 248. `f` is the command the OPCODE names, with its
right. (DEDUCED, log entry 44) -/
def serveChecked (h : Hdr) (op : Nat) (p : List Byte) (f : Option (Option Nat × CmdFun)) (s : State) : State × List Byte :=
  let d := (h.seq.toNat + 65536 - regBits s (mbBase h.mb + 0x108) 0 16) % 65536
  if d = 0 then (if (mbOf s h.mb).record.isEmpty then freeStep s else s, mbRecord s h.mb)
  else if d ≠ 1 then mbAnswer h op 0x70 s
  else match f with
    | none => mbCommit h op 0x10 [] s
    | some (r, f) =>
      if !hasRight s h.mb r then mbCommit h op 0x60 [] s
      else match f h p s with
        | .stop status data => mbCommit h op status data s
        | .ok s' data => mbCommit h op 0 data s'
        | .accepted s' => mbCommit h op 1 [] s'

/-- One request as far as its commit (R699), and the response to post. (DEDUCED, log entry 44) -/
def serveCommit (h : Hdr) (op len : Nat) (p : List Byte) (f : Option (Option Nat × CmdFun)) (s : State) : State × List Byte :=
  if 248 < len then mbAnswer h op 0x11 s else serveChecked h op p f s

/-- One request. -/
def serveOne (h : Hdr) (op len : Nat) (p : List Byte) (f : Option (Option Nat × CmdFun)) (s : State) : State :=
  let q := serveCommit h op len p f s
  mbPost h.mb (bitAt h.flags.toNat 0) q.2 q.1

/-- The row of a command: the active supervisor serves a request for it. (DEDUCED, log entry 44) -/
def cmdRow (op : Nat) (right : Option Nat) (f : CmdFun) (h : Hdr) (p : List Byte) (s : State) : State :=
  if serves s then schedTick (serveOne h op p.length p (some (right, f)) s) else s

end Sys2Proof.Machine
end

