-- ==== Sys2Proof/Machine/CmdSys.lean ====
section
/-! DEFINITION. The system commands (0x01xx, R733 to R735). -/

namespace Sys2Proof.Machine

open Sys2Proof

/-- NOP echoes its payload. -/
def cmdNop : CmdFun := fun h p s => checks [badIf (248 < p.length) 0x11, badIf (1 < h.flags.toNat) 0x12] (.ok s p)

/-- Cores OFF or IDLE and not on their way to a logical core; spare banks that serve no logical bank and are not mapped
out. (DEDUCED, log entry 48) -/
def spareCores (s : State) : Nat :=
  ((natsFrom 0 68).filter fun p =>
    let c := tabGet {} s.cores p
    (c.state == .off || c.state == .idle) && c.mapTo.isNone).length
def spareFree (s : State) (b : Nat) : Bool :=
  !s.bankOut.contains b && !(s.bankMap.any fun e => decide (e.2 = b)) &&
    (match s.copy with | some c => decide (c.dest ≠ b) | none => true)
def spareBanks (s : State) : Nat := ((natsFrom 256 16).filter (spareFree s)).length

/-- GET_INFO (R733). (DEDUCED, log entry 48) -/
def infoBytes (s : State) : List Byte :=
  let id := (regGet s 4).toNat
  let fw := (regGet s 8).toNat
  let groups := ((natsFrom 0 17).filter fun g => groupOf s g == .on).length
  [b8 id, b8 (id / 256), b8 (if Config.commercial then 2 else 1), b8 (b2n s.limp.isSome), b8 (fw / 2 ^ 24),
    b8 (fw / 2 ^ 16)] ++ leBytes 2 fw ++ leBytes 8 Config.uid.toNat ++ [b8 s.sup.cfgCopy, 0, 0, 0] ++
    leBytes 4 (s.sup.cfgSeq.getD 0) ++
    [b8 s.coreMap.length, b8 groups, b8 (spareCores s), b8 (spareBanks s)]

def cmdGetInfo : CmdFun := fun h p s => checks (lenIs h p 0 ++ [busy s 0x0101 p]) (.ok s (infoBytes s))

/-- SYS_RESET (R734): the reset follows 1 ms after DONE. -/
def cmdSysReset : CmdFun := fun h p s =>
  checks (lenIs h p 4 ++ [badIf (leAt p 0 4 ≠ 0x52534554) 0x12, busy s 0x0102 p])
    (.ok { s with pwr := { s.pwr with sysResetAt := some (s.ts + 1000000) } } [])

/-- TIME_MAP (R735). -/
def timeMapBytes (s : State) : List Byte :=
  let press := match s.lt.press with | .stopped => 0 | .forward => 1 | .reverse => 2
  leBytes 8 (lxNow s % 2 ^ 56) ++ leBytes 8 s.ts ++ leBytes 4 s.lt.repeatCount.toNat ++ leBytes 4 (velReg s).toNat ++
    [b8 press, 0, 0, 0]

def cmdTimeMap : CmdFun := fun h p s => checks (lenIs h p 0 ++ [busy s 0x0103 p]) (.ok s (timeMapBytes s))

def execNopCmd (h : Hdr) (p : List Byte) (s : State) : Host.Outcome State Fault Refusal :=
  done (cmdRow 0x0100 none cmdNop h p s)
def execGetInfo (h : Hdr) (p : List Byte) (s : State) : Host.Outcome State Fault Refusal :=
  done (cmdRow 0x0101 none cmdGetInfo h p s)
def execSysReset (h : Hdr) (p : List Byte) (s : State) : Host.Outcome State Fault Refusal :=
  done (cmdRow 0x0102 (some 6) cmdSysReset h p s)
def execTimeMap (h : Hdr) (p : List Byte) (s : State) : Host.Outcome State Fault Refusal :=
  done (cmdRow 0x0103 none cmdTimeMap h p s)

end Sys2Proof.Machine
end

