-- ==== Sys2Proof/Machine/Ports.lean ====
section
/-! DEFINITION. Sensor ports (03_sensor_ports.md): discovery, link states, loss and reconnection, camera control, camera
events, and the rows of the ingest stage. -/

namespace Sys2Proof.Machine

open Sys2Proof

/-! ## Link state (R149 to R157) -/

/-- The link state changes: EV_24 + n and LINK_CHANGE (R149). -/
def linkTo (port : Nat) (l : Link) (s : State) : State :=
  if (portOf s port).link == l then s
  else spEvent port 4 (evPulse (24 + port) (portMod port (fun p => { p with link := l }) s))

/-- Does every configured connection carry the link? -/
def connsUp (p : Port) : Bool := p.conns.all fun e => !e.2.used || e.2.up

/-- An answer put in order of device connection ID. -/
def answerInsert (a : CxpAnswer) : List CxpAnswer → List CxpAnswer
  | [] => [a]
  | b :: t => if a.devId.val ≤ b.devId.val then a :: b :: t else b :: answerInsert a t

/-- The enabled connections that do not answer in a discovery are lost, since they were lost before or else since now, and
are tried again under R156. -/
def connsLost (p : Port) (now : Nat) : Tab Conn :=
  ((natsFrom 0 4).filter fun m => bitAt p.connEn m).map fun m =>
    (m, { lostAt := some ((tabGet {} p.conns m).lostAt.getD now) })

/-- DISCOVERY_DONE (R150 to R152). An answering connection is configured when its device connection ID is below the number
of configured connections. Without the master's answer the port goes DOWN. (DEDUCED, log entry 29) -/
def discoveryDone (port : Nat) (answers : List CxpAnswer) (s : State) : State :=
  let p := portOf s port
  if p.link != .discovery then s
  else
    let l := (answers.filter fun a => bitAt p.connEn a.conn).foldr answerInsert []
    match l with
    | m :: _ =>
      if m.devId.val = 0 then
        let n := min m.count l.length
        let speed := min m.speed p.maxSpeed
        let conns := l.foldl (fun t a =>
          let used := decide (a.devId.val < n)
          tabSet t a.conn.val { up := used, master := a.devId == 0, devId := a.devId.val, used := used })
          (connsLost p s.ts)
        linkTo port .up (emit (.cxpConfig port n speed)
          (portMod port (fun p => { p with conns := conns, speed := speed }) s))
      else discoveryFails port s
    | [] => discoveryFails port s
where
  /-- No master: the enabled connections count as lost. -/
  discoveryFails (port : Nat) (s : State) : State :=
    linkTo port .down (portMod port (fun p => { p with
      conns := (connsLost p s.ts).map fun e => (e.1, { e.2 with lostAt := some s.ts }), speed := 0 }) s)

def execDiscoveryDone (port : Fin 6) (answers : List CxpAnswer) (t : Nat) (s : State) :
    Host.Outcome State Fault Refusal :=
  done (discoveryDone port answers (timeTo t s))

/-- CONNECTION_LOST (R153 to R155, R210). (DEDUCED, log entry 29) -/
def connectionLost (port conn : Nat) (s : State) : State :=
  let c := tabGet {} (portOf s port).conns conn
  if !c.up then s
  else
    let s := portMod port (fun p => { p with
      conns := tabSet p.conns conn { c with up := false, lostAt := some s.ts } }) s
    let s := spEvent port conn s
    if c.master then schedTick (endPort port (linkTo port .down s))
    else if c.used && (portOf s port).link == .up then linkTo port .degraded s else s

def execConnectionLost (port : Fin 6) (conn : Fin 4) (t : Nat) (s : State) : Host.Outcome State Fault Refusal :=
  done (connectionLost port conn (timeTo t s))

/-- RECONNECT_ATTEMPT (R156). -/
def reconnectAttempt (port conn : Nat) (answers : Bool) (s : State) : State :=
  let p := portOf s port
  let c := tabGet {} p.conns conn
  match c.lostAt with
  | none => s
  | some u =>
    if !(p.autoReconnect && p.en) || decide (s.ts < u + 100000000) then s
    else if !answers then
      portMod port (fun p => { p with conns := tabSet p.conns conn { c with lostAt := some s.ts } }) s
    else if c.master || !(p.conns.any fun e => e.2.master) then
      linkTo port .discovery (portMod port (fun p => { p with
        conns := tabSet p.conns conn { c with lostAt := none } }) s)
    else
      let s := portMod port (fun p => { p with conns := tabSet p.conns conn { c with up := true, lostAt := none } }) s
      if (portOf s port).link == .degraded && connsUp (portOf s port) then linkTo port .up s else s

def execReconnectAttempt (port : Fin 6) (conn : Fin 4) (answers : Bool) (t : Nat) (s : State) :
    Host.Outcome State Fault Refusal :=
  done (reconnectAttempt port conn answers (timeTo t s))

/-! ## Camera control and events (R158 to R160) -/

/-- CONTROL_ACKNOWLEDGE (R158): a read also writes its data to the buffer that the command names. -/
def controlAck (port : Nat) (ack : Word) (data : List Byte) (s : State) : State :=
  match (portOf s port).ctrl with
  | none => s
  | some c =>
    let s := portMod port (fun p => { p with ctrl := none }) s
    match tabGet? s.sup.longs c.cmd with
    | none => s
    | some l =>
      if l.opcode = 0x0205 then
        let h := leAt l.payload 8 2
        let s := if h = 0 then s
          else (supWrite ((handleOf s (h % 256)).base + leAt l.payload 12 4) (data.take (leAt l.payload 2 2)) s).1
        longDoneAt c.cmd 0 0 (leBytes 4 ack.toNat ++ padTo 16 (data.take 16)) s
      else longDoneAt c.cmd 0 0 (leBytes 4 ack.toNat) s

def execControlAcknowledge (port : Fin 6) (ack : Word) (data : List Byte) (s : State) :
    Host.Outcome State Fault Refusal :=
  done (controlAck port ack data s)

/-- The outstanding control transaction of a port ends with FAULT (R159, R212). -/
def controlFault (port : Nat) (s : State) : State :=
  match (portOf s port).ctrl with
  | none => s
  | some c => longDoneAt c.cmd 0x40 0 [] (portMod port (fun p => { p with ctrl := none }) s)

/-- CTRL_TIMEOUT (R159). -/
def ctrlTimeout (port : Nat) (s : State) : State :=
  match (portOf s port).ctrl with
  | none => s
  | some c =>
    if s.ts < c.sent + 1000000 * (portOf s port).ctrlTimeout then s else spEvent port 6 (controlFault port s)

def execCtrlTimeout (port : Fin 6) (t : Nat) (s : State) : Host.Outcome State Fault Refusal :=
  done (ctrlTimeout port (timeTo t s))

/-- CAMERA_EVENT_PACKET (R160). -/
def cameraEvent (port : Nat) (data : List Byte) (s : State) : State :=
  if portUp (portOf s port) then
    notice 2 port (b2n (decide (24 < data.length))) 0 (data.take 24) (emit (.eventAck port) s)
  else s

def execCameraEventPacket (port : Fin 6) (data : List Byte) (s : State) : Host.Outcome State Fault Refusal :=
  done (cameraEvent port data s)

/-! ## Rows of the ingest stage -/

def execStreamPacket (port : Fin 6) (conn : Fin 4) (pkt : StreamPkt) (t : Nat) (s : State) :
    Host.Outcome State Fault Refusal :=
  done (schedTick (streamPacket port conn pkt (timeTo t s)))

def execFifoLineWrite (stream : Fin 24) (s : State) : Host.Outcome State Fault Refusal :=
  done (schedTick (drainStream stream s))

def execStreamDrained (stream : Fin 24) (s : State) : Host.Outcome State Fault Refusal :=
  done (streamDrained stream s)

def execTriggerEntryTimeout (stream : Fin 24) (t : Nat) (s : State) : Host.Outcome State Fault Refusal :=
  done (schedTick (trigTimeout stream (timeTo t s)))

/-- COLUMN_TABLE_SWITCH (R183): between two lines of the port, once the switch point is reached. -/
def columnSwitch (port : Nat) (s : State) : State :=
  let ms := (natsFrom (4 * port) 4).map (streamOf s)
  let low := ms.foldl (fun n m => m.trigQ.foldl (fun n e => min n e.target) n) (lxNow s)
  if ms.all (fun m => m.rx.isNone) && switchDue (portOf s port) low then switchBank port s else s

def execColumnTableSwitch (port : Fin 6) (s : State) : Host.Outcome State Fault Refusal :=
  done (columnSwitch port s)

/-! ## Disable (R210, R212, R738) -/

/-- A port is disabled: reception ends, its control transaction fails, its link is DISABLED. -/
def portDisable (port : Nat) (s : State) : State :=
  let s := controlFault port (endPort port s)
  linkTo port .disabled (portMod port (fun p => { p with en := false, conns := [], speed := 0 }) s)

end Sys2Proof.Machine
end

