-- ==== Sys2Proof/Machine/CmdStream.lean ====
section
/-! DEFINITION. The stream and port commands (0x02xx, R736 to R740). -/

namespace Sys2Proof.Machine

open Sys2Proof

/-! ## Setting entries (R731, R732) -/

/-- The entries of a request: ID, INDEX and VALUE. -/
def settings (p : List Byte) : List (Nat × Nat × Nat) :=
  (natsFrom 0 (p.length / 12)).map fun i => (leAt p (12 * i) 2, leAt p (12 * i + 2) 2, leAt p (12 * i + 4) 8)

/-- LENGTH of a request with setting entries. -/
def settingsLen (h : Hdr) (p : List Byte) : List (Bool × Nat) :=
  [badIf (p.length % 12 ≠ 0 ∨ p.length = 0 ∨ 240 < p.length) 0x11, badIf (1 < h.flags.toNat) 0x12]

/-- Do two entries have one ID and INDEX? -/
def settingsTwice : List (Nat × Nat × Nat) → Bool
  | [] => false
  | e :: t => t.any (fun f => f.1 == e.1 && f.2.1 == e.2.1) || settingsTwice t

/-! ## PORT_SET (R738) -/

/-- Full discovery starts. -/
def discoveryStart (n : Nat) (s : State) : State :=
  linkTo n .discovery (portMod n (fun p => { p with conns := [], speed := 0 }) s)

def portSetEffect (n en ce ms ar ct : Nat) (s : State) : State :=
  let old := portOf s n
  let s := portMod n (fun p => { p with connEn := ce, maxSpeed := ms, autoReconnect := ar == 1, ctrlTimeout := ct }) s
  if en = 0 then (if old.en then schedTick (portDisable n s) else s)
  else if !old.en then discoveryStart n (portMod n (fun p => { p with en := true }) s)
  else if old.connEn ≠ ce ∨ old.maxSpeed ≠ ms then discoveryStart n s
  else s

def cmdPortSet : CmdFun := fun h p s =>
  let f (i : Nat) : Nat := leAt p i 1
  checks (lenIs h p 8 ++
    [badIf (5 < f 0 ∨ 1 < f 1 ∨ 15 < f 2 ∨ f 3 = 0 ∨ 7 < f 3 ∨ 1 < f 4) 0x12, rsv p 5 1,
     badIf (leAt p 6 2 = 0 ∨ 2000 < leAt p 6 2) 0x12,
     badIf (f 1 = 1 ∧ domOn s (85 + f 0) = false) 0x21, busy s 0x0200 p])
    (.ok (portSetEffect (f 0) (f 1) (f 2) (f 3) (f 4) (leAt p 6 2) s) [])

/-! ## STREAM_SET (R170, R737) -/

/-- FORMAT: the class and bits, if the combination is in the table of R166. -/
def formatOf (v : Nat) : Option (PixelClass × Nat) :=
  let n := v % 32
  if v ≠ n + v / 256 % 4 * 256 then none
  else match v / 256 % 4 with
    | 0 => if n = 8 ∨ n = 10 ∨ n = 12 ∨ n = 14 ∨ n = 16 then some (.mono, n) else none
    | 1 => if n = 8 ∨ n = 10 ∨ n = 12 then some (.bayer, n) else none
    | 2 => if n = 8 ∨ n = 10 ∨ n = 12 then some (.rgb, n) else none
    | _ => none

/-- A setting applied to a stream: none where ID or VALUE is out of range. A stream ID has 8 bits, as CoaXPress 2.1
has it (PRESUMED). (DEDUCED, log entry 29) -/
def streamSetting (id v : Nat) (m : Stream) : Option Stream :=
  let i := sgn 64 v
  match id with
  | 0x01 => if v < 256 then some { m with cxpId := v } else none
  | 0x02 => (formatOf v).map fun f => { m with cls := f.1, bits := f.2 }
  | 0x03 => if 1 ≤ v ∧ v ≤ 32768 then some { m with width := v } else none
  | 0x04 => if v ≤ 65535 then some { m with areaLines := v } else none
  | 0x05 => if v ≤ 1 then some { m with bf16 := v == 1 } else none
  | 0x06 => if v ≤ 12 then some { m with shift := v } else none
  | 0x07 => if -128 ≤ i ∧ i ≤ 127 then some { m with offset := i } else none
  | 0x08 => if v ≤ 31 then some { m with bfExp := v } else none
  | 0x09 => if 8 ≤ v ∧ v ≤ 128 ∧ v % 8 = 0 then some { m with stripeH := v } else none
  | 0x0A => if v ≤ 8 then some { m with haloUp := v } else none
  | 0x0B => if v ≤ 8 then some { m with haloDown := v } else none
  | 0x0C => if v ≤ 127 then some { m with ring := some v } else none
  | 0x0D => if v ≤ 1 then some { m with stampTrigger := v == 1 } else none
  | 0x0E => if 1 ≤ v ∧ v ≤ 65535 then some { m with lineTimeout := v } else none
  | 0x0F => if v ≤ 1 then some { m with fillPrevious := v == 1 } else none
  | 0x10 => if v ≤ 32768 then some { m with substMax := v } else none
  | 0x11 => if v ≤ 131071 then some { m with colBase := v } else none
  | _ => none

/-- May the setting change while the stream runs (R170)? (DEDUCED, log entry 29) -/
def streamLive (id : Nat) : Bool := id == 0x0E || id == 0x0F || id == 0x10

def cmdStreamSet : CmdFun := fun h p s =>
  let es := settings p
  checks (settingsLen h p ++
    [(settingsTwice es, 0x12),
     (es.any fun e => decide (23 < e.2.1) || (streamSetting e.1 e.2.2 {}).isNone, 0x12),
     (es.any fun e => !streamLive e.1 && (streamOf s e.2.1).state != .stopped, 0x21), busy s 0x0201 p])
    (.ok (es.foldl (fun s' e => streamMod e.2.1 (fun m => (streamSetting e.1 e.2.2 m).getD m) s') s) [])

/-! ## STREAM_START (R171, R180, R181, R204, R334) -/

/-- Column entries of a stream. -/
def colSpan (m : Stream) : Nat := m.width * planesOf m

/-- The other streams of the port that are not STOPPED. (DEDUCED, log entry 29) -/
def portOthers (s : State) (k : Nat) : List Stream :=
  (((natsFrom (k / 4 * 4) 4).filter (· ≠ k)).map (streamOf s)).filter fun m => m.state != .stopped

def colClash (s : State) (k : Nat) : Bool :=
  let m := streamOf s k
  decide (131072 < m.colBase + colSpan m) || (portOthers s k).any fun o =>
    decide (m.colBase < o.colBase + colSpan o) && decide (o.colBase < m.colBase + colSpan m)

/-- R171, where the ring is declared. -/
def slotMisfit (s : State) (k : Nat) : Bool :=
  match (streamOf s k).ring with
  | none => false
  | some r =>
    let g := ringOf s r
    g.declared && (decide (4096 * g.slotUnits < stripeBytes (streamOf s k)) || g.producer != 0x1A)

def streamNoRing (s : State) (k : Nat) : Bool :=
  match (streamOf s k).ring with | none => true | some r => !(ringOf s r).declared

/-- The ring is reset, the FIFO begins empty, the stream is RUNNING. (DEDUCED, log entry 48) -/
def streamBegin (k fifo : Nat) (s : State) : State :=
  let s := ringReset ((streamOf s k).ring.getD 128) s
  streamMod k (fun m => { m with
    state := .running, fifoIdx := some fifo, fifo := [], fifoMax := 0, trigQ := [], late := 0, missed := [], rx := none, frame := none,
    frameRow := 0, open_ := none, prev := [], row := 0, rowRep := none, opensNext := false, stripeIdx := 0,
    dropped := false, recorded := 0, stopRep := none }) s

def cmdStreamStart : CmdFun := fun h p s =>
  let k := leAt p 0 1
  let m := streamOf s k
  let units := cdiv (64 * planesOf m * rowPitch m) 4096
  checks (lenIs h p 4 ++
    [badIf (23 < k) 0x12, rsv p 1 3, (slotMisfit s k, 0x12), (colClash s k, 0x12),
     (m.state != .stopped, 0x21), (streamNoRing s k, 0x21), busy s 0x0202 p,
     badIf (131072 < (portOthers s k).foldl (fun n o => n + colSpan o) (colSpan m)) 0x30])
    (match allocate units 3 (2 ^ 0x1A) .scratch false s with
     | none => .stop 0x30 []
     | some (s', i) => .ok (streamBegin k i s') (leBytes 4 (handleOf s' i).base))

/-! ## STREAM_STOP (R209, R210, R739) -/

/-- Is it a STREAM_STOP AT_REPEAT? -/
def stopsAtRepeat (l : LongCmd) : Bool := l.opcode == 0x0203 && leAt l.payload 1 1 == 0

/-- An AT_REPEAT stop still running is overridden: it completes with DETAIL 1, together with the NOW command (R739). -/
def stopOverride (k : Nat) (s : State) : State :=
  let f (e : Nat × LongCmd) : Nat × LongCmd :=
    if stopsAtRepeat e.2 && decide (e.2.obj = k) then
      (e.1, { e.2 with aux := 9, done := e.2.done.map fun d => (d.1, 1, d.2.2) })
    else e
  { s with sup := { s.sup with longs := s.sup.longs.map f } }

/-- A stop that ends: DRAINED at once when nothing is left. -/
def stopNow (k : Nat) (s : State) : State := schedTick (streamDrained k (endReception k s))

def cmdStreamStop : CmdFun := fun h p s =>
  let k := leAt p 0 1
  let mode := leAt p 1 1
  let skip (l : LongCmd) : Bool := mode == 1 && stopsAtRepeat l
  checks (lenIs h p 4 ++
    [badIf (23 < k ∨ 1 < mode) 0x12, rsv p 2 2, ((streamOf s k).state == .stopped, 0x21),
     (busyBut s 0x0203 p skip, 0x20)])
    (if mode = 1 then
      let q := accept h 0x0203 k p none 1 (stopOverride k s)
      .accepted (stopNow k q.1)
    else
      let q := accept h 0x0203 k p none 0 s
      let f (m : Stream) : Stream :=
        if m.state == .running then { m with state := .atRepeat, stopRep := some s.lt.repeatCount.toNat } else m
      .accepted (checkRepeat k (streamMod k f q.1)))

/-! ## COL_UPLOAD (R182, R183, R740) -/

/-- Bytes of a buffer range that the supervisor reads: none on an error response. -/
def bufRead (hv off n : Nat) (s : State) : State × Option (List Byte) :=
  let q := supRead ((handleOf s (hv % 256)).base + off) n s
  (q.1, if q.2.1 = 0 then some q.2.2 else none)

/-- Does a range lie in a buffer of the present generation? -/
def rangeIn (s : State) (hv off n : Nat) : Bool := handleOk s hv && decide (off + n ≤ 4096 * (handleOf s (hv % 256)).units)

/-- Entries of an upload with a reserved code or bit. (DEDUCED, log entry 48) -/
def colBad (e : Nat) : Bool := decide (4 < bitsOf e 36 3) || decide (2 ^ 39 ≤ e)

/-- Write entries into the pending bank. -/
def colPut (port bank : Nat) : Nat → List Nat → State → State
  | _, [], s => s
  | i, e :: t, s =>
    colPut port bank (i + 1) t { s with cols := tabPut 0 s.cols (colKey port bank i) (BitVec.ofNat 64 e) }

/-- The copy: final status of the upload. -/
def colCopy (port first count : Nat) (sw : SwitchPoint) (d : List Byte) (s : State) : State × Nat :=
  let es := (natsFrom 0 count).map fun i => leAt d (8 * i) 8
  if es.any colBad then (s, 0x12)
  else (portMod port (fun p => { p with pendSwitch := some sw }) (colPut port (1 - (portOf s port).bank) first es s), 0)

def cmdColUpload : CmdFun := fun h p s =>
  let port := leAt p 0 1
  let sw := leAt p 1 1
  let hv := leAt p 2 2
  let off := leAt p 4 4
  let first := leAt p 8 4
  let count := leAt p 12 4
  let lx := leAt p 16 8
  checks (lenIs h p 24 ++
    [badIf (5 < port ∨ 1 < sw ∨ 131072 < first + count ∨ 2 ^ 56 ≤ lx ∨ (sw = 0 ∧ lx ≠ 0)) 0x12,
     (!rangeIn s hv off (8 * count), 0x12), ((portOf s port).pendSwitch.isSome, 0x20), busy s 0x0204 p])
    (let q := bufRead hv off (8 * count) s
     let c := accept h 0x0204 port p none 0 q.1
     match q.2 with
     | none => .accepted (longDoneAt c.2 0x40 0 [] c.1)
     | some d =>
       let u := colCopy port first count (if sw = 0 then .repeatBoundary 1 else .position lx) d c.1
       .accepted (longDoneAt c.2 u.2 0 [] u.1))

/-! ## CAM_READ, CAM_WRITE (R158, R159) -/

/-- The master connection. -/
def masterConn (p : Port) : Nat := ((p.conns.find? fun e => e.2.master).map (·.1)).getD 0

/-- A control packet goes out on the master connection. -/
def controlSend (port : Nat) (write : Bool) (addr len : Nat) (d : List Byte) (cmd : Nat) (s : State) : State :=
  let c := masterConn (portOf s port)
  emit (.control port c write addr len d) (portMod port (fun p => { p with ctrl := some ⟨cmd, s.ts, c⟩ }) s)

def cmdCamRead : CmdFun := fun h p s =>
  let port := leAt p 0 1
  let len := leAt p 2 2
  let hv := leAt p 8 2
  checks (lenIs h p 16 ++
    [badIf (5 < port ∨ len < 4 ∨ 240 < len ∨ len % 4 ≠ 0) 0x12, rsv p 1 1, rsv p 10 2,
     (hv != 0 && !rangeIn s hv (leAt p 12 4) len, 0x12), (!portUp (portOf s port), 0x21), busy s 0x0205 p])
    (let q := accept h 0x0205 port p none 0 s
     .accepted (controlSend port false (leAt p 4 4) len [] q.2 q.1))

def cmdCamWrite : CmdFun := fun h p s =>
  let port := leAt p 0 1
  let len := leAt p 2 2
  checks ([badIf (p.length ≠ 8 + len) 0x11, badIf (1 < h.flags.toNat) 0x12,
     badIf (5 < port ∨ len < 4 ∨ 236 < len ∨ len % 4 ≠ 0) 0x12, rsv p 1 1,
     (!portUp (portOf s port), 0x21), busy s 0x0206 p])
    (let q := accept h 0x0206 port p none 0 s
     .accepted (controlSend port true (leAt p 4 4) len (p.drop 8) q.2 q.1))

def execPortSet (h : Hdr) (p : List Byte) (s : State) : Host.Outcome State Fault Refusal :=
  done (cmdRow 0x0200 (some 0) cmdPortSet h p s)
def execStreamSet (h : Hdr) (p : List Byte) (s : State) : Host.Outcome State Fault Refusal :=
  done (cmdRow 0x0201 (some 0) cmdStreamSet h p s)
def execStreamStart (h : Hdr) (p : List Byte) (s : State) : Host.Outcome State Fault Refusal :=
  done (cmdRow 0x0202 (some 0) cmdStreamStart h p s)
def execStreamStop (h : Hdr) (p : List Byte) (s : State) : Host.Outcome State Fault Refusal :=
  done (cmdRow 0x0203 (some 0) cmdStreamStop h p s)
def execColUpload (h : Hdr) (p : List Byte) (s : State) : Host.Outcome State Fault Refusal :=
  done (cmdRow 0x0204 (some 0) cmdColUpload h p s)
def execCamRead (h : Hdr) (p : List Byte) (s : State) : Host.Outcome State Fault Refusal :=
  done (cmdRow 0x0205 (some 0) cmdCamRead h p s)
def execCamWrite (h : Hdr) (p : List Byte) (s : State) : Host.Outcome State Fault Refusal :=
  done (cmdRow 0x0206 (some 0) cmdCamWrite h p s)

end Sys2Proof.Machine
end

