-- ==== Sys2Proof/Machine/Ed25519.lean ====
section
/-! DEFINITION. SHA-512 (FIPS 180-4) and the verification of Ed25519 signatures under RFC 8032 with the cofactored equation
of R495. The arithmetic is that of the standards (PRESUMED: the spec names them). -/

namespace Sys2Proof.Machine

open Sys2Proof

/-! ## SHA-512 -/

def shaK0 : List Nat :=
  [0x428a2f98d728ae22, 0x7137449123ef65cd, 0xb5c0fbcfec4d3b2f, 0xe9b5dba58189dbbc,
   0x3956c25bf348b538, 0x59f111f1b605d019, 0x923f82a4af194f9b, 0xab1c5ed5da6d8118]
def shaK1 : List Nat :=
  [0xd807aa98a3030242, 0x12835b0145706fbe, 0x243185be4ee4b28c, 0x550c7dc3d5ffb4e2,
   0x72be5d74f27b896f, 0x80deb1fe3b1696b1, 0x9bdc06a725c71235, 0xc19bf174cf692694]
def shaK2 : List Nat :=
  [0xe49b69c19ef14ad2, 0xefbe4786384f25e3, 0x0fc19dc68b8cd5b5, 0x240ca1cc77ac9c65,
   0x2de92c6f592b0275, 0x4a7484aa6ea6e483, 0x5cb0a9dcbd41fbd4, 0x76f988da831153b5]
def shaK3 : List Nat :=
  [0x983e5152ee66dfab, 0xa831c66d2db43210, 0xb00327c898fb213f, 0xbf597fc7beef0ee4,
   0xc6e00bf33da88fc2, 0xd5a79147930aa725, 0x06ca6351e003826f, 0x142929670a0e6e70]
def shaK4 : List Nat :=
  [0x27b70a8546d22ffc, 0x2e1b21385c26c926, 0x4d2c6dfc5ac42aed, 0x53380d139d95b3df,
   0x650a73548baf63de, 0x766a0abb3c77b2a8, 0x81c2c92e47edaee6, 0x92722c851482353b]
def shaK5 : List Nat :=
  [0xa2bfe8a14cf10364, 0xa81a664bbc423001, 0xc24b8b70d0f89791, 0xc76c51a30654be30,
   0xd192e819d6ef5218, 0xd69906245565a910, 0xf40e35855771202a, 0x106aa07032bbd1b8]
def shaK6 : List Nat :=
  [0x19a4c116b8d2d0c8, 0x1e376c085141ab53, 0x2748774cdf8eeb99, 0x34b0bcb5e19b48a8,
   0x391c0cb3c5c95a63, 0x4ed8aa4ae3418acb, 0x5b9cca4f7763e373, 0x682e6ff3d6b2b8a3]
def shaK7 : List Nat :=
  [0x748f82ee5defb2fc, 0x78a5636f43172f60, 0x84c87814a1f0ab72, 0x8cc702081a6439ec,
   0x90befffa23631e28, 0xa4506cebde82bde9, 0xbef9a3f7b2c67915, 0xc67178f2e372532b]
def shaK8 : List Nat :=
  [0xca273eceea26619c, 0xd186b8c721c0c207, 0xeada7dd6cde0eb1e, 0xf57d4f7fee6ed178,
   0x06f067aa72176fba, 0x0a637dc5a2c898a6, 0x113f9804bef90dae, 0x1b710b35131c471b]
def shaK9 : List Nat :=
  [0x28db77f523047d84, 0x32caab7b40c72493, 0x3c9ebe0a15c9bebc, 0x431d67c49c100d4c,
   0x4cc5d4becb3e42b6, 0x597f299cfc657e2a, 0x5fcb6fab3ad6faec, 0x6c44198c4a475817]

/-- The 80 round constants. -/
def shaK : List Nat :=
  shaK0 ++ shaK1 ++ shaK2 ++ shaK3 ++ shaK4 ++ shaK5 ++ shaK6 ++ shaK7 ++ shaK8 ++ shaK9

/-- The initial hash value. -/
def shaInit : List Nat :=
  [0x6a09e667f3bcc908, 0xbb67ae8584caa73b, 0x3c6ef372fe94f82b, 0xa54ff53a5f1d36f1,
   0x510e527fade682d1, 0x9b05688c2b3e6c1f, 0x1f83d9abfb41bd6b, 0x5be0cd19137e2179]

/-- Rotation and shift of 64-bit words, and the functions of the standard. -/
def shaRot (x n : Nat) : Nat := (x / 2 ^ n + x * 2 ^ (64 - n)) % 2 ^ 64
def shaS0 (x : Nat) : Nat := shaRot x 1 ^^^ shaRot x 8 ^^^ x / 128
def shaS1 (x : Nat) : Nat := shaRot x 19 ^^^ shaRot x 61 ^^^ x / 64
def shaB0 (x : Nat) : Nat := shaRot x 28 ^^^ shaRot x 34 ^^^ shaRot x 39
def shaB1 (x : Nat) : Nat := shaRot x 14 ^^^ shaRot x 18 ^^^ shaRot x 41
def shaCh (x y z : Nat) : Nat := (x &&& y) ^^^ ((2 ^ 64 - 1 - x) &&& z)
def shaMaj (x y z : Nat) : Nat := (x &&& y) ^^^ (x &&& z) ^^^ (y &&& z)

/-- The message schedule, the latest 16 words newest first: `n` more words. -/
def shaSchedule : Nat → List Nat → List Nat
  | 0, w => w
  | n + 1, w =>
    shaSchedule n (((shaS1 (w.getD 1 0) + w.getD 6 0 + shaS0 (w.getD 14 0) + w.getD 15 0) % 2 ^ 64) :: w)

/-- One round on the working variables a to h. -/
def shaRound (v : List Nat) (k w : Nat) : List Nat :=
  match v with
  | [a, b, c, d, e, f, g, h] =>
    let t := h + shaB1 e + shaCh e f g + k + w
    [(t + shaB0 a + shaMaj a b c) % 2 ^ 64, a, b, c, (d + t) % 2 ^ 64, e, f, g]
  | _ => v

/-- A number of `n` big-endian bytes. -/
def ofBe (l : List Byte) : Nat := l.foldl (fun a b => 256 * a + b.toNat) 0

/-- One block of 128 B. -/
def shaBlock (h : List Nat) (b : List Byte) : List Nat :=
  let w0 := ((natsFrom 0 16).map fun i => ofBe ((b.drop (8 * i)).take 8)).reverse
  let w := (shaSchedule 64 w0).reverse
  let v := (shaK.zip w).foldl (fun v e => shaRound v e.1 e.2) h
  (h.zip v).map fun e => (e.1 + e.2) % 2 ^ 64

/-- Blocks one after another; the first argument bounds their number. -/
def shaBlocks : Nat → List Byte → List Nat → List Nat
  | 0, _, h => h
  | n + 1, d, h => shaBlocks n (d.drop 128) (shaBlock h (d.take 128))

/-- The padded message. -/
def shaPad (d : List Byte) : List Byte :=
  let n := d.length
  d ++ [0x80] ++ List.replicate ((239 - n % 128) % 128) 0 ++ (leBytes 16 (8 * n)).reverse

/-- SHA-512: 64 bytes. (PRESUMED, log entry 53) -/
def sha512 (d : List Byte) : List Byte :=
  let m := shaPad d
  (shaBlocks (m.length / 128) m shaInit).flatMap fun w => (leBytes 8 w).reverse

/-! ## The curve -/

/-- The field prime, the curve constant d, a square root of -1, the group order L. -/
def edP : Nat := 2 ^ 255 - 19
def edD : Nat := 37095705934669439343138083508754565189542113879843219016388785533085940283555
def edI : Nat := 19681161376707505956807079304988542015446066515923890162744021073123829784752
def edL : Nat := 2 ^ 252 + 27742317777372353535851937790883648493

/-- Arithmetic modulo p. -/
def edMul (a b : Nat) : Nat := a * b % edP
def edSub (a b : Nat) : Nat := (a + (edP - b % edP)) % edP

/-- Powers modulo p; the first argument bounds the bits of the exponent. -/
def edPow : Nat → Nat → Nat → Nat
  | 0, _, _ => 1
  | n + 1, b, e =>
    let r := edPow n (edMul b b) (e / 2)
    if e % 2 = 1 then edMul b r else r

def edInv (a : Nat) : Nat := edPow 256 a (edP - 2)

/-- A point in projective coordinates (X : Y : Z). -/
structure EdPoint where
  x : Nat
  y : Nat
  z : Nat
  deriving DecidableEq, Repr

def edZero : EdPoint := ⟨0, 1, 1⟩

/-- The base point. -/
def edB : EdPoint :=
  ⟨15112221349535400772501151409588531511454012693041857206046113283949847762202,
   46316835694926478169428394003475163141307993866256225615783033603165251855960, 1⟩

/-- The complete addition law of the twisted Edwards curve with a = -1. -/
def edAdd (p q : EdPoint) : EdPoint :=
  let a := edMul p.z q.z
  let b := edMul a a
  let c := edMul p.x q.x
  let d := edMul p.y q.y
  let e := edMul edD (edMul c d)
  let f := edSub b e
  let g := (b + e) % edP
  let k := edSub (edSub (edMul (p.x + p.y) (q.x + q.y)) c) d
  ⟨edMul a (edMul f k), edMul a (edMul g (d + c)), edMul f g⟩

/-- [e]P; the first argument bounds the bits of e. -/
def edTimes : Nat → Nat → EdPoint → EdPoint
  | 0, _, _ => edZero
  | n + 1, e, p =>
    let r := edTimes n (e / 2) (edAdd p p)
    if e % 2 = 1 then edAdd p r else r

def edSame (p q : EdPoint) : Bool := edMul p.x q.z == edMul q.x p.z && edMul p.y q.z == edMul q.y p.z

/-- Decode a point (RFC 8032, 5.1.3): y below p, x recovered with its sign; -0 is refused. -/
def edDecode (d : List Byte) : Option EdPoint :=
  let v := ofLe d
  let y := v % 2 ^ 255
  let sign := v / 2 ^ 255 % 2
  if edP ≤ y then none
  else
    let u := edSub (edMul y y) 1
    let w := (edMul edD (edMul y y) + 1) % edP
    let a := edMul u (edInv w)
    let r := edPow 256 a ((edP + 3) / 8)
    let x := if edMul r r = a then some r
      else if edMul r r = edSub 0 a then some (edMul r edI) else none
    match x with
    | none => none
    | some x =>
      if x = 0 ∧ sign = 1 then none
      else some ⟨if x % 2 = sign then x else edP - x, y, 1⟩

/-- Verify a 64 B signature of a message under a 32 B public key: [8][S]B = [8]R + [8][k]A' (R495).
(PRESUMED, log entry 53) -/
def edVerify (key msg sig : List Byte) : Bool :=
  let r := sig.take 32
  let sc := ofLe ((sig.drop 32).take 32)
  if sig.length ≠ 64 ∨ edL ≤ sc then false
  else match edDecode key, edDecode r with
    | some a, some rp =>
      let k := ofLe (sha512 (r ++ key ++ msg)) % edL
      edSame (edTimes 260 (8 * sc) edB) (edAdd (edTimes 4 8 rp) (edTimes 4 8 (edTimes 256 k a)))
    | _, _ => false

end Sys2Proof.Machine
end

