-- ==== Sys2Proof/Machine/Store.lean ====
section
/-! DEFINITION. The configuration store and the firmware slots in the QSPI flash (17_power_reset_boot.md, R930 to R933,
R941 to R948), and the repair records (16_faults_repair.md, R897, R898). -/

namespace Sys2Proof.Machine

open Sys2Proof

/-! ## Flash -/

/-- `n` bytes of the flash; erased bytes read 0xFF. (DESIGN CHOICE, log entry 8) -/
def flashRead (s : State) (a n : Nat) : List Byte := (natsFrom a n).map (tabGet 0xFF s.flash)

/-- Bytes programmed from `a` on. -/
def flashCells : Nat → List Byte → Tab Byte → Tab Byte
  | _, [], t => t
  | a, b :: d, t => flashCells (a + 1) d (tabPut 0xFF t a b)

/-- Erase [a, a + n), then program bytes from `a` on. (DESIGN CHOICE, log entry 46) -/
def flashWrite (a n : Nat) (d : List Byte) (s : State) : State :=
  { s with flash := flashCells a d (s.flash.filter fun e => !(decide (a ≤ e.1) && decide (e.1 < a + n))) }

/-! ## Configuration copies (R941 to R944) -/

def cfgBase (copy : Nat) : Nat := 0x10000 * copy

/-- An entry, padded with zeros to a multiple of 4 B (R942). -/
def cfgEntry (e : Nat × List Byte) : List Byte :=
  let v := e.2
  [b8 (e.1 / 256), b8 e.1] ++ leBytes 2 v.length ++ v ++ List.replicate ((4 - v.length % 4) % 4) 0

/-- The bytes of a copy: the items by ITEM × 256 + INDEX, ended by ITEM 0. -/
def cfgBytes (seq : Nat) (items : Tab (List Byte)) : List Byte :=
  let body := items.flatMap cfgEntry ++ [0, 0, 0, 0]
  let tail := leBytes 4 seq ++ leBytes 4 body.length ++ body
  leBytes 4 0x5EA1ED00 ++ leBytes 4 (crc32c tail) ++ tail

/-- Is an ITEM one of R757 or R897? -/
def cfgKnown (item : Nat) : Bool := (decide (1 ≤ item) && decide (item ≤ 6)) || item == 0x80 || item == 0x81

/-- The entries of a list: others are skipped, one that runs past the end stops the parse (R942, R943). The first
argument bounds their number. -/
def cfgParse : Nat → List Byte → Tab (List Byte) → Tab (List Byte)
  | 0, _, t => t
  | f + 1, d, t =>
    let item := leAt d 0 1
    let n := leAt d 2 2
    if d.length < 4 ∨ item = 0 ∨ d.length < 4 + n then t
    else
      let t := if cfgKnown item then tabSet t (item * 256 + leAt d 1 1) ((d.drop 4).take n) else t
      cfgParse f (d.drop (4 + (n + 3) / 4 * 4)) t

/-- A copy as boot reads it: SEQ and the items, if it is valid (R944). -/
def cfgRead (s : State) (copy : Nat) : Option (Nat × Tab (List Byte)) :=
  let b := cfgBase copy
  let h := flashRead s b 16
  let n := leAt h 12 4
  if leAt h 0 4 ≠ 0x5EA1ED00 ∨ n < 4 ∨ 65520 < n then none
  else
    let d := flashRead s (b + 8) (8 + n)
    if crc32c d = leAt h 4 4 then some (leAt h 8 4, cfgParse (n / 4) (d.drop 8) []) else none

/-- Is SEQ x newer than y (R948)? -/
def seqNewer (x y : Nat) : Bool :=
  let d := (x + 2 ^ 32 - y) % 2 ^ 32
  decide (1 ≤ d) && decide (d < 2 ^ 31)

/-- The copy in force: its number, SEQ and items (R948). -/
def cfgChoose (s : State) : Option (Nat × Nat × Tab (List Byte)) :=
  match cfgRead s 0, cfgRead s 1 with
  | some a, some b => if seqNewer b.1 a.1 then some (1, b.1, b.2) else some (0, a.1, a.2)
  | some a, none => some (0, a.1, a.2)
  | none, some b => some (1, b.1, b.2)
  | none, none => none

/-! ## Repair records (R897) -/

/-- Bits as bytes: bit j is set where `p j` holds. -/
def bitBytes (n : Nat) (p : Nat → Bool) : List Byte :=
  (natsFrom 0 n).map fun i => b8 ((natsFrom 0 8).foldl (fun v j => v + atBit (b2n (p (8 * i + j))) j) 0)

/-- The CORE_MAP record of the present map. -/
def coreRecord (s : State) : List Byte :=
  (natsFrom 0 64).map (fun c => b8 ((physCore s c).getD 0xFF)) ++
    bitBytes 9 (fun p => decide (p < 68) && (tabGet {} s.cores p).state == .quarantined) ++ List.replicate 7 0

/-- The BANK_MAP record of the present map. -/
def bankRecord (s : State) : List Byte :=
  (natsFrom 0 256).flatMap (fun b => leBytes 2 (physBank s b)) ++ bitBytes 34 (fun p => s.bankOut.contains p) ++
    List.replicate 14 0

/-! ## Writing a copy (R945, R946, R754, R758) -/

/-- A new copy with the given items, in the place of the one not in force; what the notice reports.
(DEDUCED, log entry 47) -/
def cfgWrite (items : Tab (List Byte)) (s : State) : State × List Byte :=
  let copy := match s.sup.cfgSeq with | some _ => 1 - s.sup.cfgCopy | none => 0
  let seq := match s.sup.cfgSeq with | some n => (n + 1) % 2 ^ 32 | none => 0
  (flashWrite (cfgBase copy) 0x10000 (cfgBytes seq items) s, [b8 copy, 0, 0, 0] ++ leBytes 4 seq)

/-- A recording: the items in force and the present maps. -/
def cfgRecord (s : State) : State × List Byte :=
  cfgWrite (tabSet (tabSet s.sup.cfg 0x8000 (coreRecord s)) 0x8100 (bankRecord s)) s

/-- A commit: the items and records in force, and the staged items over them. (DEDUCED, log entry 47) -/
def cfgCommit (s : State) : State × List Byte :=
  let q := cfgWrite (s.sup.cfgStaged.foldl (fun t e => tabSet t e.1 e.2) s.sup.cfg) s
  ({ q.1 with sup := { q.1.sup with cfgStaged := [] } }, q.2)

/-- Does a repair command carry the record flag? (DEDUCED, log entry 47) -/
def records (l : LongCmd) : Bool :=
  (l.opcode == 0x0701 && bitAt (leAt l.payload 3 1) 1) || (l.opcode == 0x0704 && bitAt (leAt l.payload 4 1) 0)

/-- Is the store being written (R754)? -/
def storeBusy (s : State) : Bool :=
  s.sup.longs.any fun e => e.2.opcode == 0x0706 || e.2.opcode == 0x0902 || (records e.2 && e.2.done.isSome)

/-! ## Firmware slots (R932, R933) -/

def fwBase (slot : Nat) : Nat := 0x20000 + 0x100000 * slot

/-- The public key that firmware is signed with. -/
def fwKey : List Byte := leBytes 32 Config.firmwareKey.toNat

/-- Why a firmware image is not valid: 1 header or CRC, 2 signature. (DESIGN CHOICE, log entry 52) -/
def fwRefusal (d : List Byte) : Option Nat :=
  let n := leAt d 8 4
  let z (off k : Nat) : Bool := ((d.drop off).take k).all (· == 0)
  if !(decide (64 ≤ d.length) && leAt d 0 4 == 0x53555046 && n % 64 == 0 && decide (64 ≤ n) && decide (n ≤ 458752) &&
      decide (leAt d 0x14 1 < 4) && decide (2 ≤ leAt d 0x15 1) && decide (leAt d 0x15 1 ≤ 16) && z 0x16 10 && z 0x24 28 &&
      decide (n + 64 ≤ d.length)) then some 1
  else
    let m := d.take n
    if crc32c (m.take 12 ++ [0, 0, 0, 0] ++ m.drop 16) ≠ leAt d 12 4 then some 1
    else if edVerify fwKey m ((d.drop n).take 64) then none else some 2

/-- A slot as the boot ROM sees it: SEQ and VERSION, if it is valid. -/
def fwRead (s : State) (slot : Nat) : Option (Nat × Nat) :=
  let n := leAt (flashRead s (fwBase slot) 12) 8 4
  if 458752 < n then none
  else
    let d := flashRead s (fwBase slot) (n + 64)
    match fwRefusal d with
    | some _ => none
    | none => some (leAt d 0x10 4, leAt d 4 4)

/-- The slot that the boot ROM runs, and its VERSION (R933). -/
def fwChoose (s : State) : Option (Nat × Nat) :=
  match fwRead s 0, fwRead s 1 with
  | some a, some b => if seqNewer b.1 a.1 then some (1, b.2) else some (0, a.2)
  | some a, none => some (0, a.2)
  | none, some b => some (1, b.2)
  | none, none => none

/-- FW_STAGE's write: the image in the slot not running, its SEQ one above that of the running slot (R933).
(DESIGN CHOICE, log entry 52) -/
def fwStage (d : List Byte) (s : State) : State :=
  let slot := 1 - s.sup.fwSlot
  let n := leAt d 8 4
  let seq := (leAt (flashRead s (fwBase s.sup.fwSlot) 20) 16 4 + 1) % 2 ^ 32
  let img := d.take 16 ++ leBytes 4 seq ++ (d.take (n + 64)).drop 20
  let s := flashWrite (fwBase slot) 0x100000 img s
  { s with sup := { s.sup with staged := some (slot, leAt d 4 4) } }

end Sys2Proof.Machine
end

