-- ==== Sys2Proof/Machine/CmdRepair.lean ====
section
/-! DEFINITION. The diagnostics and repair commands (0x07xx, R752 to R754). -/

namespace Sys2Proof.Machine

open Sys2Proof

def cmdScrubSet : CmdFun := fun h p s =>
  let n := leAt p 0 1
  checks (lenIs h p 4 ++ [badIf (n = 0 ∨ 168 < n) 0x12, rsv p 1 3, busy s 0x0700 p]) (.ok (regField 0x820 24 8 n s) [])

/-! ## CORE_DISABLE (R428 to R437, R753) -/

def coreState (s : State) (p : Nat) : CoreState := (tabGet {} s.cores p).state

/-- A graceful disable: pending until its core set's next task boundary; a core in no core set leaves at once.
(DESIGN CHOICE, log entry 43) -/
def disableGraceful (p : Nat) (rep : Option Nat) (keep : Bool) (cmd : Nat) (s : State) : State :=
  let s := match rep with | some r => startWake r s | none => s
  let s := coreMod p (fun x => { x with state := .pending, disable := some ⟨rep, keep, some cmd, false⟩ }) s
  match (logicalOf s p).bind (csOfCore s) with
  | some _ => s
  | none => coreLeaves p s

/-- A forced disable by command; a pending graceful one of the same core completes with it, DETAIL 1.
(DESIGN CHOICE, log entry 43) -/
def disableForced (p : Nat) (rep : Option Nat) (cmd : Nat) (s : State) : State :=
  let res := forcedResult s p rep
  gracefulEnds p res (longDoneAt cmd 0 0 res (forceDisable p rep s))

def cmdCoreDisable : CmdFun := fun h p s =>
  let k := leAt p 0 1
  let mode := leAt p 1 1
  let rep := leAt p 2 1
  let fl := leAt p 3 1
  let pend := coreState s k == .pending
  let repOk := rep == 0xFF || coreState s rep == .idle || coreState s rep == .off
  let skip (l : LongCmd) : Bool := mode == 1 && l.opcode == 0x0701 && leAt l.payload 1 1 == 0
  checks (lenIs h p 4 ++
    [badIf (67 < k ∨ 1 < mode ∨ (67 < rep ∧ rep ≠ 0xFF) ∨ 3 < fl) 0x12,
     (!(mode == 0 && pend) && (!(pend || coreState s k == .mapped) || !repOk), 0x21)])
    (if mode = 0 && pend then .ok s []
     else checks [(busyBut s 0x0701 p skip, 0x20), (bitAt fl 1 && storeBusy s, 0x20)]
       (let q := accept h 0x0701 k p none mode s
        let r := if rep = 0xFF then none else some rep
        .accepted (if mode = 1 then disableForced k r q.2 q.1 else disableGraceful k r (bitAt fl 0) q.2 q.1)))

def cmdCoreRelease : CmdFun := fun h p s =>
  let k := leAt p 0 1
  let tgt := leAt p 1 1
  checks (lenIs h p 4 ++
    [badIf (67 < k ∨ 1 < tgt) 0x12, rsv p 2 2, (coreState s k != .quarantined, 0x21), busy s 0x0702 p])
    (.ok (if tgt = 0 then coreOff k s
      else if (domOf s k).on then coreMod k (fun x => { x with state := .idle }) s
      else startWake k (coreMod k (fun x => { x with state := .off }) s)) [])

def cmdCoreMap : CmdFun := fun h p s =>
  let c := leAt p 0 1
  let k := leAt p 1 1
  checks (lenIs h p 4 ++
    [badIf (63 < c ∨ 67 < k) 0x12, rsv p 2 2, ((physCore s c).isSome || coreState s k != .idle, 0x21), busy s 0x0703 p])
    (.ok (remapCore c k s) [])

/-! ## BANK_SPARE, BANK_TEST (R219 to R221, R953) -/

/-- The lowest free spare bank, or the named one if it is free. -/
def sparePick (s : State) (n : Nat) : Option Nat :=
  if n = 0xFFFF then (natsFrom 256 16).find? (spareFree s) else if spareFree s n then some n else none

/-- Group 16 is brought to ON (R219). -/
def spareWake (s : State) : State :=
  let go (g : GroupState) (s : State) : State := domPut 84 { on := false, trans := some (true, s.ts) } (groupSet 16 g s)
  match groupOf s 16 with
  | .on => s
  | .off | .toOff => go (.toOn true) s
  | .retain => go (.toOn false) s
  | .toRetain fresh => go (.toOn fresh) s
  | .toOn _ => s

def cmdBankSpare : CmdFun := fun h p s =>
  let b := leAt p 0 2
  let n := leAt p 2 2
  let fl := leAt p 4 1
  checks (lenIs h p 8 ++
    [badIf (255 < b ∨ ((n < 256 ∨ 271 < n) ∧ n ≠ 0xFFFF) ∨ 1 < fl) 0x12, rsv p 5 3, (s.limp.isSome, 0x21),
     busy s 0x0704 p, (s.copy.isSome, 0x20), (fl == 1 && storeBusy s, 0x20)])
    (match sparePick s n with
     | none => .stop 0x30 []
     | some d =>
       let q := accept h 0x0704 b p none 0 s
       .accepted (spareWake { q.1 with copy := some ⟨b, d⟩ }))

/-- Does a physical bank serve a logical one, or is it about to? -/
def bankServes (s : State) (n : Nat) : Bool :=
  (match s.limp with
   | some g => decide (n / 16 = g)
   | none => (natsFrom 0 256).any fun b => decide (physBank s b = n)) ||
    s.copy.any fun c => decide (c.dest = n)

/-- What the test finds is the silicon's: free values. (DESIGN CHOICE, log entry 18) -/
def cmdBankTest : CmdFun := fun h p s =>
  let n := leAt p 0 2
  checks (lenIs h p 4 ++ [badIf (271 < n) 0x12, rsv p 2 2, (bankServes s n, 0x21), busy s 0x0705 p])
    (let v := (freeNow s).toNat
     acceptDone h 0x0705 n p 0 0 (leBytes 4 v ++ leBytes 4 (v / 2 ^ 32)) (freeStep s))

/-! ## REPAIR_RECORD, SUP_RELEASE, ERR_INJECT -/

/-- The copy is written when the command completes. -/
def cmdRepairRecord : CmdFun := fun h p s =>
  checks (lenIs h p 0 ++ [busy s 0x0706 p, (storeBusy s, 0x20)]) (.accepted (accept h 0x0706 0 p none 0 s).1)

/-- The held supervisor is released; it has 1 s to answer a heartbeat. (DEDUCED, log entry 61) -/
def cmdSupRelease : CmdFun := fun h p s =>
  checks (lenIs h p 0 ++ [(s.sup.held.isNone, 0x21), busy s 0x0707 p])
    (.accepted (accept h 0x0707 0 p (some (s.ts + 1000000000)) 0 s).1)

/-- The check-bit state after one (CE) or two (UE) flipped check bits. On a word that already carries an error which
bits are hit is open: a free value. (DESIGN CHOICE, log entry 51) -/
def eccFlip (ue : Bool) (e : Ecc) (v : Nat) : Ecc :=
  match e with
  | .ok => if ue then .uncorrectable else .correctable
  | _ => if v % 4 = 0 then .ok else if v % 4 = 1 then .correctable else if v % 4 = 2 then .uncorrectable else .poisoned

def errInject (kind a : Nat) (s : State) : State :=
  let v := (freeNow s).toNat
  let ue := kind % 2 == 1
  if kind < 2 then freeStep (eccSet a (eccFlip ue (eccAt s a) v) s)
  else
    match physCore s ((a - 0x2000000000) / 0x100000) with
    | some p =>
      let k := nearKey p (a % 0x100000)
      freeStep (nearEccSet k (eccFlip ue (nearEccAt s k) v) s)
    | none => s

def cmdErrInject : CmdFun := fun h p s =>
  let kind := leAt p 0 1
  let a := leAt p 4 8
  let inDs := decide (a < localSize s)
  let inNear := decide (0x2000000000 ≤ a) && decide (a < 0x2004000000)
  checks (lenIs h p 12 ++
    [badIf (3 < kind ∨ a % 8 ≠ 0) 0x12, (!(if kind < 2 then inDs else inNear), 0x12), rsv p 1 3, busy s 0x0708 p])
    (.ok (errInject kind a s) [])

def execScrubSet (h : Hdr) (p : List Byte) (s : State) : Host.Outcome State Fault Refusal :=
  done (cmdRow 0x0700 (some 5) cmdScrubSet h p s)
def execCoreDisable (h : Hdr) (p : List Byte) (s : State) : Host.Outcome State Fault Refusal :=
  done (cmdRow 0x0701 (some 5) cmdCoreDisable h p s)
def execCoreRelease (h : Hdr) (p : List Byte) (s : State) : Host.Outcome State Fault Refusal :=
  done (cmdRow 0x0702 (some 5) cmdCoreRelease h p s)
def execCoreMap (h : Hdr) (p : List Byte) (s : State) : Host.Outcome State Fault Refusal :=
  done (cmdRow 0x0703 (some 5) cmdCoreMap h p s)
def execBankSpare (h : Hdr) (p : List Byte) (s : State) : Host.Outcome State Fault Refusal :=
  done (cmdRow 0x0704 (some 5) cmdBankSpare h p s)
def execBankTest (h : Hdr) (p : List Byte) (s : State) : Host.Outcome State Fault Refusal :=
  done (cmdRow 0x0705 (some 5) cmdBankTest h p s)
def execRepairRecord (h : Hdr) (p : List Byte) (s : State) : Host.Outcome State Fault Refusal :=
  done (cmdRow 0x0706 (some 5) cmdRepairRecord h p s)
def execSupRelease (h : Hdr) (p : List Byte) (s : State) : Host.Outcome State Fault Refusal :=
  done (cmdRow 0x0707 (some 5) cmdSupRelease h p s)
def execErrInject (h : Hdr) (p : List Byte) (s : State) : Host.Outcome State Fault Refusal :=
  done (cmdRow 0x0708 (some 5) cmdErrInject h p s)

end Sys2Proof.Machine
end

