-- ==== Sys2Proof/Machine/ModelLoad.lean ====
section
/-! DEFINITION. The load checks of a model image (08_tile_ops.md, R482 to R501): each answers the index of the first
offending section, tile-op or operand. What R501 does not name but a load needs (the ranges of the header's fields, the
layout of the HANDLES, RINGS and EPOCHSEMS entries, image semaphores below SEM_COUNT, a user table where USER is named) is
checked under the detail code of the table it belongs to (DEDUCED). -/

namespace Sys2Proof.Machine

open Sys2Proof

/-- The lowest index of the offenders among (index, sound) pairs. -/
def firstBad (l : List (Nat × Bool)) : Option Nat :=
  (l.filter fun e => !e.2).foldl (fun b e => match b with | some m => some (min m e.1) | none => some e.1) none

/-- A single check with index 0. -/
def need (ok : Bool) : Option Nat := if ok then none else some 0

/-- All bytes of a range are 0. -/
def zeros (m : List Byte) (off n : Nat) : Bool := ((m.drop off).take n).all (· == 0)

/-! ## Handle requirements, ring declarations, epoch semaphores (R496, R498, R499) -/

/-- A handle requirement. -/
structure HandleReq where
  slot : Nat
  kind : Nat
  rights : Nat
  units : Nat
  woff : Nat
  wlen : Nat
  rsvd : Nat
  deriving DecidableEq, Repr

def imgHandles (m : List Byte) : List HandleReq :=
  let x := imgSec m 6
  (natsFrom 0 (x.size / 16)).map fun i =>
    let o := x.off + 16 * i
    ⟨leAt m o 1, leAt m (o + 1) 1, leAt m (o + 2) 1, leAt m (o + 4) 4, leAt m (o + 8) 4, leAt m (o + 12) 4,
      leAt m (o + 3) 1⟩

/-- A ring declaration. -/
structure RingReq where
  rslot : Nat
  kind : Nat
  hslot : Nat
  slots : Nat
  units : Nat
  refs : Nat
  flags : Nat
  rsvd : Bool
  deriving DecidableEq, Repr

def imgRings (m : List Byte) : List RingReq :=
  let x := imgSec m 5
  (natsFrom 0 (x.size / 16)).map fun i =>
    let o := x.off + 16 * i
    ⟨leAt m o 1, leAt m (o + 1) 1, leAt m (o + 2) 1, leAt m (o + 3) 1, leAt m (o + 4) 2, leAt m (o + 6) 1,
      leAt m (o + 7) 1, zeros m (o + 8) 8⟩

/-- Epoch semaphores: image semaphore and epoch. -/
def imgEpochSems (m : List Byte) : List (Nat × Nat) :=
  let x := imgSec m 7
  (natsFrom 0 (x.size / 4)).map fun i => (leAt m (x.off + 4 * i) 2, leAt m (x.off + 4 * i + 2) 2)

def handleReq (m : List Byte) (slot : Nat) : Option HandleReq := (imgHandles m).find? fun h => h.slot == slot
def ringReq (m : List Byte) (slot : Nat) : Option RingReq := (imgRings m).find? fun r => r.rslot == slot

/-- Does a list name an element twice? -/
def twice : List Nat → Bool
  | [] => false
  | a :: t => t.contains a || twice t

def handlesOk (m : List Byte) : Bool :=
  let hs := imgHandles m
  !twice (hs.map (·.slot)) && hs.all fun h =>
    decide (h.kind ≤ 2) && decide (h.rights ≤ 15) && h.rsvd == 0 && decide (1 ≤ h.units) && decide (h.units ≤ 262144) &&
      (h.kind != 0 || (decide (h.woff + h.wlen ≤ (imgSec m 3).size) && decide (h.wlen ≤ 4096 * h.units)))

def ringsOk (m : List Byte) : Bool :=
  let rs := imgRings m
  !twice (rs.map (·.rslot)) && !twice ((rs.filter fun r => r.kind == 0).map (·.hslot)) && rs.all fun r =>
    decide (r.kind ≤ 1) && r.rsvd && (r.kind == 1 ||
      (decide (3 ≤ r.slots) && decide (r.slots ≤ 64) && decide (1 ≤ r.units) && decide (r.units ≤ 1024) &&
        decide (r.refs ≤ 7) && decide (r.flags ≤ 7) && decide (1 + r.flags % 2 + r.flags / 2 % 2 ≤ r.refs) &&
        match handleReq m r.hslot with
        | some h => h.kind != 2 && decide (r.slots * r.units ≤ h.units)
        | none => false))

def epochSemsOk (m : List Byte) : Bool :=
  (imgEpochSems m).all fun e => decide (e.1 < 4096) && decide (e.1 < imgSemCount m) && decide (1 ≤ e.2) && decide (e.2 ≤ 255)

/-! ## Details 1 to 4 -/

def chkHeader (raw : List Byte) : Option Nat :=
  let n := imgSize raw
  let fl := leAt raw 0x12 2
  need (decide (64 ≤ raw.length) && leAt raw 0 4 == 0x464C444D && leAt raw 4 2 == 1 && leAt raw 6 2 == 64 &&
    decide (fl ≤ 1) && zeros raw 0x29 7 && zeros raw 0x34 12 && n % 64 == 0 && decide (64 ≤ n) &&
    decide (n + 64 * fl ≤ raw.length) && decide (leAt raw 0x14 1 ≤ 3) && decide (1 ≤ imgG raw) &&
    decide (imgG raw ≤ 16) && decide (imgSemCount raw ≤ 4095))

/-- CRC of an image with the field at `off` taken as 0. -/
def imgCrc (m : List Byte) (off : Nat) : Nat := crc32c (m.take off ++ [0, 0, 0, 0] ++ m.drop (off + 4))

def chkCrc (m : List Byte) : Option Nat := need (imgCrc m 0xC == leAt m 0xC 4)

/-- R495: `key` is the model-signing key of KEY_SLOT; a slot of zeros is empty. -/
def chkSign (raw key : List Byte) (signedOnly : Bool) : Option Nat :=
  let signed := leAt raw 0x12 2 == 1
  if signed || signedOnly then
    need (signed && key.any (· != 0) && edVerify key (raw.take (imgSize raw)) ((raw.drop (imgSize raw)).take 64))
  else none

/-- Do two byte ranges meet? -/
def meets (a b c d : Nat) : Bool := decide (a < d) && decide (c < b)

/-- Section i of the table, against the ones before it, the header and the table itself. -/
def sectionOk (m : List Byte) (i : Nat) : Bool :=
  let t := leAt m 0x30 4
  let o := t + 16 * i
  let x := (imgSections m).getD i ⟨0, 0, 0⟩
  decide (1 ≤ x.ty) && decide (x.ty ≤ 7) && zeros m (o + 2) 2 && zeros m (o + 12) 4 && x.off % 64 == 0 &&
    decide (x.off + x.size ≤ imgSize m) && !meets x.off (x.off + x.size) 0 64 &&
    !meets x.off (x.off + x.size) t (t + 16 * (imgSections m).length) &&
    ((imgSections m).take i).all fun y => y.ty != x.ty && !meets x.off (x.off + x.size) y.off (y.off + y.size)

/-- The index of the section of a type. -/
def secIndex (m : List Byte) (ty : Nat) : Nat := ((imgSections m).map (·.ty)).findIdx (· == ty)

/-- The directory (R497). -/
def directoryOk (m : List Byte) : Bool :=
  let x := imgSec m 1
  let d := 48 * imgG m
  let es := (natsFrom 0 (3 * imgG m)).map fun i => x.off + 16 * i
  let keys := es.map fun o => 16 * leAt m o 1 + leAt m (o + 1) 1
  decide (d ≤ x.size) && !twice keys && (es.all fun o =>
    decide (leAt m o 1 ≤ 2) && decide (leAt m (o + 1) 1 < imgG m) && zeros m (o + 2) 2 && zeros m (o + 12) 4 &&
      decide (d ≤ leAt m (o + 4) 4) && leAt m (o + 4) 4 % 16 == 0 && decide (1 ≤ leAt m (o + 8) 4) &&
      decide (leAt m (o + 8) 4 ≤ 65536) && decide (leAt m (o + 4) 4 + 16 * leAt m (o + 8) 4 ≤ x.size)) &&
    es.any fun o => leAt m (o + 4) 4 == d

def chkSections (m : List Byte) : Option Nat :=
  let n := leAt m 0x10 2
  let t := leAt m 0x30 4
  let has (ty : Nat) : Bool := (imgSections m).any fun x => x.ty == ty
  if !(decide (1 ≤ n) && decide (n ≤ 16) && decide (64 ≤ t) && decide (t + 16 * n ≤ imgSize m)) then some 0
  else
    let size (ty : Nat) : Nat := (imgSec m ty).size
    firstBad ((natsFrom 0 n).map (fun i => (i, sectionOk m i)) ++
      [(0, has 1 && has 2), (secIndex m 1, directoryOk m),
       (secIndex m 2, size 2 % 32 == 0 && decide (32 ≤ size 2) && decide (size 2 ≤ 4096 * 32)),
       (secIndex m 4, !has 4 || size 4 == 832), (secIndex m 5, size 5 % 16 == 0 && ringsOk m),
       (secIndex m 6, size 6 % 16 == 0 && handlesOk m), (secIndex m 7, size 7 % 4 == 0 && epochSemsOk m)])

/-! ## Tile-ops and operands: details 5 and 6 -/

/-- A tile-op of the image: its phase, its index counted from the first tile-op of the section, and its two words. -/
structure ImgOp where
  phase : Nat
  idx : Nat
  w0 : Nat
  w1 : Nat
  deriving DecidableEq, Repr

def imgOps (m : List Byte) : List ImgOp :=
  (imgProgs m).flatMap fun p => (natsFrom 0 p.count).map fun i =>
    ⟨p.phase, (p.off - (imgSec m 1).off - 48 * imgG m) / 16 + i, progWord0 m p i, progWord1 m p i⟩

def opDefined (c : Nat) : Bool :=
  decide (c ≤ 3) || (decide (0x10 ≤ c) && decide (c ≤ 0x13)) || (decide (0x20 ≤ c) && decide (c ≤ 0x22)) ||
    (decide (0x30 ≤ c) && decide (c ≤ 0x32)) || c == 0x38 || c == 0x39 || (decide (0x40 ≤ c) && decide (c ≤ 0x45))

def opFlagsOk (o : ImgOp) : Bool :=
  let c := opCode o.w0
  opDefined c && bitsOf o.w0 14 2 == 0 && opHint o.w0 != 3 && (!opEpi o.w0 || c == 0x10 || c == 0x11) &&
    (!opHold o.w0 || o.phase == 0) && (c != 0x43 || decide (opParam o.w1 ≤ 2)) &&
    (if c = 0x40 ∨ c = 0x45 then bitsOf o.w0 62 2 == 0 else bitsOf o.w0 56 8 == 0)

def chkOps (m : List Byte) : Option Nat := firstBad ((imgOps m).map fun o => (o.idx, opFlagsOk o))

/-- Entries of the operand table. -/
def imgOpdCount (m : List Byte) : Nat := (imgSec m 2).size / 32

/-- An operand index within the table, or none. -/
def opdIndexOk (m : List Byte) (i : Nat) : Bool := i == 0xFFFF || decide (i < imgOpdCount m)

/-- One operand entry (R485 to R490). -/
def opdOk (m : List Byte) (i : Nat) : Bool :=
  let b := (imgSec m 2).off + 32 * i
  let o := imgOpd m i
  let fl := leAt m (b + 2) 1
  let extNext := decide (i + 1 < imgOpdCount m) && leAt m (b + 32) 1 == 6
  let hasSlot (k : Nat) : Bool := (handleReq m k).isSome
  let affine := o.kind == 1 || o.kind == 2 || o.kind == 3
  decide (o.kind ≤ 6) && decide (o.format ≤ 3) && decide (fl ≤ 3) && (!o.row || o.kind == 4) && (!o.hasExt || extNext) &&
    (!affine || (decide (1 ≤ o.ndim) && decide (o.ndim ≤ 5) && (decide (o.ndim ≤ 3) || o.hasExt))) &&
    (match o.kind with
     | 1 => hasSlot o.slot && opdIndexOk m o.aux
     | 2 => (ringReq m o.slot).isSome && decide (o.aux < 2 ^ 13) && opdIndexOk m o.scale
     | 3 => opdIndexOk m o.aux
     | 4 => hasSlot o.slot && decide (1 ≤ o.elem) && decide (o.elem ≤ 4096) && decide (o.counts.getD 0 0 < imgOpdCount m)
     | 5 => hasSlot o.slot
     | 6 => zeros m (b + 1) 11 && zeros m (b + 0x10) 2 && zeros m (b + 0x1C) 4
     | _ => true)

/-- Operand kinds of a tile-op (R484): DST, SRC_A, SRC_B; an empty list where the table has none, 9 where it may be
absent. -/
def opKinds (c : Nat) : List (List Nat) :=
  match c with
  | 0x01 => [[3], [1, 2, 4], []]
  | 0x02 => [[1, 2], [3], []]
  | 0x03 => [[3], [4], []]
  | 0x10 | 0x11 => [[3], [3], [3]]
  | 0x12 | 0x13 | 0x21 | 0x31 | 0x32 | 0x39 => [[3], [3], []]
  | 0x20 => [[3], [3], [3, 9]]
  | 0x22 => [[3, 1], [3], []]
  | 0x30 | 0x38 => [[], [3], []]
  | 0x45 => [[1], [1], []]
  | _ => [[], [], []]

def opdKindOk (m : List Byte) (kinds : List Nat) (i : Nat) : Bool :=
  if i = 0xFFFF then kinds.isEmpty || kinds.contains 9
  else decide (i < imgOpdCount m) && kinds.contains (imgOpd m i).kind

/-- Size of the parameter block of an opcode, if it has one (R491, R492). -/
def blockSize (c : Nat) : Option Nat :=
  if c = 0x10 ∨ c = 0x11 then some 416
  else if c = 0x12 ∨ c = 0x13 ∨ c = 0x20 ∨ c = 0x21 ∨ c = 0x22 ∨ (0x30 ≤ c ∧ c ≤ 0x32) ∨ c = 0x38 ∨ c = 0x39 ∨ c = 0x45 then
    some 16
  else none

def opOperandsOk (m : List Byte) (o : ImgOp) : Bool :=
  let c := opCode o.w0
  let ks := opKinds c
  let semOk (i : Nat) : Bool := i == 0xFFF || decide (i < imgSemCount m)
  opdKindOk m (ks.getD 0 []) (opDst o.w1) && opdKindOk m (ks.getD 1 []) (opSrcA o.w1) &&
    opdKindOk m (ks.getD 2 []) (opSrcB o.w1) && semOk (opWaitSem o.w0) && semOk (opSigSem o.w0) &&
    (c == 0x43 || (if (blockSize c).isSome then opdKindOk m [5] (opParam o.w1) else opdIndexOk m (opParam o.w1)))

def chkOperands (m : List Byte) : Option Nat :=
  match firstBad ((natsFrom 0 (imgOpdCount m)).map fun i => (i, opdOk m i)) with
  | some i => some i
  | none =>
    if (ringReq m (imgDriver m)).isNone then some 0
    else firstBad ((imgOps m).map fun o => (o.idx, opOperandsOk m o))

/-! ## Parameter blocks: details 7 to 9 -/

/-- The parameter block of a tile-op, where its bytes come with the image: in the weights of a HAMPER slot. -/
def imgBlock (m : List Byte) (o : ImgOp) : Option (List Byte) :=
  match blockSize (opCode o.w0) with
  | none => none
  | some n =>
    let d := imgOpd m (opParam o.w1)
    match handleReq m d.slot with
    | some h =>
      if h.kind = 0 ∧ d.offset + n ≤ h.wlen then some ((m.drop ((imgSec m 3).off + h.woff + d.offset)).take n) else none
    | none => none

def actOk (a : Nat) : Bool := (decide (5 ≤ a) && decide (a ≤ 10)) || a == 0x10 || a == 0x11 || a == 0x12

/-- A field of a block is in a range. -/
def inRange (p : List Byte) (off n lo hi : Nat) : Bool := decide (lo ≤ leAt p off n) && decide (leAt p off n ≤ hi)

/-- CONV and MATMUL (R388, R406, R491). -/
def convBlockOk (mat : Bool) (p : List Byte) : Bool :=
  let outs := leAt p 0x10 2 * leAt p 0x12 2
  actOk (leAt p 9 1) && inRange p 0xA 1 1 32 && zeros p 0xB 1 && inRange p 0xC 2 1 4096 && zeros p 0xE 2 &&
    decide (1 ≤ outs) && decide (outs ≤ 1024) && zeros p 0x1C 4 &&
    (leAt p 9 1 != 0x12 || !fLt (leAt p 0x18 4) (leAt p 0x14 4)) &&
    (if mat then leAt p 0x12 2 == 1
     else inRange p 0 1 1 7 && inRange p 1 1 1 7 && inRange p 2 1 1 2 && inRange p 3 1 1 2 && inRange p 4 1 1 4 &&
       inRange p 5 1 1 4 && inRange p 6 1 0 12 && inRange p 7 1 0 12 && inRange p 8 1 0 1)

/-- The block of an opcode (R397, R443, R491, R492). The limits of R460 are detail 9. -/
def blockOk (m : List Byte) (c : Nat) (p : List Byte) : Bool :=
  match c with
  | 0x10 => convBlockOk false p
  | 0x11 => convBlockOk true p
  | 0x12 | 0x13 =>
    inRange p 0 1 2 3 && inRange p 1 1 1 2 && inRange p 2 1 1 2 && inRange p 3 1 0 2 && inRange p 4 1 0 2 &&
      inRange p 5 1 0 2 && inRange p 6 1 0 2 && zeros p 7 9
  | 0x20 => inRange p 0 1 0 16 && inRange p 1 1 0 3 && inRange p 2 1 0 3 && zeros p 3 1 && zeros p 8 8
  | 0x21 => inRange p 0 1 0 10 && zeros p 1 3
  | 0x22 => inRange p 0 1 0 2 && inRange p 1 1 0 2 && zeros p 2 14
  | 0x30 | 0x31 | 0x32 =>
    decide (1 ≤ leAt p 4 1) && decide (leAt p 5 1 < leAt p 4 1) && decide (leAt p 0xC 2 < imgOpdCount m) && zeros p 0xE 2
  | 0x38 => decide (leAt p 2 2 < imgOpdCount m) && decide (leAt p 4 2 < imgOpdCount m) && zeros p 6 10
  | 0x39 =>
    decide (leAt p 2 2 < imgOpdCount m) && decide (leAt p 8 2 < imgOpdCount m) && decide (leAt p 10 2 < imgOpdCount m) &&
      decide (leAt p 12 2 < imgOpdCount m) && zeros p 14 2
  | _ => inRange p 0 1 0 2 && inRange p 1 1 0 1 && inRange p 2 2 4 4096 && leAt p 2 2 % 4 == 0 && zeros p 4 12

def opBlockOk (m : List Byte) (o : ImgOp) : Bool :=
  match blockSize (opCode o.w0) with
  | none => true
  | some n => (imgOpd m (opParam o.w1)).elem == n &&
    (match imgBlock m o with | some p => blockOk m (opCode o.w0) p | none => true)

def chkBlocks (m : List Byte) : Option Nat := firstBad ((imgOps m).map fun o => (o.idx, opBlockOk m o))

/-! ### The user table (R458) -/

def fFinite (a : Nat) : Bool := bitsOf a 23 8 != 255

/-- The upper end LO + 64 × 2^WEXP. -/
def utTop (t : List Byte) : Nat := fAdd (leAt t 0 4) (flBits (flPow false (utWexp t + 6)))

/-- Results at points (i, f), the previous one given: never the wrong way; the last one. -/
def utRun (t : List Byte) (down : Bool) (i : Nat) : Nat → Nat → Nat → Option Nat
  | 0, _, prev => some prev
  | n + 1, f, prev =>
    let v := utPoint t i f
    if (if down then fLt prev v else fLt v prev) then none else utRun t down i n (f + 1) v

/-- All 64 × 65,536 points in order. -/
def utMono (t : List Byte) (down : Bool) : Bool :=
  ((natsFrom 0 64).foldl (fun (p : Option Nat) i => p.bind fun v => utRun t down i 65536 0 v) (some (utPoint t 0 0))).isSome

/-- The ends against the points and, with PASS, against the argument. -/
def utEnds (t : List Byte) : Bool :=
  let mono := leAt t 9 1
  let first := utPoint t 0 0
  let last := utPoint t 63 65535
  let le (a b : Nat) : Bool := if mono = 2 then !fLt a b else !fLt b a
  let below := leAt t 0xA 1
  let above := leAt t 0xB 1
  (below == 1 || le (utBelow t 0) first) && (above == 1 || le last (utAbove t 0)) &&
    (mono != 2 || (below != 1 && above != 1)) && (below != 1 || !fLt first (leAt t 0 4)) &&
    (above != 1 || !fLt (utTop t) last)

def userTableOk (t : List Byte) : Bool :=
  let cs := (natsFrom 0 192).map fun j => leAt t (0x40 + 4 * j) 4
  fFinite (leAt t 0 4) && fFinite (leAt t 0xC 4) && fFinite (leAt t 0x10 4) && cs.all fFinite &&
    decide (-16 ≤ utWexp t) && decide (utWexp t ≤ 16) && fFinite (utTop t) && inRange t 8 1 1 2 &&
    (leAt t 8 1 == 2 || (natsFrom 0 64).all fun i => utCoef t i 2 == 0) &&
    inRange t 9 1 0 2 && inRange t 0xA 1 0 2 && inRange t 0xB 1 0 2 && zeros t 0x14 44 &&
    (leAt t 9 1 == 0 || (utMono t (leAt t 9 1 == 2) && utEnds t))

def imgUserTable (m : List Byte) : List Byte := (m.drop (imgSec m 4).off).take (imgSec m 4).size

/-- Does a tile-op name the user table? -/
def opNamesUser (m : List Byte) (o : ImgOp) : Bool :=
  match imgBlock m o with
  | some p => (opCode o.w0 == 0x21 && leAt p 0 1 == 10) ||
    ((opCode o.w0 == 0x10 || opCode o.w0 == 0x11) && leAt p 9 1 == 10)
  | none => false

def chkUser (m : List Byte) : Option Nat :=
  if (imgSections m).any fun x => x.ty == 4 then
    (if userTableOk (imgUserTable m) then none else some (secIndex m 4))
  else firstBad ((imgOps m).map fun o => (o.idx, !opNamesUser m o))

def chkSmax (m : List Byte) : Option Nat :=
  firstBad ((imgOps m).map fun o => (o.idx,
    !(decide (0x30 ≤ opCode o.w0) && decide (opCode o.w0 ≤ 0x32)) ||
      (match imgBlock m o with
       | some p => decide (leAt p 4 1 ≤ 16) && decide (leAt p 8 4 ≤ 65536)
       | none => true)))

/-! ## Details 10 to 12 -/

/-- The epoch a semaphore is declared for. -/
def epochOfSem (m : List Byte) (i : Nat) : Option Nat := ((imgEpochSems m).find? fun e => e.1 == i).map (·.2)

/-- R474, R482, R531. -/
def specOk (m : List Byte) (o : ImgOp) : Bool :=
  let c := opCode o.w0
  let e := opEpoch o.w0
  let semOk (i : Nat) : Bool := i == 0xFFF || epochOfSem m i == some e
  if c = 0x44 then !opSpec o.w0 && decide (1 ≤ e)
  else if !opSpec o.w0 then e == 0
  else
    decide (1 ≤ e) && !(c == 0x40 || c == 0x45 || c == 0x38 || c == 0x43 || c == 0x41 || c == 0x42) &&
      semOk (opWaitSem o.w0) && semOk (opSigSem o.w0) &&
      (match imgOpd? m (opDst o.w1) with
       | none => true
       | some d =>
         if d.kind = 1 then false
         else if d.kind = 2 then
           (match ringReq m d.slot with | some r => r.kind == 1 || bitAt r.flags 2 | none => false)
         else true) &&
      (c != 0x22 || (match imgBlock m o with | some p => leAt p 1 1 == 0 | none => true))

def chkSpec (m : List Byte) : Option Nat := firstBad ((imgOps m).map fun o => (o.idx, specOk m o))

/-- Do two operand indices name one region: the same core's near store, the same bytes (R384, R514)? -/
def sameRegion (m : List Byte) (i j : Nat) : Bool :=
  let region (o : Opd) : Nat × Nat × Int × Int := (o.kind, o.slot, opdSpan o)
  i == j || region (imgOpd m i) == region (imgOpd m j)

/-- A program's chains (R384): the CONV or MATMUL after a CHAIN names its region. Answers the first offender. -/
def chainRun (m : List Byte) : Option Nat → List ImgOp → Option Nat
  | _, [] => none
  | chain, o :: t =>
    if opCode o.w0 = 0x10 ∨ opCode o.w0 = 0x11 then
      let ok := match chain with | some d => sameRegion m d (opDst o.w1) | none => true
      if ok then chainRun m (if opChain o.w0 then some (opDst o.w1) else none) t else some o.idx
    else chainRun m chain t

/-- The destination of the chain that is open after a program, entered with the one of `chain` open. -/
def chainEnd (chain : Option Nat) (os : List ImgOp) : Option Nat :=
  os.foldl (fun c o =>
    if opCode o.w0 = 0x10 ∨ opCode o.w0 = 0x11 then (if opChain o.w0 then some (opDst o.w1) else none) else c) chain

/-- The tile-ops of a role's program. -/
def progOps (m : List Byte) (p : Prog) : List ImgOp :=
  (natsFrom 0 p.count).map fun i =>
    ⟨p.phase, (p.off - (imgSec m 1).off - 48 * imgG m) / 16 + i, progWord0 m p i, progWord1 m p i⟩

/-- The chains of a role (R384): its core runs SETUP, STRIPE again and again, FINAL, then SETUP of the next task, and a
chain left open by one program goes on in the next. -/
def roleChains (m : List Byte) (role : Nat) : List (Option Nat) :=
  let os (phase : Nat) : List ImgOp := progOps m (imgProg m phase role)
  let a := chainEnd none (os 0)
  let b := chainEnd a (os 1)
  [chainRun m none (os 0), chainRun m a (os 1), chainRun m b (os 1), chainRun m a (os 2), chainRun m b (os 2),
   chainRun m (chainEnd a (os 2)) (os 0), chainRun m (chainEnd b (os 2)) (os 0)]

def chkChains (m : List Byte) : Option Nat :=
  firstBad ((((natsFrom 0 (imgG m)).flatMap (roleChains m)).filterMap id).map fun i => (i, false))

def opContextOk (m : List Byte) (o : ImgOp) : Bool :=
  let c := opCode o.w0
  let x := opBctx o.w0
  let semOk (i : Nat) : Bool := match epochOfSem m i with
    | some e => opSpec o.w0 && opEpoch o.w0 == e
    | none => true
  (!(c == 0x40 || c == 0x45) || (bitAt (imgBctxUsed m) x && bitAt (imgBctxGroup m) x == opScope o.w0)) &&
    semOk (opWaitSem o.w0) && semOk (opSigSem o.w0)

def chkContexts (m : List Byte) : Option Nat := firstBad ((imgOps m).map fun o => (o.idx, opContextOk m o))

/-- The first failing check of R501 and its INDEX. (DEDUCED, log entry 49) -/
def loadRefusal (raw key : List Byte) (signedOnly : Bool) : Option (Nat × Nat) :=
  let m := raw.take (imgSize raw)
  let step (d : Nat) (r : Option Nat) (next : Unit → Option (Nat × Nat)) : Option (Nat × Nat) :=
    match r with | some i => some (d, i) | none => next ()
  step 1 (chkHeader raw) fun _ => step 2 (chkCrc m) fun _ => step 3 (chkSign raw key signedOnly) fun _ =>
  step 4 (chkSections m) fun _ => step 5 (chkOps m) fun _ => step 6 (chkOperands m) fun _ =>
  step 7 (chkBlocks m) fun _ => step 8 (chkUser m) fun _ => step 9 (chkSmax m) fun _ => step 10 (chkSpec m) fun _ =>
  step 11 (chkChains m) fun _ => step 12 (chkContexts m) fun _ => none

end Sys2Proof.Machine
end

