-- ==== Sys2Proof/Machine/CmdModel.lean ====
section
/-! DEFINITION. The model and task commands (0x03xx, R741 to R743; R500 to R504, R519). -/

namespace Sys2Proof.Machine

open Sys2Proof

/-! ## MODEL_LOAD (R500, R501, R742) -/

/-- SEM_COUNT semaphores starting at `b` belong to no loaded image. (DESIGN CHOICE, log entry 16) -/
def semsFree (s : State) (b n : Nat) : Bool :=
  s.models.all fun e =>
    decide (b + n ≤ e.2.semBase) || decide (e.2.semBase + imgSemCount e.2.image ≤ b) || imgSemCount e.2.image == 0

/-- The lowest range of n consecutive free semaphores (DESIGN CHOICE: R500 leaves the pick open); base 0 for none. -/
def freeSems (s : State) (n : Nat) : Option Nat :=
  if n = 0 then some 0 else (natsFrom 0 (4097 - n)).find? fun b => semsFree s b n

/-- The lowest ring not declared (DESIGN CHOICE, as above). (DESIGN CHOICE, log entry 16) -/
def freeRing (s : State) : Option Nat := (natsFrom 0 128).find? fun r => !(ringOf s r).declared

/-- The table after one handle requirement: its handle. Owned by the supervisor until a bind. -/
def loadHandle (m : List Byte) (h : HandleReq) (p : State × Tab Nat) : Option (State × Tab Nat) :=
  if h.kind = 2 then some p
  else
    let ring := (imgRings m).any fun r => r.kind == 0 && r.hslot == h.slot
    (allocate h.units h.rights (2 ^ 0x1C) (if h.kind = 0 then .hamper else .scratch) ring p.1).map fun q =>
      (q.1, tabSet p.2 h.slot (handleVal q.1 q.2))

/-- The table after one ring declaration: its ring number. -/
def loadRing (hs : Tab Nat) (r : RingReq) (p : State × Tab Nat) : Option (State × Tab Nat) :=
  if r.kind = 1 then some p
  else (freeRing p.1).map fun n =>
    let g : Ring := { declared := true, handle := tabGet 0 hs r.hslot, slots := r.slots, slotUnits := r.units,
                      producer := 0x1C, refs := r.refs, autoUp := bitAt r.flags 0, autoDown := bitAt r.flags 1,
                      spec := bitAt r.flags 2 }
    (ringPut n g p.1, tabSet p.2 r.rslot n)

/-- All of a list in turn, as long as each succeeds. -/
def runAll {α β : Type} (f : α → β → Option β) (l : List α) (b : β) : Option β :=
  l.foldl (fun r a => r.bind (f a)) (some b)

/-- Weight bytes of the HAMPER slots (R500). Answers the first error response. (DEDUCED, log entry 49) -/
def loadWeights (m : List Byte) (hs : Tab Nat) (s : State) : State × Nat :=
  ((imgHandles m).filter fun h => h.kind == 0).foldl (fun p h =>
    let d := (m.drop ((imgSec m 3).off + h.woff)).take h.wlen
    let q := supWrite (handleOf p.1 (tabGet 0 hs h.slot % 256)).base d p.1
    (q.1, if p.2 = 0 then q.2 else p.2)) (s, 0)

/-- What a load comes to: the state, the final status, DETAIL and RESULTS. -/
structure LoadRes where
  s : State
  status : Nat
  detail : Nat
  res : List Byte
  deriving DecidableEq, Repr

/-- A refused load: detail code and INDEX. -/
def loadRefused (status detail index : Nat) (s : State) : LoadRes := ⟨s, status, detail, leBytes 4 index⟩

/-- Allocation and copy of a checked image in slot `k` (R500). (DEDUCED, log entry 49) -/
def loadAlloc (m : List Byte) (k : Nat) (s : State) : LoadRes :=
  match runAll (loadHandle m) (imgHandles m) (s, []) with
  | none => loadRefused 0x30 13 (secIndex m 6) s
  | some (s1, hs) =>
    match runAll (loadRing hs) (imgRings m) (s1, []) with
    | none => loadRefused 0x30 13 (secIndex m 5) s
    | some (s2, rs) =>
      match freeSems s (imgSemCount m) with
      | none => loadRefused 0x30 13 0 s
      | some b =>
        let w := loadWeights m hs s2
        if w.2 ≠ 0 then loadRefused 0x40 0 0 { w.1 with handles := s.handles, rings := s.rings }
        else
          let md : Model := { image := m, semBase := b, handles := hs, rings := rs, ownHandles := hs.map (·.2),
                              ownRings := rs.map (·.2) }
          ⟨{ w.1 with models := tabSet s.models k md }, 0, 0, [b8 k, 0] ++ leBytes 2 b⟩

/-- Is SIGNED_ONLY in force? -/
def signedOnly (s : State) : Bool := leAt (tabGet [] s.sup.cfg (0x04 * 256)) 0 1 == 1

/-- The key of a slot, all zeros where it is empty. -/
def modelKey (s : State) (slot : Nat) : List Byte := tabGet (List.replicate 32 0) s.sup.cfg (0x05 * 256 + slot)

/-- Load an image: checks (R501), then allocation. USER_REFUSED is set under R458. -/
def loadImage (raw : List Byte) (s : State) : LoadRes :=
  match loadRefusal raw (modelKey s (leAt raw 0x14 1)) (signedOnly s) with
  | some (d, i) => loadRefused 0x12 d i (if d = 8 then regOr 0x600 8 s else s)
  | none =>
    match (natsFrom 0 32).find? fun k => (tabGet? s.models k).isNone with
    | none => loadRefused 0x30 13 0 s
    | some k => loadAlloc (raw.take (imgSize raw)) k s

/-- Keep the buffer range that named an image. -/
def modelSrc (k : Nat) (src : Nat × Nat × Nat × Nat) (s : State) : State :=
  match tabGet? s.models k with
  | some md => { s with models := tabSet s.models k { md with src := src } }
  | none => s

def cmdModelLoad : CmdFun := fun h p s =>
  let hv := leAt p 0 2
  let off := leAt p 4 4
  let n := leAt p 8 4
  checks (lenIs h p 12 ++ [rsv p 2 2, (!rangeIn s hv off n, 0x12), busy s 0x0300 p, badIf (32 ≤ s.models.length) 0x30])
    (let q := bufRead hv off n s
     match q.2 with
     | none => acceptDone h 0x0300 (hv % 256) p 0x40 0 [] q.1
     | some raw =>
       let r := loadImage raw q.1
       acceptDone h 0x0300 (hv % 256) p r.status r.detail r.res
         (if r.status = 0 then modelSrc (leAt r.res 0 1) (hv, (handleOf s (hv % 256)).base, off, n) r.s else r.s))

/-! ## MODEL_UNLOAD, MODEL_BIND_EXT -/

/-- Is an image active or pending for a group? -/
def modelBound (s : State) (m : Nat) : Bool := s.sgroups.any fun e => decide (e.2.model = m) || e.2.pendModel == some m

def modelUnload (m : Nat) (s : State) : State :=
  match modelOf s m with
  | none => s
  | some md =>
    let s := md.ownRings.foldl (fun s' r => { s' with rings := tabDel s'.rings r }) s
    let s := md.ownHandles.foldl (fun s' hv => freeHandle (hv % 256) s') s
    { s with models := tabDel s.models m }

/-- May no buffer of the image be freed (R245, R267) or no ring of it be undeclared (R297)? -/
def modelLocked (s : State) (m : Nat) : Bool :=
  match modelOf s m with
  | some md => (md.ownHandles.any fun hv => handleKept s (hv % 256)) || md.ownRings.any (ringInUse s)
  | none => false

def cmdModelUnload : CmdFun := fun h p s =>
  let m := leAt p 0 1
  checks (lenIs h p 4 ++
    [badIf (31 < m) 0x12, rsv p 1 3, ((modelOf s m).isNone || modelBound s m || modelLocked s m, 0x21), busy s 0x0301 p])
    (.ok (modelUnload m s) [])

/-- Is the slot of a loaded image EXTERNAL? -/
def slotExternal (md : Model) (kind slot : Nat) : Bool :=
  if kind = 0 then (handleReq md.image slot).any fun h => h.kind == 2
  else (ringReq md.image slot).any fun r => r.kind == 1

def bindExt (m kind slot target : Nat) (s : State) : State :=
  match modelOf s m with
  | none => s
  | some md =>
    let md := if kind = 0 then { md with handles := tabSet md.handles slot target }
              else { md with rings := tabSet md.rings slot target }
    { s with models := tabSet s.models m md }

def cmdModelBindExt : CmdFun := fun h p s =>
  let m := leAt p 0 1
  let kind := leAt p 1 1
  let slot := leAt p 2 1
  let target := leAt p 4 2
  let ext := match modelOf s m with | some md => slotExternal md kind slot | none => false
  checks (lenIs h p 6 ++
    [badIf (31 < m ∨ 1 < kind) 0x12, rsv p 3 1,
     badIf (kind = 0 ∧ handleOk s target = false ∨ kind = 1 ∧ 127 < target) 0x12,
     (modelBound s m || !ext, 0x21), busy s 0x0302 p])
    (.ok (bindExt m kind slot target s) [])

/-! ## CORESET_FORM, CORESET_DISSOLVE (R502) -/

def coresOf (mask : Nat) : List Nat := (natsFrom 0 64).filter (bitAt mask)

def cmdCoresetForm : CmdFun := fun h p s =>
  let cs := leAt p 0 1
  let mask := leAt p 8 8
  checks (lenIs h p 16 ++
    [badIf (15 < cs) 0x12, rsv p 1 7,
     (mask == 0 || (coresOf mask).any fun c => (physCore s c).isNone || (csOfCore s c).any fun o => decide (o ≠ cs), 0x12),
     ((tabGet? s.coreSets cs).isSome, 0x21), busy s 0x0303 p])
    (.ok { s with coreSets := tabSet s.coreSets cs mask } [])

def cmdCoresetDissolve : CmdFun := fun h p s =>
  let cs := leAt p 0 1
  checks (lenIs h p 4 ++
    [badIf (15 < cs) 0x12, rsv p 1 3, ((tabGet? s.coreSets cs).isNone || !(groupsOfCs s cs).isEmpty, 0x21),
     busy s 0x0304 p])
    (.ok { s with coreSets := tabDel s.coreSets cs } [])

/-! ## GROUP_BIND, GROUP_SWAP, GROUP_UNBIND (R503, R504, R519) -/

/-- N is not a multiple of G. (DEDUCED, log entry 50) -/
def bindUneven (s : State) (cs m : Nat) : Bool :=
  match modelOf s m with
  | some md => (tabGet? s.coreSets cs).isSome && (csMembers s cs).length % imgG md.image != 0
  | none => false

/-- An EXTERNAL slot of the image is unbound. -/
def bindMissing (md : Model) : Bool :=
  ((imgHandles md.image).any fun h => h.kind == 2 && (tabGet? md.handles h.slot).isNone) ||
    (imgRings md.image).any fun r => r.kind == 1 && (tabGet? md.rings r.rslot).isNone

/-- Two images share a barrier context or a semaphore. -/
def bindOverlap (a b : Model) : Bool :=
  (natsFrom 0 32).any (fun i => bitAt (imgBctxUsed a.image) i && bitAt (imgBctxUsed b.image) i) ||
    (decide (a.semBase < b.semBase + imgSemCount b.image) && decide (b.semBase < a.semBase + imgSemCount a.image))

/-- The images active or pending in the other groups of a core set. -/
def bindOthers (s : State) (g cs : Nat) : List Model :=
  ((s.sgroups.filter fun e => decide (e.1 ≠ g) && decide (e.2.cs = cs)).flatMap fun e =>
    e.2.model :: e.2.pendModel.toList).filterMap (modelOf s)

/-- The image cannot be bound in the present state. -/
def bindState (s : State) (g cs m : Nat) : Bool :=
  match modelOf s m with
  | none => true
  | some md => bindMissing md || (bindOthers s g cs).any (bindOverlap md)

/-- The core set's tag becomes an owner of the image's own buffers and the producer of its own rings (R487, R499); when
an image leaves a group the tag goes again. -/
def modelOwn (m cs : Nat) (on : Bool) (s : State) : State :=
  match modelOf s m with
  | none => s
  | some md =>
    let own (o : Nat) : Nat := if bitAt o cs then (if on then o else o - 2 ^ cs) else if on then o + 2 ^ cs else o
    let s := md.ownHandles.foldl (fun s' hv =>
      let h := handleOf s' (hv % 256)
      handlePut (hv % 256) { h with owner := own h.owner } s') s
    md.ownRings.foldl (fun s' r => ringPut r { ringOf s' r with producer := if on then cs else 0x1C } s') s

/-- Owner and views of a journal buffer: the supervisor, readable by the host and the Trestle cores (R519).
(DEDUCED, log entry 50) -/
def journalOwner : Nat := 2 ^ 0x1C + 2 ^ 0x18 + 255 * 2 ^ 0x10

def cmdGroupBind : CmdFun := fun h p s =>
  let g := leAt p 0 1
  let cs := leAt p 1 1
  let m := leAt p 2 1
  let j := leAt p 3 1
  let jwords := 2 ^ j
  checks (lenIs h p 8 ++
    [badIf (15 < g ∨ 15 < cs ∨ 31 < m ∨ j < 10 ∨ 16 < j ∨ 2 ^ 24 ≤ leAt p 4 4) 0x12, (bindUneven s cs m, 0x12),
     ((groupGet s g).isSome || (tabGet? s.coreSets cs).isNone || bindState s g cs m, 0x21), busy s 0x0305 p])
    (match allocate (cdiv (8 * jwords + 16384) 4096) 5 journalOwner .fixed false s with
     | none => .stop 0x30 []
     | some (s', i) =>
       let x : Group := { cs := cs, model := m, streams := leAt p 4 4, journal := i, jwords := jwords }
       .ok (modelOwn m cs true (groupPut g x s')) (leBytes 4 (handleOf s' i).base))

def cmdGroupStart : CmdFun := fun h p s =>
  let g := leAt p 0 1
  let ok := match groupGet s g with | some x => !x.started | none => false
  checks (lenIs h p 4 ++ [badIf (15 < g) 0x12, rsv p 1 3, (!ok, 0x21), busy s 0x0306 p])
    (.ok (groupMod g (fun x => { x with started := true }) s) [])

/-! ### GROUP_STOP (R743) -/

/-- A stop with no task to wait for. -/
def stopEnds (g : Nat) (s : State) : State :=
  match groupGet s g with
  | none => s
  | some x =>
    if x.stopping && x.phase == .waiting then
      let s := groupMod g (fun x => { x with stopping := false, started := false, due := [] }) s
      longDone (fun l => l.opcode == 0x0307 && decide (l.obj = g)) 0 0 (leBytes 4 (lastRepeat x)) s
    else s

def cmdGroupStop : CmdFun := fun h p s =>
  let g := leAt p 0 1
  let mode := leAt p 1 1
  let skip (l : LongCmd) : Bool := mode == 1 && l.opcode == 0x0307 && leAt l.payload 1 1 == 0
  checks (lenIs h p 4 ++
    [badIf (15 < g ∨ 1 < mode) 0x12, rsv p 2 2, (!((groupGet s g).any (·.started)), 0x21),
     (busyBut s 0x0307 p skip, 0x20)])
    (let last := match groupGet s g with | some x => lastRepeat x | none => 0
     let s := if mode = 1 then longDone (fun l => l.opcode == 0x0307 && decide (l.obj = g)) 0 1 (leBytes 4 last) s else s
     let q := accept h 0x0307 g p none mode s
     let s := groupMod g (fun x => { x with stopping := true }) q.1
     .accepted (stopEnds g (if mode = 1 then abortTask g 5 0x1C s else s)))

/-! ### GROUP_SWAP, GROUP_UNBIND, TASK_ABORT, EPOCH_CANCEL -/

def cmdGroupSwap : CmdFun := fun h p s =>
  let g := leAt p 0 1
  let m := leAt p 1 1
  let cs := match groupGet s g with | some x => x.cs | none => 16
  checks (lenIs h p 4 ++
    [badIf (15 < g ∨ 31 < m) 0x12, rsv p 2 2, (bindUneven s cs m, 0x12),
     ((groupGet s g).isNone || bindState s g cs m, 0x21), busy s 0x0308 p])
    (let q := accept h 0x0308 g p none 0 s
     .accepted (modelOwn m cs true (groupMod g (fun x => { x with pendModel := some m }) q.1)))

def cmdGroupUnbind : CmdFun := fun h p s =>
  let g := leAt p 0 1
  checks (lenIs h p 4 ++
    [badIf (15 < g) 0x12, rsv p 1 3,
     (match groupGet s g with
      | some x => x.started || handleKept s x.journal
      | none => true, 0x21), busy s 0x0309 p])
    (match groupGet s g with
     | none => .stop 0x21 []
     | some x =>
       let s := freeHandle x.journal { s with sgroups := tabDel s.sgroups g }
       let off (m : Nat) (s : State) : State :=
         if s.sgroups.any fun e => decide (e.2.cs = x.cs) && (decide (e.2.model = m) || e.2.pendModel == some m) then s
         else modelOwn m x.cs false s
       .ok (x.pendModel.toList.foldl (fun s' m => off m s') (off x.model s)) [])

def cmdTaskAbort : CmdFun := fun h p s =>
  let g := leAt p 0 1
  let runs := match groupGet s g with | some x => x.phase == .running || x.phase == .boundary | none => false
  checks (lenIs h p 4 ++ [badIf (15 < g) 0x12, rsv p 1 3, (!runs, 0x21), busy s 0x030A p])
    (let rep := match groupGet s g with | some x => lastRepeat x | none => 0
     .ok (abortTask g 5 0x1C s) (leBytes 4 rep))

def cmdEpochCancel : CmdFun := fun h p s =>
  let cs := leAt p 0 1
  checks (lenIs h p 4 ++ [badIf (15 < cs) 0x12, rsv p 2 2, ((tabGet? s.coreSets cs).isNone, 0x21), busy s 0x030B p])
    (.ok (epochCancelOp cs (leAt p 1 1) s) [])

def execModelLoad (h : Hdr) (p : List Byte) (s : State) : Host.Outcome State Fault Refusal :=
  done (cmdRow 0x0300 (some 1) cmdModelLoad h p s)
def execModelUnload (h : Hdr) (p : List Byte) (s : State) : Host.Outcome State Fault Refusal :=
  done (cmdRow 0x0301 (some 1) cmdModelUnload h p s)
def execModelBindExt (h : Hdr) (p : List Byte) (s : State) : Host.Outcome State Fault Refusal :=
  done (cmdRow 0x0302 (some 1) cmdModelBindExt h p s)
def execCoresetForm (h : Hdr) (p : List Byte) (s : State) : Host.Outcome State Fault Refusal :=
  done (cmdRow 0x0303 (some 1) cmdCoresetForm h p s)
def execCoresetDissolve (h : Hdr) (p : List Byte) (s : State) : Host.Outcome State Fault Refusal :=
  done (cmdRow 0x0304 (some 1) cmdCoresetDissolve h p s)
def execGroupBind (h : Hdr) (p : List Byte) (s : State) : Host.Outcome State Fault Refusal :=
  done (cmdRow 0x0305 (some 1) cmdGroupBind h p s)
def execGroupStart (h : Hdr) (p : List Byte) (s : State) : Host.Outcome State Fault Refusal :=
  done (cmdRow 0x0306 (some 1) cmdGroupStart h p s)
def execGroupStop (h : Hdr) (p : List Byte) (s : State) : Host.Outcome State Fault Refusal :=
  done (cmdRow 0x0307 (some 1) cmdGroupStop h p s)
def execGroupSwap (h : Hdr) (p : List Byte) (s : State) : Host.Outcome State Fault Refusal :=
  done (cmdRow 0x0308 (some 1) cmdGroupSwap h p s)
def execGroupUnbind (h : Hdr) (p : List Byte) (s : State) : Host.Outcome State Fault Refusal :=
  done (cmdRow 0x0309 (some 1) cmdGroupUnbind h p s)
def execTaskAbort (h : Hdr) (p : List Byte) (s : State) : Host.Outcome State Fault Refusal :=
  done (cmdRow 0x030A (some 1) cmdTaskAbort h p s)
def execEpochCancel (h : Hdr) (p : List Byte) (s : State) : Host.Outcome State Fault Refusal :=
  done (cmdRow 0x030B (some 1) cmdEpochCancel h p s)

end Sys2Proof.Machine
end

