-- ==== Sys2Proof/Machine/TrCache.lean ====
section
/-! DEFINITION. The Trestle L2 (11_trestle_cluster.md, R644 to R651). The L1 caches are transparent: they are
write-through and coherent with the L2. Sets are selected by the low bits of the line number, and the victim of a full
set is a free choice (R644 gives sizes and ways only). -/

namespace Sys2Proof.Machine

open Sys2Proof

/-- The lines of the set of a line: 4 MiB / 64 B / 16 ways = 4,096 sets. (DEDUCED, log entry 35) -/
def l2Set (s : State) (n : Nat) : List Nat := (s.l2.filter fun e => decide (e.1 % 4096 = n % 4096)).map (·.1)

/-- The naturally aligned pieces of the dirty bytes among bytes [i, i + k) of a line, k a power of two.
(DEDUCED, log entry 35) -/
def dirtyPieces (d : Nat) (i : Nat) : Nat → List (Nat × Nat)
  | 0 => if bitAt d i then [(i, 1)] else []
  | k + 1 =>
    let w := 2 ^ (k + 1)
    if bitsOf d i w = 2 ^ w - 1 then [(i, w)]
    else if bitsOf d i w = 0 then []
    else dirtyPieces d i k ++ dirtyPieces d (i + 2 ^ k) k

/-- The store-error source of a core. -/
def storeError (core : Nat) (s : State) : State := ticPulse core s

/-- Write one piece of line n: the state, and whether the store took it (R650). -/
def l2WritePiece (n : Nat) (l : L2Line) (p : Nat × Nat) (s : State) : State × Bool :=
  let q := dsAccess ⟨0x10 + l.core, 0, .addr (64 * n + p.1), false, true, p.2, (l.data.drop p.1).take p.2⟩ false s
  if q.2.resp = 0 then (q.1, true) else (storeError l.core q.1, false)

/-- A word of a line has an uncorrectable error. -/
def l2Bad (l : L2Line) (w : Nat) : Bool :=
  tabGet .ok l.ecc w == .uncorrectable || tabGet .ok l.ecc w == .poisoned

/-- A word of a dirty line with an uncorrectable error goes to the store poisoned; every running core is told (R651). -/
def l2WriteBad (n : Nat) (l : L2Line) (w : Nat) (s : State) : State :=
  let a := 64 * n + 8 * w
  let q := l2WritePiece n l (8 * w, 8) s
  let s := regOr 0x304 0x10000 (if q.2 then eccSet a .poisoned q.1 else q.1)
  let s := (natsFrom 0 8).foldl (fun s' i => if trRuns s' i then storeError i s' else s') s
  logPut { source := 0x10 + l.core, cls := 1, code := 0x26, addr := a } s

/-- Write line n back (R650): 8 B and smaller writes of the dirty bytes, and the words with an uncorrectable error of a
dirty line. The line stays, clean. (DEDUCED, log entry 35) -/
def l2WriteBack (n : Nat) (s : State) : State :=
  match tabGet? s.l2 n with
  | none => s
  | some l =>
    if l.dirty = 0 then s
    else (natsFrom 0 8).foldl (fun s' w =>
      if l2Bad l w then l2WriteBad n l w s'
      else (dirtyPieces l.dirty (8 * w) 3).foldl (fun s'' p => (l2WritePiece n l p s'').1) s')
      { s with l2 := tabSet s.l2 n { l with dirty := 0 } }

/-- Line n leaves the L2. -/
def l2Drop (n : Nat) (s : State) : State := { s with l2 := tabDel s.l2 n }

/-- Room for line n: where its set is full, a line of the set goes. (DEDUCED, log entry 35) -/
def l2MakeRoom (n : Nat) (s : State) : State :=
  let ls := l2Set s n
  if ls.length < 16 then s
  else
    let v := ls.getD ((freeNow s).toNat % 16) 0
    l2Drop v (l2WriteBack v (freeStep s))

/-- A hit meets the check bits of the line (R651): a correctable error is corrected; a line with an uncorrectable one
leaves, a dirty one by a write-back, and is fetched anew. (DEDUCED, log entry 35) -/
def l2Check (n : Nat) (s : State) : State :=
  match tabGet? s.l2 n with
  | none => s
  | some l =>
    let ce := l.ecc.any fun e => e.2 == .correctable
    let ue := (natsFrom 0 8).any (l2Bad l)
    let s := if ce then
        let keep := l.ecc.filter fun e => e.2 != .correctable
        logPut { source := 0x10 + l.core, cls := 0, code := 0x23, addr := 64 * n }
          (regOr 0x304 0x20000 { s with l2 := tabSet s.l2 n { l with ecc := keep } })
      else s
    if ue then l2Drop n (regOr 0x304 0x10000 (l2WriteBack n s)) else s

/-- Line n is in the L2, filled for core c if it was not; the error response of the fill. The cluster's accesses use the
narrow view (R226): a fill is eight reads of 8 B. (DEDUCED, log entry 35) -/
def l2Fill (c n : Nat) (s : State) : State × Nat :=
  let s := l2Check n s
  match tabGet? s.l2 n with
  | some _ => (s, 0)
  | none =>
    let s := l2MakeRoom n s
    let q := dsReadUntil (0x10 + c) 0 (narrowPieces 64 (64 * n) 64) s
    if q.2.1 = 0 then ({ q.1 with l2 := tabSet q.1.l2 n ⟨q.2.2, 0, c, []⟩ }, 0) else (q.1, q.2.1)

/-- Read k bytes at offset o of line n for core c. -/
def l2Read (c n o k : Nat) (s : State) : State × Nat × List Byte :=
  let q := l2Fill c n s
  match tabGet? q.1.l2 n with
  | some l => if q.2 = 0 then (q.1, 0, (l.data.drop o).take k) else (q.1, q.2, [])
  | none => (q.1, q.2, [])

/-- Write bytes at offset o of line n for core c. -/
def l2Write (c n o : Nat) (d : List Byte) (s : State) : State × Nat :=
  let q := l2Fill c n s
  match tabGet? q.1.l2 n with
  | some l =>
    if q.2 = 0 then
      let data := l.data.take o ++ d ++ l.data.drop (o + d.length)
      let dirty := (natsFrom o d.length).foldl (fun m i => if bitAt m i then m else m + 2 ^ i) l.dirty
      ({ q.1 with l2 := tabSet q.1.l2 n { l with data := data, dirty := dirty, core := c } }, 0)
    else (q.1, q.2)
  | none => (q.1, q.2)

/-- The lines of a byte range. -/
def l2Lines (s : State) (a n : Nat) : List Nat :=
  (s.l2.filter fun e => decide (a < 64 * e.1 + 64) && decide (64 * e.1 < a + n)).map (·.1)

/-- Write back and invalidate the lines of a byte range (R663). -/
def l2Flush (a n : Nat) (s : State) : State :=
  (l2Lines s a n).foldl (fun s' k => l2Drop k (l2WriteBack k s')) s

end Sys2Proof.Machine
end

