-- ==== Sys2Proof/Machine/CmdTrestle.lean ====
section
/-! DEFINITION. The Trestle commands (0x0Axx, R759, R760) and the boot contract (R661 to R665). -/

namespace Sys2Proof.Machine

open Sys2Proof

/-- The cores of a mask. -/
def trCores (m : Nat) : List Nat := (natsFrom 0 8).filter (bitAt m)

/-! ## TR_BOOT -/

/-- Is a Trestle image sound: header, CRC, signature, ENTRY and BOOTINFO (R661, R662)? -/
def trImageOk (raw key : List Byte) (signed : Bool) : Bool :=
  let n := leAt raw 8 4
  let fl := leAt raw 6 2
  let entry := leAt raw 0x10 4
  let info := leAt raw 0x14 4
  decide (32 ≤ raw.length) && leAt raw 0 4 == 0x54524553 && leAt raw 4 2 == 1 && decide (fl ≤ 1) && n % 64 == 0 &&
    decide (64 ≤ n) && decide (n + 64 * fl ≤ raw.length) && entry % 4 == 0 && info % 64 == 0 &&
    decide (leAt raw 0x18 1 ≤ 3) && zeros raw 0x19 7 && imgCrc (raw.take n) 0xC == leAt raw 0xC 4 &&
    decide (entry < n) && decide (info + 64 ≤ n) && (!signed || fl == 1) &&
    (fl == 0 || (key != List.replicate 32 0 && edVerify key (raw.take n) ((raw.drop n).take 64)))

/-- The boot information block (R664). (DEDUCED, log entry 36) -/
def bootInfo (s : State) (cores base size : Nat) (owners : List Byte) : List Byte :=
  [1, 0, b8 cores, b8 (if xkJoined s then s.xk.node else 0xFF), 0, 0, 0, 0] ++ leBytes 8 base ++ leBytes 8 size ++
    leBytes 8 s.ts ++ owners ++ List.replicate 16 0

/-- A core at its entry (R665): mstatus has FS and VS Initial; vtype is as after reset, with vill set (PRESUMED).
(DESIGN CHOICE, log entry 10) -/
def hartEntry (i entry info : Nat) : Hart :=
  { state := .running, pc := BitVec.ofNat 64 entry, x := tabPut 0 (tabPut 0 [] 10 (BitVec.ofNat 64 i)) 11 (BitVec.ofNat 64 info),
    priv := 3, csr := [(0x300, 0x2200), (0xC21, 0x8000000000000000)] }

/-- Core i is released: its TIC enables and thresholds are 0, MTIMECMP is all ones. (DEDUCED, log entry 36) -/
def trRelease (i entry info : Nat) (s : State) : State :=
  let s := hartPut i (hartEntry i entry info) s
  let s := ((natsFrom 0 8).flatMap fun w => [ticEn i false + 4 * w, ticEn i true + 4 * w]).foldl
    (fun s' o => regSet (clusterKey o) 0 s') s
  let s := regSet (clusterKey (ticThr i false)) 0 (regSet (clusterKey (ticThr i true)) 0 s)
  regSet (clusterKey (0x4000 + 8 * i)) 0xFFFFFFFF (regSet (clusterKey (0x4004 + 8 * i)) 0xFFFFFFFF s)

/-- The owners of EV_144 to EV_159, as a command gives them. -/
def trOwners (d : List Byte) (s : State) : State :=
  { s with evOwner := (natsFrom 0 16).foldl (fun t k =>
      let v := leAt d k 1
      if v < 8 then tabSet t k v else tabDel t k) s.evOwner }

/-- The pairs of a command's cores are ON: the block is written, the cores are released (R663 to R665). -/
def trBootGo (k : Nat) (l : LongCmd) (s : State) : State :=
  let hv := leAt l.payload 0 2
  let cores := leAt l.payload 2 1
  let h := handleOf s (hv % 256)
  let head := (supRead h.base 32 s).2.2
  let entry := leAt head 0x10 4
  let info := leAt head 0x14 4
  let owners := (l.payload.drop 4).take 16
  let s := (supWrite (h.base + info) (bootInfo s cores h.base (4096 * h.units) owners) s).1
  let s := trOwners owners (l2Flush h.base (4096 * h.units) s)
  let s := (trCores cores).foldl (fun s' i => trRelease i (h.base + entry) (h.base + info) s') s
  longDoneAt k 0 0 [b8 cores, 0, 0, 0] s

/-- The TR_BOOT commands whose pairs are all ON go on. -/
def trBootCheck (s : State) : State :=
  s.sup.longs.foldl (fun s' e =>
    if e.2.opcode = 0x0A00 ∧ e.2.done.isNone ∧ (trCores (leAt e.2.payload 2 1)).all (fun i => domOn s' (91 + i / 2)) then
      trBootGo e.1 e.2 s'
    else s') s

/-- A pair's domain starts to go ON. -/
def pairOn (p : Nat) (s : State) : State :=
  let d := domOf s (91 + p)
  if d.on && d.trans.isNone then s
  else if d.trans.any (·.1) then s
  else domPut (91 + p) { on := false, trans := some (true, s.ts) } s

/-- May a core be booted? -/
def trBootable (s : State) (i : Nat) : Bool :=
  let x := (hartOf s i).state
  x == .off || x == .halted || x == .stopped

def cmdTrBoot : CmdFun := fun h p s =>
  let hv := leAt p 0 2
  let cores := leAt p 2 1
  let own := (p.drop 4).take 16
  checks (lenIs h p 20 ++
    [rsv p 3 1, (own.any fun b => decide (7 < b.toNat) && b != 0xFF, 0x12), (!handleOk s hv, 0x12),
     ((trCores cores).any fun i => !trBootable s i, 0x21), busy s 0x0A00 p])
    (let x := handleOf s (hv % 256)
     let s := l2Flush x.base (4096 * x.units) s
     let q := supRead x.base (4096 * x.units) s
     let c := accept h 0x0A00 (hv % 256) p none 0 q.1
     if q.2.1 ≠ 0 then .accepted (longDoneAt c.2 0x40 0 [] c.1)
     else if trImageOk q.2.2 (modelKey s (leAt q.2.2 0x18 1)) (signedOnly s) then
       .accepted (trBootCheck ((trCores cores).foldl (fun s' i => pairOn (i / 2) s') c.1))
     else .accepted (longDoneAt c.2 0x12 0 [] c.1))

/-! ## TR_HALT (R667 to R670, R760) -/

/-- Is it a TR_HALT MODE 0 on some of these cores? -/
def haltMeets (cores : Nat) (l : LongCmd) : Bool :=
  l.opcode == 0x0A01 && leAt l.payload 1 1 == 0 && haltCores l &&& cores != 0

/-- A halt request to each core, with the command's timeout. -/
def haltRequest (cores key expiry : Nat) (s : State) : State :=
  (trCores cores).foldl (fun s' i =>
    trTo i .haltRequested (hartMod i (fun h => { h with haltBy := some (expiry, key) }) s')) s

/-- Forced stops; the MODE 0 commands still running on these cores complete with DETAIL 1. -/
def haltForced (cores : Nat) (s : State) : State :=
  let mark (e : Nat × LongCmd) : Nat × LongCmd := if haltMeets cores e.2 then (e.1, { e.2 with aux := 9 }) else e
  let s := { s with sup := { s.sup with longs := s.sup.longs.map mark } }
  let s := (trCores cores).foldl (fun s' i => forceStop i s') s
  s.sup.longs.foldl (fun s' e =>
    if haltMeets cores e.2 && e.2.done.isNone then longDoneAt e.1 0 1 (haltResult s' (haltCores e.2)) s' else s') s

def cmdTrHalt : CmdFun := fun h p s =>
  let cores := leAt p 0 1
  let mode := leAt p 1 1
  let tmo := leAt p 4 4
  let skip (l : LongCmd) : Bool := mode == 1 && haltMeets cores l
  checks (lenIs h p 8 ++
    [badIf (1 < mode ∨ (mode = 1 ∧ tmo ≠ 0)) 0x12, rsv p 2 2,
     ((trCores cores).any fun i => !trRuns s i, 0x21), (busyBut s 0x0A01 p skip, 0x20)])
    (let q := accept h 0x0A01 cores p none 0 s
     .accepted (if mode = 1 then haltCheck (haltForced cores q.1)
                else haltCheck (haltRequest cores q.2 (s.ts + 1000 * tmo) q.1)))

def cmdTrEvOwner : CmdFun := fun h p s =>
  let k := leAt p 0 1
  let c := leAt p 1 1
  checks (lenIs h p 4 ++ [badIf (15 < k ∨ (7 < c ∧ c ≠ 0xFF)) 0x12, rsv p 2 2, busy s 0x0A02 p])
    (.ok { s with evOwner := if c < 8 then tabSet s.evOwner k c else tabDel s.evOwner k } [])

def execTrBoot (h : Hdr) (p : List Byte) (s : State) : Host.Outcome State Fault Refusal :=
  done (cmdRow 0x0A00 (some 1) cmdTrBoot h p s)
def execTrHalt (h : Hdr) (p : List Byte) (s : State) : Host.Outcome State Fault Refusal :=
  done (cmdRow 0x0A01 (some 1) cmdTrHalt h p s)
def execTrEvOwner (h : Hdr) (p : List Byte) (s : State) : Host.Outcome State Fault Refusal :=
  done (cmdRow 0x0A02 (some 1) cmdTrEvOwner h p s)

end Sys2Proof.Machine
end

