-- ==== Sys2Proof/Machine/CmdPower.lean ====
section
/-! DEFINITION. The power commands (0x08xx, R755) and the transitions of the switchable domains (R273, R903 to R907). -/

namespace Sys2Proof.Machine

open Sys2Proof

/-- A domain starts a transition. -/
def domGo (d : Nat) (on : Bool) (s : State) : State := domPut d { on := (domOf s d).on, trans := some (on, s.ts) } s

/-! ## Bank groups (R273, R276) -/

/-- Where a group goes from its state on a command: 0 OFF, 1 RETAIN, 2 ON. -/
def groupNext (g : GroupState) (tgt : Nat) : GroupState :=
  match tgt, g with
  | 0, .off => .off
  | 0, _ => .toOff
  | 1, .on | 1, .toOn false | 1, .toRetain false => .toRetain false
  | 1, .retain => .retain
  | 1, _ => .toRetain true
  | _, .on => .on
  | _, .retain | _, .toRetain false | _, .toOn false => .toOn false
  | _, _ => .toOn true

def groupPower (g tgt : Nat) (s : State) : State :=
  let x := groupNext (groupOf s g) tgt
  if x == groupOf s g then s else domPut (68 + g) { on := false, trans := some (tgt != 0, s.ts) } (groupSet g x s)

/-- May the group not go to OFF (R276)? -/
def groupKept (s : State) (g : Nat) : Bool :=
  (s.handles.any fun e => e.2.valid && e.2.cls != .scratch) && !(natsFrom (16 * g) 16).all fun b => s.bankOut.contains b

/-- Does a spare bank serve a logical one? -/
def spareMapped (s : State) : Bool := s.bankMap.any fun e => decide (256 ≤ e.2)

def cmdDsGroupPower : CmdFun := fun h p s =>
  let m := leAt p 0 4
  let tgt := leAt p 4 1
  let aw := leAt p 5 1
  let gs := (natsFrom 0 17).filter (bitAt m)
  checks (lenIs h p 8 ++
    [badIf (2 ^ 17 ≤ m ∨ 2 < tgt ∨ 2 < aw) 0x12, rsv p 6 2,
     (s.limp.isSome && m != 0, 0x21), (tgt == 0 && gs.any (groupKept s), 0x21), (bitAt m 16 && spareMapped s, 0x21),
     busy s 0x0800 p])
    (let s := if aw = 2 then s else { s with autowake := aw == 1 }
     .ok (gs.foldl (fun s' g => groupPower g tgt s') s) [])

/-- The cells of a group are gone. (DESIGN CHOICE, log entry 8) -/
def groupErase (g : Nat) (s : State) : State :=
  { s with mem := s.mem.filter (fun e => decide (bankOf s e.1 / 16 ≠ g)),
           ecc := s.ecc.filter (fun e => decide (bankOf s e.1 / 16 ≠ g)) }

/-- The shortest time of a group's transition, in ns; the ways to RETAIN and OFF have only an upper limit. -/
def groupTime (g : GroupState) : Nat :=
  match g with
  | .toOn false => 4000
  | .toOn true | .toRetain true => 172000
  | _ => 0

/-- A group's transition is complete. -/
def groupArrive (g : Nat) (s : State) : State :=
  match groupOf s g with
  | .toOn fresh => groupSet g .on (if fresh then groupErase g s else s)
  | .toRetain fresh => groupSet g .retain (if fresh then groupErase g s else s)
  | .toOff => groupSet g .off (groupErase g s)
  | _ => s

/-! ## The other domains (R367, R905) -/

/-- A pixel core is up: its near store is 0 throughout; the logical core that waits for it is mapped. -/
def coreUp (p : Nat) (s : State) : State :=
  let k := tabGet {} s.cores p
  let mine (a : Nat) : Bool := decide (a / 2 ^ 20 = p)
  let s := { s with near := s.near.filter (fun e => !mine e.1), nearEcc := s.nearEcc.filter fun e => !mine e.1 }
  if k.state != .waking then s
  else match k.mapTo with
    | some c => if (physCore s c).isNone then schedTick (remapCore c p s)
                else coreMod p (fun x => { x with state := .idle, mapTo := none }) s
    | none => coreMod p (fun x => { x with state := .idle }) s

/-- A Trestle pair is up: cores that were OFF are in RESET; boot commands go on. -/
def pairUp (p : Nat) (s : State) : State :=
  let up (i : Nat) (s : State) : State :=
    if (hartOf s i).state == .off then hartPut i { state := .reset } s else s
  trBootCheck (up (2 * p) (up (2 * p + 1) s))

/-- A domain has arrived at ON. -/
def domUp (d : Nat) (s : State) : State :=
  let s := domPut d { on := true } s
  if d < 68 then coreUp d s
  else if d < 91 then (if (portOf s (d - 85)).en then discoveryStart (d - 85) s else s)
  else if d < 95 then pairUp (d - 91) s
  else toSearch s

/-- Transition time of a domain that is no bank group, in ns. -/
def domTime (d : Nat) (on : Bool) : Nat :=
  if !on then 1000 else if d < 68 then 25000 else if d < 91 then 150000 else if d < 95 then 40000 else 2000000

/-- POWER_DOMAIN_TRANSITION_DONE (R905): once the time of the transition has passed. -/
def domArrive (d : Nat) (s : State) : State :=
  let x := domOf s d
  match x.trans with
  | none => s
  | some (on, since) =>
    if 68 ≤ d ∧ d < 85 then
      let g := d - 68
      if s.ts < since + groupTime (groupOf s g) then s
      else
        let s := groupArrive g (domPut d {} s)
        if g < 16 then spareGroupFollow s else s
    else if s.ts < since + domTime d on then s
    else if on then domUp d s else domPut d {} s

def execPowerDomainTransitionDone (dom : Fin 96) (t : Nat) (s : State) : Host.Outcome State Fault Refusal :=
  done (schedTick (domArrive dom (timeTo t s)))

/-- DOMAIN_FAIL (R905): not ON within twice its time. (DEDUCED, log entry 66) -/
def domLate (d : Nat) (s : State) : State :=
  match (domOf s d).trans with
  | some (true, since) =>
    let time := if 68 ≤ d ∧ d < 85 then groupTime (groupOf s (d - 68)) else domTime d true
    if since + 2 * time < s.ts && decide (time ≠ 0) then regOr 0x8004 0x20 s else s
  | _ => s

def execDomainFail (dom : Fin 96) (t : Nat) (s : State) : Host.Outcome State Fault Refusal :=
  done (domLate dom (timeTo t s))

/-! ## CORE_POWER, PORT_POWER, TRESTLE_POWER, XK_POWER -/

def corePower (k : Nat) (on : Bool) (s : State) : State :=
  let x := tabGet {} s.cores k
  if on then startWake k s
  else if x.state == .off then s
  else
    let s := coreOff k s
    if x.mapTo.isSome then regOr 0x570 0x20 s else s

def cmdCorePower : CmdFun := fun h p s =>
  let k := leAt p 0 1
  let x := coreState s k
  checks (lenIs h p 4 ++
    [badIf (67 < k ∨ 1 < leAt p 1 1) 0x12, rsv p 2 2, (x == .mapped || x == .pending || x == .quarantined, 0x21),
     busy s 0x0801 p])
    (.ok (corePower k (leAt p 1 1 == 1) s) [])

/-- A domain is commanded ON or OFF; in that state, or on the way to it, nothing happens. -/
def domPower (d : Nat) (on : Bool) (s : State) : State :=
  let x := domOf s d
  let going := match x.trans with | some (b, _) => b | none => x.on
  if going == on then s else domGo d on (domPut d { on := false } s)

/-- A port's domain leaves ON: reception ends (R210); its link is DISABLED (R149). -/
def portDown (n : Nat) (s : State) : State :=
  let s := controlFault n (endPort n s)
  linkTo n .disabled (portMod n (fun p => { p with conns := [], speed := 0 }) s)

def cmdPortPower : CmdFun := fun h p s =>
  let n := leAt p 0 1
  let on := leAt p 1 1 == 1
  checks (lenIs h p 4 ++ [badIf (5 < n ∨ 1 < leAt p 1 1) 0x12, rsv p 2 2, busy s 0x0802 p])
    (let was := domOn s (85 + n)
     let s := domPower (85 + n) on s
     .ok (if was && !on then portDown n s else s) [])

def cmdTrestlePower : CmdFun := fun h p s =>
  let n := leAt p 0 1
  let on := leAt p 1 1 == 1
  checks (lenIs h p 4 ++
    [badIf (3 < n ∨ 1 < leAt p 1 1) 0x12, rsv p 2 2,
     (!on && !(trBootable s (2 * n) && trBootable s (2 * n + 1)), 0x21), busy s 0x0803 p])
    (if on then .ok (pairOn n s) []
     else .ok (domPower (91 + n) false (hartPut (2 * n) {} (hartPut (2 * n + 1) {} s))) [])

/-- The Xanik domain leaves ON (R764): nothing is received or sent. -/
def xkDown (s : State) : State :=
  xkMod (fun x => { x with rx := .off, hdr := none, frozen := false, stamp := none, qualAt := none, txQueue := [] }) s

def cmdXkPower : CmdFun := fun h p s =>
  let on := leAt p 0 1 == 1
  checks (lenIs h p 4 ++ [badIf (1 < leAt p 0 1) 0x12, rsv p 1 3, (xkJoined s, 0x21), busy s 0x0804 p])
    (let s := domPower 95 on s
     .ok (if on then s else xkDown s) [])

/-! ## POCXP_SET, THERMAL_SET, POWER_STATUS -/

def cmdPocxpSet : CmdFun := fun h p s =>
  let n := leAt p 0 1
  let m := leAt p 1 1
  let v := leAt p 2 1
  checks (lenIs h p 4 ++ [badIf (5 < n ∨ 15 < m ∨ 15 < v) 0x12, rsv p 3 1, busy s 0x0805 p])
    (.ok (portMod n (fun q => { q with pwrEn := (q.pwrEn &&& (15 - m)) ||| (v &&& m) }) s) [])

/-- Maximum junction temperature of the grade, °C. -/
def gradeMax : Int := if Config.commercial then 95 else 105

def cmdThermalSet : CmdFun := fun h p s =>
  let w := sgn 8 (leAt p 0 1)
  let t := sgn 8 (leAt p 1 1)
  checks (lenIs h p 4 ++ [badIf (t < w ∨ gradeMax < t) 0x12, rsv p 2 2, busy s 0x0806 p])
    (.ok (regSet 0x8010 (w32 (leAt p 0 1 + 256 * leAt p 1 1)) s) [])

def powerBytes (s : State) : List Byte :=
  leBytes 2 (regBits s 0x800C 0 16) ++ leBytes 2 (regBits s 0x8014 16 10) ++ leBytes 4 (regGet s 0x8018).toNat ++
    [b8 (regBits s 0x8000 0 3), 0, 0, 0]

def cmdPowerStatus : CmdFun := fun h p s => checks (lenIs h p 0 ++ [busy s 0x0807 p]) (.ok s (powerBytes s))

def execDsGroupPower (h : Hdr) (p : List Byte) (s : State) : Host.Outcome State Fault Refusal :=
  done (cmdRow 0x0800 (some 6) cmdDsGroupPower h p s)
def execCorePower (h : Hdr) (p : List Byte) (s : State) : Host.Outcome State Fault Refusal :=
  done (cmdRow 0x0801 (some 6) cmdCorePower h p s)
def execPortPower (h : Hdr) (p : List Byte) (s : State) : Host.Outcome State Fault Refusal :=
  done (cmdRow 0x0802 (some 6) cmdPortPower h p s)
def execTrestlePower (h : Hdr) (p : List Byte) (s : State) : Host.Outcome State Fault Refusal :=
  done (cmdRow 0x0803 (some 6) cmdTrestlePower h p s)
def execXkPower (h : Hdr) (p : List Byte) (s : State) : Host.Outcome State Fault Refusal :=
  done (cmdRow 0x0804 (some 6) cmdXkPower h p s)
def execPocxpSet (h : Hdr) (p : List Byte) (s : State) : Host.Outcome State Fault Refusal :=
  done (cmdRow 0x0805 (some 6) cmdPocxpSet h p s)
def execThermalSet (h : Hdr) (p : List Byte) (s : State) : Host.Outcome State Fault Refusal :=
  done (cmdRow 0x0806 (some 6) cmdThermalSet h p s)
def execPowerStatus (h : Hdr) (p : List Byte) (s : State) : Host.Outcome State Fault Refusal :=
  done (cmdRow 0x0807 none cmdPowerStatus h p s)

end Sys2Proof.Machine
end

