-- ==== Sys2Proof/Machine/Power.lean ====
section
/-! DEFINITION. The power and thermal monitor (R909 to R916), brown-out warnings (R924 to R927), the PCIe link and the
host quarantine (R885 to R894, R919). -/

namespace Sys2Proof.Machine

open Sys2Proof

def pwrMod (f : Power → Power) (s : State) : State := { s with pwr := f s.pwr }

/-- A reset of power-on or system scope is held: by a pin, or by a thermal trip (R918, R922). -/
def inReset (s : State) : Bool := s.pwr.por || s.pwr.sysRst || s.pwr.tripHold

/-- Tj in whole °C, as DETAIL of a THERMAL entry holds it: the rounding of a fraction is open.
(DESIGN CHOICE, log entry 23; DEDUCED, log entry 66) -/
def tjDegrees (s : State) : Nat :=
  let q := s.pwr.tj / 10
  unsgn 16 (if s.pwr.tj % 10 = 0 then q else if Config.roundsUp s.pwr.tj 10 then q + 1 else q)

/-- A THERMAL entry (R872). (DEDUCED, log entry 66) -/
def thermalLog (code detail : Nat) (s : State) : State := logPut { source := 0x48, cls := 7, code := code, detail := detail } s

/-- WARN_TJ and THROTTLE_TJ in 0.1 °C. -/
def warnTj (s : State) : Int := 10 * sgn 8 (regBits s 0x8010 0 8)
def throttleTj (s : State) : Int := 10 * sgn 8 (regBits s 0x8010 8 8)

/-- The registers of a new Tj, and the warning (R914). -/
def tjUpdate (tj : Int) (s : State) : State :=
  let m := match s.pwr.tjMax with | some x => max x tj | none => tj
  let s := pwrMod (fun p => { p with tj := tj, tjMax := some m }) s
  let s := regSet 0x800C (w32 (unsgn 16 tj + atBit (unsgn 16 m) 16)) s
  let hot := decide (warnTj s ≤ tj)
  let s := regField 0x8000 4 1 (b2n hot) s
  if hot && s.pwr.warnArmed then
    thermalLog 0x60 (tjDegrees s) (regOr 0x8004 1 (pwrMod (fun p => { p with warnArmed := false }) s))
  else if tj ≤ warnTj s - 50 then pwrMod (fun p => { p with warnArmed := true }) s
  else s

/-- THROTTLE_STEP (R915, R916): every 10 ms. -/
def throttleStep (t : Nat) (s : State) : State :=
  let s := timeTo t s
  if inReset s || decide (t < s.pwr.lastThrottle + 10000000) then s
  else
    let s := pwrMod (fun p => { p with lastThrottle := t }) s
    let n := regBits s 0x8000 0 3
    if throttleTj s ≤ s.pwr.tj then
      (if 4 ≤ n then s
       else
         let s := regField 0x8000 0 3 (n + 1) s
         if n = 0 then thermalLog 0x61 (tjDegrees s) (regOr 0x8004 2 s) else s)
    else if s.pwr.tj < throttleTj s - 50 && decide (0 < n) then
      let s := regField 0x8000 0 3 (n - 1) s
      if n = 1 then thermalLog 0x62 (tjDegrees s) (regOr 0x8004 4 s) else s
    else s

def execThrottleStep (t : Nat) (s : State) : Host.Outcome State Fault Refusal := done (throttleStep t s)

/-- POWER_ESTIMATE (R909). -/
def powerEstimate (mw : Word) (t : Nat) (s : State) : State :=
  let s := timeTo t s
  if inReset s then s else regSet 0x8018 mw s

def execPowerEstimate (mw : Word) (t : Nat) (s : State) : Host.Outcome State Fault Refusal := done (powerEstimate mw t s)

/-- VID_STEP (R910, R911): at most one step per 100 µs, within codes 0 to 20. -/
def vidStep (up : Bool) (t : Nat) (s : State) : State :=
  let s := timeTo t s
  let n := regBits s 0x8014 0 5
  if inReset s || decide (t < s.pwr.lastVid + 100000) || (up && decide (20 ≤ n)) || (!up && decide (n = 0)) then s
  else
    let n := if up then n + 1 else n - 1
    regSet 0x8014 (w32 (n + atBit (650 + 10 * n) 16)) (pwrMod (fun p => { p with lastVid := t }) s)

def execVidStep (up : Bool) (t : Nat) (s : State) : Host.Outcome State Fault Refusal := done (vidStep up t s)

/-! ## Brown-out warnings (R926) -/

def bodWarn (rail t : Nat) (s : State) : State :=
  let s := timeTo t s
  if inReset s || bitAt (regGet s 0x801C).toNat rail then s
  else
    let s := regOr 0x8004 8 (regOr 0x801C (2 ^ rail) s)
    thermalLog 0x63 rail (if rail < 4 then regOr 0x8000 (2 ^ (8 + rail)) s else s)

/-- The warning ends; flash steps that waited go on when their commands complete (R927). -/
def bodWarnEnd (rail t : Nat) (s : State) : State :=
  let s := timeTo t s
  let s := regClr 0x801C (2 ^ rail) s
  if rail < 4 then regClr 0x8000 (2 ^ (8 + rail)) s else s

def execBodWarn (rail : Fin 8) (t : Nat) (s : State) : Host.Outcome State Fault Refusal := done (bodWarn rail.val t s)
def execBodWarnEnd (rail : Fin 8) (t : Nat) (s : State) : Host.Outcome State Fault Refusal := done (bodWarnEnd rail.val t s)

/-! ## The PCIe endpoint (R894, R919, R936) -/

/-- The link leaves L0, or the endpoint is reset: its MSI-X state goes; the host is quarantined when it could send. -/
def linkLost (s : State) : State :=
  let up := s.pwr.linkUp
  let s := { s with msix := [], pba := 0, funcMask := false }
  let s := pwrMod (fun p => { p with linkUp := false, busMaster := false, maxPayload := 128, maxRead := 512,
                                     linkRate := 0, linkLanes := 0, d3hot := false, aspmL1 := false }) s
  if up then schedTick (revokeTag 0x18 s) else s

def linkDown (t : Nat) (s : State) : State := linkLost (timeTo t s)

def execPcieLinkDown (t : Nat) (s : State) : Host.Outcome State Fault Refusal := done (linkDown t s)

end Sys2Proof.Machine
end

