-- ==== Sys2Proof/Machine/CmdFw.lean ====
section
/-! DEFINITION. The firmware and configuration commands (0x09xx, R756 to R758). -/

namespace Sys2Proof.Machine

open Sys2Proof

/-- LEN of a configuration item and how many INDEX values it has (R757). -/
def cfgItem (item : Nat) : Option (Nat × Nat) :=
  match item with
  | 1 => some (1, 8)
  | 2 => some (1, 1)
  | 3 => some (4, 1)
  | 4 => some (1, 1)
  | 5 => some (32, 4)
  | 6 => some (1, 1)
  | _ => none

/-- Is there such an item and index? -/
def cfgNamed (item index : Nat) : Bool := match cfgItem item with | some x => decide (index < x.2) | none => false

/-- The value of an item that no entry of the store gives (R948). -/
def cfgDefault (item index : Nat) : List Byte :=
  match item with
  | 1 => [if index = 0 ∨ index = 6 then 0xFF else if index = 7 then 0x10 else 0x1F]
  | 2 => [0x5A]
  | 3 => leBytes 4 115200
  | 5 => List.replicate 32 0
  | _ => [0]

/-- Baud rates of R713. -/
def uartRate (n : Nat) : Bool :=
  n == 115200 || n == 230400 || n == 460800 || n == 921600 || n == 1000000 || n == 2000000 || n == 3000000

/-- Is VALUE in the item's range? -/
def cfgValueOk (item : Nat) (v : List Byte) : Bool :=
  let n := ofLe v
  match item with
  | 2 => decide (8 ≤ n) && decide (n ≤ 0x77)
  | 3 => uartRate n
  | 4 | 6 => decide (n ≤ 1)
  | _ => true

/-- An item as CFG_GET shows it; one that is not staged has no staged value. -/
def cfgShown (s : State) (item index : Nat) (staged : Bool) : List Byte :=
  let k := item * 256 + index
  if staged then tabGet [] s.sup.cfgStaged k else (tabGet? s.sup.cfg k).getD (cfgDefault item index)

def cmdCfgGet : CmdFun := fun h p s =>
  let item := leAt p 0 1
  let index := leAt p 1 1
  checks (lenIs h p 4 ++ [(!cfgNamed item index, 0x12), badIf (1 < leAt p 2 1) 0x12, rsv p 3 1, busy s 0x0900 p])
    (let v := cfgShown s item index (leAt p 2 1 == 1)
     .ok s ([b8 v.length, 0, 0, 0] ++ v))

def cmdCfgSet : CmdFun := fun h p s =>
  let item := leAt p 0 1
  let index := leAt p 1 1
  let n := leAt p 2 1
  let v := p.drop 4
  let len := match cfgItem item with | some x => x.1 | none => 0
  checks ([badIf (p.length ≠ 4 + n) 0x11, badIf (1 < h.flags.toNat) 0x12, (!cfgNamed item index, 0x12), badIf (n ≠ len) 0x12,
     rsv p 3 1, (!cfgValueOk item v, 0x12), busy s 0x0901 p])
    (.ok { s with sup := { s.sup with cfgStaged := tabSet s.sup.cfgStaged (item * 256 + index) v } } [])

/-- The copy is written when the command completes. (DEDUCED, log entry 47) -/
def cmdCfgCommit : CmdFun := fun h p s =>
  checks (lenIs h p 0 ++ [(s.sup.cfgStaged.isEmpty, 0x21), busy s 0x0902 p, (storeBusy s, 0x20)])
    (.accepted (accept h 0x0902 0 p none 0 s).1)

def cmdCfgDiscard : CmdFun := fun h p s =>
  checks (lenIs h p 0 ++ [busy s 0x0903 p]) (.ok { s with sup := { s.sup with cfgStaged := [] } } [])

/-- The image is checked and written when the command completes. (DESIGN CHOICE, log entry 52) -/
def cmdFwStage : CmdFun := fun h p s =>
  let hv := leAt p 0 2
  checks (lenIs h p 12 ++ [rsv p 2 2, (!rangeIn s hv (leAt p 4 4) (leAt p 8 4), 0x12), busy s 0x0904 p])
    (.accepted (accept h 0x0904 (hv % 256) p none 0 s).1)

/-- The hand-over starts: command service pauses (R686). -/
def cmdFwHandover : CmdFun := fun h p s =>
  checks (lenIs h p 0 ++ [(s.sup.staged.isNone || !bitAt (regGet s 0x20).toNat 3, 0x21), busy s 0x0905 p])
    (let q := accept h 0x0905 0 p none 0 s
     .accepted { q.1 with sup := { q.1.sup with handover := some q.2 } })

def execCfgGet (h : Hdr) (p : List Byte) (s : State) : Host.Outcome State Fault Refusal :=
  done (cmdRow 0x0900 none cmdCfgGet h p s)
def execCfgSet (h : Hdr) (p : List Byte) (s : State) : Host.Outcome State Fault Refusal :=
  done (cmdRow 0x0901 (some 7) cmdCfgSet h p s)
def execCfgCommit (h : Hdr) (p : List Byte) (s : State) : Host.Outcome State Fault Refusal :=
  done (cmdRow 0x0902 (some 7) cmdCfgCommit h p s)
def execCfgDiscard (h : Hdr) (p : List Byte) (s : State) : Host.Outcome State Fault Refusal :=
  done (cmdRow 0x0903 (some 7) cmdCfgDiscard h p s)
def execFwStage (h : Hdr) (p : List Byte) (s : State) : Host.Outcome State Fault Refusal :=
  done (cmdRow 0x0904 (some 7) cmdFwStage h p s)
def execFwHandover (h : Hdr) (p : List Byte) (s : State) : Host.Outcome State Fault Refusal :=
  done (cmdRow 0x0905 (some 7) cmdFwHandover h p s)

end Sys2Proof.Machine
end

