-- ==== Sys2Proof/Machine/CmdLine.lean ====
section
/-! DEFINITION. The line-time commands (0x05xx, R745 to R749). -/

namespace Sys2Proof.Machine

open Sys2Proof

/-! ## LT_SET (R70, R71, R746) -/

/-- Is INDEX in range: an encoder, an output, or 0? -/
def ltIndexOk (id i : Nat) : Bool :=
  if id = 0x20 then decide (i < 16)
  else if (1 ≤ id ∧ id ≤ 5) ∨ id = 9 then decide (i < 4) else i == 0

/-- Is VALUE in the range of R70? What depends on other settings is checked apart. (DEDUCED, log entry 24) -/
def ltValueOk (id v : Nat) : Bool :=
  let within (lo hi : Nat) : Bool := decide (lo ≤ v) && decide (v ≤ hi)
  match id with
  | 0x01 | 0x03 | 0x20 => within 0 1
  | 0x02 => v == 1 || v == 2 || v == 4
  | 0x04 => within 0 255
  | 0x05 => within 1 0xFFFFFFFF
  | 0x06 => within 0 3
  | 0x07 => within 0 3 || v == 0xFF
  | 0x08 => within 1 65535
  | 0x09 => within 1 40
  | 0x0A => within 0 (2 ^ 24)
  | 0x0B => v == 1 || v == 2 || v == 4 || v == 8 || v == 16 || v == 32 || v == 64
  | 0x0C => within 1 65535
  | 0x0D => within 1 1000
  | 0x0E => within 0 65535
  | 0x10 => within 1 (2 ^ 32 - 1)
  | 0x11 => within 0 (2 ^ 40 - 1)
  | 0x18 => within 0 3
  | 0x19 => within 0 255
  | 0x1A => within 0 65535
  | 0x1B => within 1 25
  | _ => false

/-- Does an enabled entry drive a strobe output? -/
def strobeUsed (s : State) (out : Nat) : Bool :=
  s.cal.any fun e => e.2.f.mode != .off && (match e.2.f.action with | .strobe o _ => decide (o = out) | _ => false)

/-- The "Change allowed" column of R70, for an entry of LT_SET that names the setting, whatever value it gives (R71;
DESIGN CHOICE, log entry 24). -/
def ltAllowed (s : State) (id i : Nat) : Bool :=
  if id = 0x01 ∨ id = 0x02 ∨ id = 0x03 ∨ id = 0x05 ∨ id = 0x06 then stopped s
  else if id = 0x20 then !strobeUsed s i else true

def edgeOf (v : Nat) : MainsEdge := if v = 0 then .off else if v = 1 then .rising else if v = 2 then .falling else .both

/-- A setting takes effect, REPEAT_PHASE apart. (DEDUCED, log entry 24) -/
def ltApply (id i v : Nat) (s : State) : State :=
  match id with
  | 0x01 => encMod i (fun e => { e with en := v == 1 }) s
  | 0x02 => encMod i (fun e => { e with decode := v }) s
  | 0x03 => encMod i (fun e => { e with inv := v == 1 }) s
  | 0x04 => encMod i (fun e => { e with filt := v }) s
  | 0x05 => ltMod (fun l => { l with hold := if i = s.lt.master then some (posNow s) else l.hold })
      (encMod i (fun e => { e with scale := v }) s)
  | 0x06 => ltMod (fun l => { l with failover := false }) (if v = s.lt.master then s else masterTo v s)
  | 0x07 => ltMod (fun l => { l with backup := if v = 0xFF then none else some v }) s
  | 0x08 => ltMod (fun l => { l with checkTol := v }) s
  | 0x09 => encMod i (fun e => { e with maxStep := v }) s
  | 0x0A => ltMod (fun l => { l with countsPerZ := v }) s
  | 0x0B => speedJudge (slowFrom s) (ltMod (fun l => { l with velWin := v, hold := some (posNow s) }) s)
  | 0x0C => speedJudge (slowFrom s) (ltMod (fun l => { l with stopSpeed := v }) s)
  | 0x0D => ltMod (fun l => { l with stopHold := v }) s
  | 0x0E => ltMod (fun l => { l with revTol := v }) s
  | 0x10 => ltMod (fun l => { l with repeatLen := v }) s
  | 0x18 => ltMod (fun l => { l with mainsEdge := edgeOf v }) s
  | 0x19 => ltMod (fun l => { l with mainsFilt := v }) s
  | 0x1A => ltMod (fun l => { l with mainsOffset := v }) s
  | 0x1B => ltMod (fun l => { l with mainsWin := v }) s
  | 0x20 => ltMod (fun l => { l with stbPol := l.stbPol - atBit (l.stbPol / 2 ^ i % 2) i + atBit v i }) s
  | _ => s

/-- The pending boundary moves by Δ in 48.8; at or below LX it occurs at once (R111), but while behind only once LX is no
longer behind (R103). (DEDUCED, log entry 24) -/
def moveBoundary (d : Int) (s : State) : State :=
  let s := ltMod (fun l => { l with boundary := ((l.boundary : Int) + d).toNat }) s
  if !s.lt.behind && decide (s.lt.boundary ≤ lxNow s) then boundaryOccurs s else s

/-- Δ of a change of REPEAT_PHASE: the value nearest zero, in (−LEN/2, LEN/2] (R111). -/
def phaseDelta (len p p' : Nat) : Int :=
  let d := ((p' : Int) - p) % (len : Int)
  if (len : Int) < 2 * d then d - len else d

def phaseSet (p' : Nat) (s : State) : State :=
  let d := phaseDelta (256 * s.lt.repeatLen) s.lt.repeatPhase p'
  moveBoundary d (ltMod (fun l => { l with repeatPhase := p' }) s)

/-- The value a request gives a setting, or its present value. -/
def ltAfter (es : List (Nat × Nat × Nat)) (id i now : Nat) : Nat :=
  ((es.find? fun e => e.1 == id && e.2.1 == i).map (·.2.2)).getD now

/-- Is the encoder enabled once the request's entries hold? -/
def ltEncAfter (s : State) (es : List (Nat × Nat × Nat)) (n : Nat) : Bool :=
  decide (n < 4) && ltAfter es 0x01 n (b2n (encOf s n).en) != 0

/-- Do the settings that would hold after the request break a range that depends on several of them: REPEAT_PHASE below
REPEAT_LEN, MASTER an enabled encoder, BACKUP none or another enabled encoder (R1010)? -/
def ltCross (s : State) (es : List (Nat × Nat × Nat)) : Bool :=
  let master := ltAfter es 0x06 0 s.lt.master
  let backup := ltAfter es 0x07 0 (s.lt.backup.getD 0xFF)
  decide (256 * ltAfter es 0x10 0 s.lt.repeatLen ≤ ltAfter es 0x11 0 s.lt.repeatPhase) ||
    !ltEncAfter s es master || (backup != 0xFF && (backup == master || !ltEncAfter s es backup))

/-- All entries in one LT cycle (R732): REPEAT_PHASE after REPEAT_LEN. -/
def ltSetAll (es : List (Nat × Nat × Nat)) (s : State) : State :=
  let s := es.foldl (fun s' e => ltApply e.1 e.2.1 e.2.2 s') s
  match es.find? fun e => e.1 == 0x11 with
  | some e => phaseSet e.2.2 s
  | none => s

def cmdLtSet : CmdFun := fun h p s =>
  let es := settings p
  checks (settingsLen h p ++
    [(settingsTwice es, 0x12), (es.any fun e => !(ltIndexOk e.1 e.2.1 && ltValueOk e.1 e.2.2), 0x12), (ltCross s es, 0x12),
     (es.any fun e => !ltAllowed s e.1 e.2.1, 0x21), busy s 0x0500 p])
    (.ok (ltSetAll es s) [])

/-! ## Calendar entries (R122, R747, R748) -/

def calModeOf (n : Nat) : CalMode := if n = 0 then .off else if n = 1 then .once else if n = 2 then .periodic else .repeat
def calClockOf (n : Nat) : CalClock := if n = 0 then .lx else if n = 1 then .ts else .hybrid
def calGateOf (n : Nat) : CalGate := if n = 0 then .none else if n = 1 then .skip else .defer

/-- ACTION and ARG: none where a bit is out of place (R748). -/
def calActionOf (action a : Nat) : Option CalAction :=
  match action with
  | 0 =>
    let w := a / 2 ^ 16
    let e := bitsOf a 4 2
    if bitsOf a 6 10 ≠ 0 ∨ e = 3 ∨ (e = 2 ∧ w < 8) ∨ (e ≠ 2 ∧ w ≠ 0) then none
    else some (.strobe (a % 16) (if e = 0 then .set else if e = 1 then .clear else .pulse w))
  | 1 => if 64 ≤ a ∨ 5 < a % 8 then none else some (.trigger (a % 8) (bitsOf a 3 2) (!bitAt a 5))
  | 2 => if 16 ≤ a then none else some (.release a)
  | 3 => if 32 ≤ a then none else some (.dmaReq a)
  | 4 => if 32 ≤ a then none else some (.irq a)
  | 5 => if a < 32 ∨ 95 < a then none else some (.event a)
  | _ => none

/-- A value where a field is used: in range; where it is not: 0 (R726). -/
def usedOk (used : Bool) (v lo hi : Nat) : Bool := if used then decide (lo ≤ v) && decide (v ≤ hi) else v == 0

/-- The fields of 48 bytes: none for an entry to be refused. An entry with MODE OFF is exempt but for its reserved
bytes. -/
def calDecode (d : List Byte) : Option CalFields :=
  let b (i n : Nat) : Nat := leAt d i n
  let mode := b 0 1
  let clock := b 1 1
  let gate := b 3 1
  let ts := clock == 1
  let per := mode == 2
  if b 0x2B 5 ≠ 0 ∨ 3 < mode then none
  else if mode = 0 then some {}
  else
    let okTs := usedOk (clock == 2 || (ts && per)) (b 0x20 4) 0 (2 ^ 32 - 1) && !(0 < b 0x20 4 && b 0x20 4 < 1000)
    let ok := decide (clock ≤ 2) && decide (gate ≤ 2) && !(mode == 3 && ts) &&
      usedOk (!ts) (b 8 8) 0 (if mode = 3 then 2 ^ 40 - 1 else 2 ^ 56 - 1) &&
      usedOk (per && !ts) (b 0x10 4) 256 (2 ^ 32 - 1) && usedOk per (b 0x14 4) 0 (2 ^ 32 - 1) &&
      usedOk ts (b 0x18 8) 0 (2 ^ 64 - 1) && okTs &&
      usedOk (gate != 0) (b 0x24 2) 0 65535 && usedOk (gate != 0) (b 0x26 2) 0 65535 &&
      usedOk (gate == 2) (b 0x28 2) 1 65535 && usedOk (gate != 0) (b 0x2A 1) 0 1
    if !ok then none
    else (calActionOf (b 2 1) (b 4 4)).map fun a =>
      { mode := calModeOf mode, clock := calClockOf clock, target := b 8 8, period := b 0x10 4, count := b 0x14 4,
        tsTarget := b 0x18 8, tsPeriod := b 0x20 4, action := a, gate := calGateOf gate, gateStart := b 0x24 2,
        gateEnd := b 0x26 2, maxDefer := b 0x28 2, fireUnlocked := b 0x2A 1 == 1 }

/-- The entries of a CAL_WRITE, as bytes. -/
def calEntries (p : List Byte) : List (List Byte) :=
  (natsFrom 0 (leAt p 2 1)).map fun i => (p.drop (8 + 48 * i)).take 48

/-- Write one entry. -/
def calWriteOne (n : Nat) (d : List Byte) (s : State) : State :=
  let s := calArm n ((calDecode d).getD {}) s
  calPut n { calOf s n with raw := d } s

/-- Write entries from `n` on; bit i of LATE. -/
def calWriteAll : Nat → Nat → List (List Byte) → State × Nat → State × Nat
  | _, _, [], q => q
  | n, i, d :: t, (s, late) =>
    calWriteAll (n + 1) (i + 1) t
      (calWriteOne n d s, late + atBit (b2n (calLate s ((calDecode d).getD {}))) i)

def cmdCalWrite : CmdFun := fun h p s =>
  let first := leAt p 0 2
  let n := leAt p 2 1
  checks ([badIf (p.length ≠ 8 + 48 * n) 0x11, badIf (1 < h.flags.toNat) 0x12, badIf (n = 0 ∨ 5 < n ∨ 2048 < first + n) 0x12,
     rsv p 3 5, ((calEntries p).any fun d => (calDecode d).isNone, 0x12), busy s 0x0501 p])
    (let q := calWriteAll first 0 (calEntries p) (s, 0)
     .ok q.1 [b8 q.2])

/-- The LX target of the next occurrence that LX times. -/
def calNextLx (s : State) (e : CalEntry) : Option Nat :=
  match e.committed with
  | some o => some o.target
  | none =>
    let off := e.f.mode == .off || e.f.clock == .ts || (e.f.clock == .hybrid && stopped s && e.tsOn)
    if off then none
    else
      let e := if e.f.clock == .hybrid && stopped s then lxStart s e else e
      match e.nextLx with
      | some g => some g
      | none => if e.f.mode == .repeat && decide (e.f.target < 256 * s.lt.repeatLen) then some (s.lt.boundary + e.f.target)
                else none

/-- The TS of the next occurrence that TS times. -/
def calNextTs (s : State) (e : CalEntry) : Option Nat :=
  if e.committed.isNone && e.tsOn && e.f.mode != .off && (e.f.clock == .ts || (e.f.clock == .hybrid && stopped s)) then
    some (tsPoint s e e.tsIdx)
  else none

def cmdCalRead : CmdFun := fun h p s =>
  let e := calOf s (leAt p 0 2)
  let ones := 2 ^ 64 - 1
  checks (lenIs h p 4 ++ [badIf (2047 < leAt p 0 2) 0x12, rsv p 2 2, busy s 0x0502 p])
    (.ok s ((if e.raw.isEmpty then List.replicate 48 0 else e.raw) ++ leBytes 8 ((calNextLx s e).getD ones) ++
      leBytes 8 ((calNextTs s e).getD ones)))

/-- Disable an entry: MODE becomes OFF, the other fields stay. -/
def calDisable (n : Nat) (s : State) : State :=
  let e := calOf s n
  let s := calArm n { e.f with mode := .off } s
  calPut n { calOf s n with raw := if e.raw.isEmpty then [] else 0 :: e.raw.drop 1 } s

def cmdCalDisable : CmdFun := fun h p s =>
  let first := leAt p 0 2
  let n := leAt p 2 2
  checks (lenIs h p 4 ++ [badIf (n = 0 ∨ 2048 < first + n) 0x12, busy s 0x0503 p])
    (.ok ((natsFrom first n).foldl (fun s' i => calDisable i s') s) [])

/-! ## PHASE_ADJUST (R111, R749) -/

def phaseAdjust (d : Int) (s : State) : State :=
  let len : Int := 256 * s.lt.repeatLen
  moveBoundary d (ltMod (fun l => { l with repeatPhase := (((l.repeatPhase : Int) + d) % len).toNat }) s)

def cmdPhaseAdjust : CmdFun := fun h p s =>
  let d := sgn 64 (leAt p 0 8)
  checks (lenIs h p 8 ++ [badIf (256 * s.lt.repeatLen ≤ d.natAbs) 0x12, busy s 0x0504 p])
    (let s := phaseAdjust d s
     .ok s (leBytes 8 s.lt.boundary))

def execLtSet (h : Hdr) (p : List Byte) (s : State) : Host.Outcome State Fault Refusal :=
  done (cmdRow 0x0500 (some 3) cmdLtSet h p s)
def execCalWrite (h : Hdr) (p : List Byte) (s : State) : Host.Outcome State Fault Refusal :=
  done (cmdRow 0x0501 (some 3) cmdCalWrite h p s)
def execCalRead (h : Hdr) (p : List Byte) (s : State) : Host.Outcome State Fault Refusal :=
  done (cmdRow 0x0502 none cmdCalRead h p s)
def execCalDisable (h : Hdr) (p : List Byte) (s : State) : Host.Outcome State Fault Refusal :=
  done (cmdRow 0x0503 (some 3) cmdCalDisable h p s)
def execPhaseAdjust (h : Hdr) (p : List Byte) (s : State) : Host.Outcome State Fault Refusal :=
  done (cmdRow 0x0504 (some 3) cmdPhaseAdjust h p s)

end Sys2Proof.Machine
end

