-- ==== Sys2Proof/Machine/CmdMem.lean ====
section
/-! DEFINITION. The memory, ring, cache and regulator commands (0x04xx, R744), and relocations (R246 to R248). -/

namespace Sys2Proof.Machine

open Sys2Proof

/-! ## Handles -/

/-- A stale or null handle. -/
def staleHandle (s : State) (hv : Nat) : Bool × Nat := (!handleOk s hv, 0x12)

def classOf (n : Nat) : HandleClass := if n = 0 then .scratch else if n = 1 then .hamper else .fixed
def classNo (c : HandleClass) : Nat := match c with | .scratch => 0 | .hamper => 1 | .fixed => 2

def cmdHandleAlloc : CmdFun := fun h p s =>
  let units := leAt p 0 4
  let owner := leAt p 4 4
  let rights := leAt p 8 1
  checks (lenIs h p 12 ++
    [badIf (units = 0 ∨ 262144 < units ∨ 2 ^ 29 ≤ owner ∨ 15 < rights ∨ 2 < leAt p 9 1 ∨ 1 < leAt p 10 1) 0x12,
     rsv p 11 1, busy s 0x0400 p])
    (match allocate units rights owner (classOf (leAt p 9 1)) (leAt p 10 1 == 1) s with
     | none => .stop 0x30 []
     | some (s', i) => .ok s' (leBytes 2 (handleVal s' i) ++ [0, 0] ++ leBytes 4 (handleOf s' i).base))

/-- Is a buffer named by a loaded image, a ring declaration, a running stream or a bound arrival counter (R238)? -/
def handleNamed (s : State) (i : Nat) : Bool :=
  (s.models.any fun e => e.2.handles.any fun x => decide (x.2 % 256 = i)) || (ringOfHandle s i).isSome ||
    (s.streams.any fun e => e.2.state != .stopped && e.2.fifoIdx == some i) ||
    s.arrivals.any fun e => decide (e.2.idx = i)

def cmdHandleFree : CmdFun := fun h p s =>
  let hv := leAt p 0 2
  let i := hv % 256
  checks (lenIs h p 4 ++
    [rsv p 2 2, staleHandle s hv, ((handleOf s i).lock.isSome || handleNamed s i, 0x21), busy s 0x0401 p])
    (.ok (freeHandle i s) [])

def handleBytes (x : Handle) : List Byte :=
  if x.valid then
    [1, b8 x.gen, b8 (classNo x.cls), b8 (b2n x.ring), b8 x.rights, b8 (x.lock.getD 0xFF), 0, 0] ++
      leBytes 4 x.base ++ leBytes 4 x.units ++ leBytes 4 x.owner
  else [0, b8 x.gen, 0, 0, 0, 0xFF, 0, 0] ++ leBytes 12 0

def cmdHandleQuery : CmdFun := fun h p s =>
  checks (lenIs h p 4 ++ [rsv p 1 3, busy s 0x0402 p]) (.ok s (handleBytes (handleOf s (leAt p 0 1))))

def cmdHandleLock : CmdFun := fun h p s =>
  let hv := leAt p 0 2
  let i := hv % 256
  let op := leAt p 2 1
  let tag := leAt p 3 1
  let lock := (handleOf s i).lock
  checks (lenIs h p 4 ++
    [badIf (1 < op ∨ 0x1C < tag) 0x12, staleHandle s hv,
     (if op = 0 then lock.isSome && lock != some tag else lock != some tag, 0x21), busy s 0x0403 p])
    (.ok (handlePut i { handleOf s i with lock := if op = 0 then some tag else none } s) [])

/-- Is the buffer being relocated? -/
def relocating (s : State) (i : Nat) : Bool := s.reloc.any fun r => decide (r.idx = i)

def cmdHandleSet : CmdFun := fun h p s =>
  let hv := leAt p 0 2
  let i := hv % 256
  let rights := leAt p 2 1
  let owner := leAt p 4 4
  checks (lenIs h p 8 ++
    [badIf (2 ^ 29 ≤ owner ∨ 15 < rights) 0x12, rsv p 3 1, staleHandle s hv,
     ((handleOf s i).lock.isSome || relocating s i, 0x21), busy s 0x0404 p])
    (.ok (handlePut i { handleOf s i with rights := rights, owner := owner } s) [])

/-! ## COMPACT (R246 to R248) -/

/-- Does an owner mask hold a tag that names buffers by address: Trestle cores, host, DMA engine, remote? -/
def ownerPinned (owner : Nat) : Bool := (natsFrom 0x10 12).any fun t => t != 0x1A && bitAt owner t

/-- May the supervisor relocate a buffer now (R244 to R246)? -/
def movable (s : State) (i : Nat) : Bool :=
  let x := handleOf s i
  x.valid && x.lock.isNone && x.cls != .fixed && !ownerPinned x.owner &&
    (x.cls != .hamper || !s.sgroups.any fun e => bitAt x.owner e.2.cs && e.2.phase != .waiting)

/-- The buffers that may move, in address order: entry, base and size in units. -/
def movables (s : State) : List (Nat × Nat × Nat) :=
  let l := (s.handles.filter fun e => movable s e.1).map fun e => (e.2.base / 4096, e.1, e.2.units)
  let ins (x : Nat × Nat × Nat) (l : List (Nat × Nat × Nat)) : List (Nat × Nat × Nat) :=
    (l.takeWhile fun y => decide (y.1 < x.1)) ++ [x] ++ l.dropWhile fun y => decide (y.1 < x.1)
  (l.foldl (fun l x => ins x l) []).map fun x => (x.2.1, x.1, x.2.2)

/-- The first move that slides a buffer down into a free range below it. (DESIGN CHOICE, log entry 16) -/
def slideMove (s : State) : Option (Nat × Nat) :=
  (movables s).findSome? fun b =>
    ((gaps s).find? fun g => decide (b.2.2 ≤ g.2) && decide (g.1 < b.2.1)).map fun g => (b.1, g.1)

/-- The largest free range were a buffer at unit `d`. -/
def largestAfter (s : State) (i d : Nat) : Nat :=
  largestFree (handlePut i { handleOf s i with base := 4096 * d } s)

/-- A move into some free range that makes the largest free range larger. -/
def mergeMove (s : State) : Option (Nat × Nat) :=
  (movables s).findSome? fun b =>
    ((gaps s).find? fun g => decide (b.2.2 ≤ g.2) && decide (largestFree s < largestAfter s b.1 g.1)).map
      fun g => (b.1, g.1)

/-- The running COMPACT, if there is one: its key, and in `aux` twice the buffers moved, plus 1 once no slide is left. -/
def compactCmd (s : State) : Option (Nat × LongCmd) := s.sup.longs.find? fun e => e.2.opcode == 0x0405 && e.2.done.isNone

/-- The next relocation of a COMPACT, or its end (DESIGN CHOICE: R744 leaves the order of the moves open).
(DESIGN CHOICE, log entry 16) -/
def compactNext (s : State) : State :=
  match compactCmd s with
  | none => s
  | some (k, l) =>
    let start (aux : Nat) (m : Nat × Nat) : State :=
      { s with reloc := some { idx := m.1, dest := 4096 * m.2 },
               sup := { s.sup with longs := tabSet s.sup.longs k { l with aux := aux } } }
    if leAt l.payload 0 4 ≤ largestFree s then
      longDoneAt k 0 0 (leBytes 4 (largestFree s) ++ leBytes 2 (l.aux / 2) ++ [0, 0]) s
    else match (if l.aux % 2 = 0 then slideMove s else none), mergeMove s with
      | some m, _ => start l.aux m
      | none, some m => start (l.aux / 2 * 2 + 1) m
      | none, none => longDoneAt k 0x40 0 (leBytes 4 (largestFree s) ++ leBytes 2 (l.aux / 2) ++ [0, 0]) s

/-- The lines that the tile caches hold of a buffer are written back and go, before its address changes: an access sees
the same data before and after (R248). -/
def tcForget (i : Nat) (s : State) : State :=
  let h := handleOf s i
  let inside (n : Nat) : Bool := lineIn h.base (h.base + 4096 * h.units) n
  (natsFrom 0 64).foldl (fun s' core => tcDropAll core (fun n _ => inside n) (tcCleanAll core inside s')) s

/-- A relocation is complete: BASE changes, unless the buffer may no longer move. The next one starts; so it does where
the buffer was freed during its copy. During a takeover nothing changes (R684; DESIGN CHOICE, log entry 46).
(DEDUCED, log entry 50) -/
def relocNext (s : State) : State :=
  match s.reloc with
  | none => if s.sup.failed then s else compactNext s
  | some r =>
    if s.sup.failed then s
    else if movable s r.idx then
      let s := relocFinish (tcForget r.idx s)
      match compactCmd s with
      | some (k, l) => compactNext { s with sup := { s.sup with longs := tabSet s.sup.longs k { l with aux := l.aux + 2 } } }
      | none => s
    else compactNext { s with reloc := none }

def execRelocationDone (s : State) : Host.Outcome State Fault Refusal := done (relocNext s)

def cmdCompact : CmdFun := fun h p s =>
  checks (lenIs h p 4 ++ [badIf (262144 < leAt p 0 4) 0x12, busy s 0x0405 p])
    (let q := accept h 0x0405 0 p none 0 s
     .accepted (compactNext q.1))

/-! ## Semaphores and arrival counters -/

def cmdSemSet : CmdFun := fun h p s =>
  let first := leAt p 0 2
  let n := leAt p 2 2
  checks (lenIs h p 8 ++
    [badIf (n = 0 ∨ 4096 < first + n ∨ 1 < leAt p 6 1) 0x12, rsv p 7 1,
     ((natsFrom first n).any fun i => !(semOf s i).queue.isEmpty, 0x21), busy s 0x0406 p])
    (.ok ((natsFrom first n).foldl (fun s' i => semSetTo i (leAt p 4 2) (leAt p 6 1 == 1) s') s) [])

def semBytes (m : Sem) : List Byte :=
  leBytes 2 m.value ++ leBytes 2 m.queue.length ++ [b8 (b2n m.tracked), b8 m.holds.length, 0, 0] ++
    m.holds.flatMap fun e => [b8 e.1, 0] ++ leBytes 2 e.2

def cmdSemQuery : CmdFun := fun h p s =>
  checks (lenIs h p 4 ++ [badIf (4095 < leAt p 0 2) 0x12, rsv p 2 2, busy s 0x0407 p]) (.ok s (semBytes (semOf s (leAt p 0 2))))

def cmdArrivalBind : CmdFun := fun h p s =>
  let k := leAt p 0 2
  let hv := leAt p 2 2
  let sem := leAt p 8 2
  checks (lenIs h p 12 ++
    [badIf (1023 < k ∨ leAt p 4 4 = 0 ∨ (4095 < sem ∧ sem ≠ 0xFFFF) ∨ leAt p 10 1 = 0 ∨ 1 < leAt p 11 1) 0x12,
     staleHandle s hv, ((tabGet? s.arrivals k).isSome, 0x21), busy s 0x0408 p])
    (let a : Arrival := { idx := hv % 256, count := 0, target := leAt p 4 4, sem := if sem = 0xFFFF then none else some sem,
                          semN := leAt p 10 1, rearm := leAt p 11 1 == 1, stopped := false }
     .ok { s with arrivals := tabSet s.arrivals k a } [])

def cmdArrivalUnbind : CmdFun := fun h p s =>
  let k := leAt p 0 2
  checks (lenIs h p 4 ++
    [badIf (1023 < k) 0x12, rsv p 2 2, ((tabGet? s.arrivals k).isNone, 0x21), busy s 0x0409 p])
    (.ok { s with arrivals := tabDel s.arrivals k }
      (leBytes 4 (match tabGet? s.arrivals k with | some a => a.count | none => 0)))

/-! ## Rings -/


def cmdRingDeclare : CmdFun := fun h p s =>
  let r := leAt p 0 1
  let slots := leAt p 1 1
  let refs := leAt p 2 1
  let fl := leAt p 3 1
  let hv := leAt p 4 2
  let units := leAt p 6 2
  let prod := leAt p 8 1
  let x := handleOf s (hv % 256)
  checks (lenIs h p 12 ++
    [badIf (127 < r ∨ slots < 3 ∨ 64 < slots ∨ refs = 0 ∨ 7 < refs ∨ 7 < fl ∨ units = 0 ∨ 1024 < units ∨ 0x1C < prod) 0x12,
     rsv p 9 3, staleHandle s hv, (!x.ring, 0x12),
     badIf (x.units < slots * units ∨ refs < 1 + fl % 2 + fl / 2 % 2) 0x12,
     (ringInUse s r, 0x21), ((ringOfHandle s (hv % 256)).any fun r' => decide (r' ≠ r), 0x21), busy s 0x040A p])
    (let old := ringOf s r
     let g : Ring := { declared := true, handle := hv, slots := slots, slotUnits := units, producer := prod, refs := refs,
                       autoUp := bitAt fl 0, autoDown := bitAt fl 1, spec := bitAt fl 2, waitP := old.waitP,
                       waitC := old.waitC }
     .ok (ringSettle r (ringPut r g s)) [])

/-- Is a ring named by a running stream or by an image bound to a group? -/
def ringNamed (s : State) (r : Nat) : Bool :=
  (s.streams.any fun e => e.2.state != .stopped && e.2.ring == some r) ||
    s.models.any fun e => modelBound s e.1 && (modelRings e.2).contains r

def cmdRingUndeclare : CmdFun := fun h p s =>
  let r := leAt p 0 1
  checks (lenIs h p 4 ++
    [badIf (127 < r) 0x12, rsv p 1 3, (!(ringOf s r).declared || ringInUse s r || ringNamed s r, 0x21), busy s 0x040B p])
    (.ok { s with rings := tabDel s.rings r } [])

def cmdRingReset : CmdFun := fun h p s =>
  let r := leAt p 0 1
  checks (lenIs h p 4 ++ [badIf (127 < r) 0x12, rsv p 1 3, (!(ringOf s r).declared, 0x21), busy s 0x040C p])
    (.ok (ringReset r s) [])

/-! ## FC_SIZE (R553 to R556, R560), BWR_SET (R350, R351) -/

/-- Every line is invalid; fills that are on their way install nothing. -/
def fcDropAll (s : State) : State :=
  xkMod (fun x => { x with far := x.far.map fun w => { w with fill := false } }) { s with fcache := [] }

/-- The old buffer goes, the new one comes; none where no range is free. -/
def fcRebuffer (size : Nat) (s : State) : Option State :=
  let s := match s.fcBuffer with | some i => freeHandle i { s with fcBuffer := none } | none => s
  if size = 0 then some s
  else (allocate (256 * 2 ^ (size - 1)) 15 (2 ^ 0x1C) .fixed false s).map fun q => { q.1 with fcBuffer := some q.2 }

def cmdFcSize : CmdFun := fun h p s =>
  let size := leAt p 0 1
  checks (lenIs h p 4 ++ [badIf (7 < size) 0x12, rsv p 1 1, (s.fcBuffer.any (handleKept s), 0x21), busy s 0x040D p])
    (match fcRebuffer size (fcDropAll (fcSendLines s)) with
     | none => .stop 0x30 []
     | some s' => acceptDone h 0x040D 0 p 0 0 [] (redGone (regSet 0x200 (w32 (atBit (leAt p 2 2) 16 + size)) s')))

/-- The setting is kept until the next multiple of 100 ns. (DESIGN CHOICE, log entry 19) -/
def cmdBwrSet : CmdFun := fun h p s =>
  let c := leAt p 0 1
  let un := leAt p 1 1
  let rate := leAt p 2 2
  let depth := leAt p 4 2
  checks (lenIs h p 8 ++ [badIf (4 < c ∨ 1 < un ∨ 16383 < rate ∨ depth < rate) 0x12, rsv p 6 2, busy s 0x040E p])
    (let s := refillTo s.ts s
     .ok { s with tokens := tabPut 0 s.tokens (32 + c) (1 + rate + atBit depth 14 + atBit un 31) } [])

def execHandleAlloc (h : Hdr) (p : List Byte) (s : State) : Host.Outcome State Fault Refusal :=
  done (cmdRow 0x0400 (some 2) cmdHandleAlloc h p s)
def execHandleFree (h : Hdr) (p : List Byte) (s : State) : Host.Outcome State Fault Refusal :=
  done (cmdRow 0x0401 (some 2) cmdHandleFree h p s)
def execHandleQuery (h : Hdr) (p : List Byte) (s : State) : Host.Outcome State Fault Refusal :=
  done (cmdRow 0x0402 none cmdHandleQuery h p s)
def execHandleLock (h : Hdr) (p : List Byte) (s : State) : Host.Outcome State Fault Refusal :=
  done (cmdRow 0x0403 (some 2) cmdHandleLock h p s)
def execHandleSet (h : Hdr) (p : List Byte) (s : State) : Host.Outcome State Fault Refusal :=
  done (cmdRow 0x0404 (some 2) cmdHandleSet h p s)
def execCompact (h : Hdr) (p : List Byte) (s : State) : Host.Outcome State Fault Refusal :=
  done (cmdRow 0x0405 (some 2) cmdCompact h p s)
def execSemSet (h : Hdr) (p : List Byte) (s : State) : Host.Outcome State Fault Refusal :=
  done (cmdRow 0x0406 (some 2) cmdSemSet h p s)
def execSemQuery (h : Hdr) (p : List Byte) (s : State) : Host.Outcome State Fault Refusal :=
  done (cmdRow 0x0407 none cmdSemQuery h p s)
def execArrivalBind (h : Hdr) (p : List Byte) (s : State) : Host.Outcome State Fault Refusal :=
  done (cmdRow 0x0408 (some 2) cmdArrivalBind h p s)
def execArrivalUnbind (h : Hdr) (p : List Byte) (s : State) : Host.Outcome State Fault Refusal :=
  done (cmdRow 0x0409 (some 2) cmdArrivalUnbind h p s)
def execRingDeclare (h : Hdr) (p : List Byte) (s : State) : Host.Outcome State Fault Refusal :=
  done (cmdRow 0x040A (some 2) cmdRingDeclare h p s)
def execRingUndeclare (h : Hdr) (p : List Byte) (s : State) : Host.Outcome State Fault Refusal :=
  done (cmdRow 0x040B (some 2) cmdRingUndeclare h p s)
def execRingReset (h : Hdr) (p : List Byte) (s : State) : Host.Outcome State Fault Refusal :=
  done (cmdRow 0x040C (some 2) cmdRingReset h p s)
def execFcSize (h : Hdr) (p : List Byte) (s : State) : Host.Outcome State Fault Refusal :=
  done (cmdRow 0x040D (some 2) cmdFcSize h p s)
def execBwrSet (h : Hdr) (p : List Byte) (s : State) : Host.Outcome State Fault Refusal :=
  done (cmdRow 0x040E (some 2) cmdBwrSet h p s)

end Sys2Proof.Machine
end

