-- ==== Sys2Proof/Machine/XkSig.lean ====
section
/-! DEFINITION. The signal path of the Xanik receiver (R795 to R797, R800, R804, R806, R810 to R815, R783, R793): what the
codes of the receive converter say. (DESIGN CHOICE, log entries 84 and 85) -/

namespace Sys2Proof.Machine

open Sys2Proof

/-- The values of converter codes. -/
def adcValues (l : List (BitVec 12)) : List Int := l.map (·.toInt)

/-- Is a code at full scale (R814)? -/
def fullScale (x : Int) : Bool := x == 2047 || x == -2048

/-- The sum of products of two runs of samples. -/
def dotSum (a b : List Int) : Int := (a.zipWith (· * ·) b).foldl (· + ·) 0

/-- Decibels of a ratio in fixed point, in units of 1/u dB, rounded down. -/
def decibels (u : Nat) (x : Int) : Int := fxDiv (10 * u * fxLn x) (fxLn (10 * fxOne)) / fxOne

/-- The power of n samples against full scale, a sine that spans the converter, in 1/u dB; none without any power. -/
def levelOf (u : Nat) (x : List Int) : Option Int :=
  let p := dotSum x x
  if p = 0 then none else some (decibels u (p * fxOne / (x.length * 2 ^ 21 : Nat)))

/-! ## Detection and gain -/

/-- The RSSI of the last 256 samples at a gain in 0.5 dB steps, in 0.25 dBm steps (R795): full scale is +7 dBm at 0 dB
gain (R990). -/
def rssiOf (gain : Nat) (x : List Int) : BitVec 16 :=
  match levelOf 4 x with
  | some l => BitVec.ofInt 16 (28 - 2 * gain + l)
  | none => BitVec.ofInt 16 (-32768)

/-- The fast loop (R800): the gain in 0.5 dB steps, whether fine steps run, and when the loop converged, in ns from the
start of ACQUIRE. -/
structure Agc where
  gain : Nat
  fine : Bool := false
  done : Option Nat := none

/-- The multiple of `m` nearest to `e`, in multiples. -/
def nearest (e m : Int) : Int := (2 * e + m) / (2 * m)

/-- One step of the fast loop, number k from 1, on its 48 samples of measurement (R800, R801). -/
def agcStep (x : List Int) (k : Nat) (a : Agc) : Agc :=
  let lv := if x.any fullScale then 18 * 64 else (levelOf 64 x).getD (-100000)
  let e := -12 * 64 - lv
  let by_ := if a.fine then max (-6) (min 6 (nearest e 32)) else 12 * nearest e 384
  let g := (max 0 (min 126 ((a.gain : Int) + by_))).toNat
  match a.done with
  | some _ => a
  | none =>
    if g ≠ a.gain then { a with gain := g }
    else if a.fine then { a with done := some (256 * k) }
    else { a with fine := true }

/-- Does a period of 128 samples qualify after the one before it (R796)? ρ · 2^15 ≥ Q_THRESH. -/
def periodQualifies (q : Nat) (before now : List Int) : Bool :=
  let n := dotSum now before
  let d := dotSum now now * dotSum before before
  decide (0 < d) && decide (0 ≤ n) && decide ((q : Int) * q * d ≤ n * n * 2 ^ 30)

/-- The end of the third consecutive qualifying period, in periods from the start of ACQUIRE; the samples begin one
period before it (R796, R797). -/
def thirdPeriod (q : Nat) (x : List Int) : Option Nat :=
  let ok (p : Nat) : Bool :=
    decide (128 * (p + 1) ≤ x.length) && periodQualifies q ((x.drop (128 * (p - 1))).take 128) ((x.drop (128 * p)).take 128)
  (natsFrom 3 10).find? fun p => ok p && ok (p - 1) && ok (p - 2)

/-- The fast loop over the samples from the start of ACQUIRE. -/
def agcRun (gain : Nat) (x : List Int) : Agc :=
  (natsFrom 1 24).foldl (fun a k =>
    let m := (x.drop (64 * (k - 1))).take 48
    if m.length = 48 then agcStep m k a else a) { gain := gain }

/-- Qualification (R797, R798, R803): its instant in ns from the start of ACQUIRE and the gain frozen there, from the
samples that begin one period earlier. -/
def acquireRun (manual : Bool) (gain q : Nat) (x : List Int) : Option (Nat × Nat) :=
  match thirdPeriod q x with
  | none => none
  | some p =>
    let a := agcRun gain (x.drop 128)
    if manual then some (512 * p, gain)
    else match a.done with
      | some d => if max (512 * p) d ≤ 6144 then some (max (512 * p) d, a.gain) else none
      | none => none

/-! ## Synchronization and channel estimate -/

/-- The correlation with the long-training symbol at a sample, and its normalized square in 1/2^30 (R804). -/
def correlation (long x : List Int) (n : Nat) : Int × Int :=
  let w := (x.drop n).take 1024
  let c := dotSum w long
  let e := dotSum w w * dotSum long long
  (c, if e = 0 then 0 else c * c * 2 ^ 30 / e)

/-- The first peak within 8 µs of qualification, in samples from there (R804). -/
def firstPeak (x : List Int) : Option Nat :=
  let long := longSignal
  let c (n : Nat) : Int := (correlation long x n).1.natAbs
  (natsFrom 0 2001).find? fun n =>
    decide ((Config.syncPeak : Int) ≤ (correlation long x n).2) && decide (c n ≠ 0) && (n == 0 || decide (c (n - 1) < c n)) &&
      decide (c (n + 1) ≤ c n)

/-- The used carriers of an FFT period. -/
def carriersOf (x : List Int) : List Cx := ((transform false (x.map fun v => ⟨v * fxOne, 0⟩)).drop 8).take 394

/-- The initial channel estimate from the two periods of the long training (R806). -/
def channelOf (x : List Int) (peak : Nat) : List Cx :=
  let y := (carriersOf ((x.drop peak).take 1024)).zipWith cxAdd (carriersOf ((x.drop (peak + 1024)).take 1024))
  y.zipWith (fun a b => let q := cxDiv a b; ⟨q.re / 2, q.im / 2⟩) longPoints

/-! ## Blanking (R814 to R816) -/

/-- Marks the samples up to 8 after a marked one; `c` counts those still due. -/
def blankAfter : Nat → List Bool → List Bool
  | _, [] => []
  | c, b :: t => let c := if b then 9 else c - 1; decide (0 < c) :: blankAfter c t

/-- Which samples are blanked. -/
def blankMask (clip : Bool) (x : List Int) : List Bool :=
  let f := x.map fun v => clip && fullScale v
  (blankAfter 0 f).zipWith (· || ·) (blankAfter 0 f.reverse).reverse

/-! ## Sampling offset (R813) -/

/-- The angle of a value in turns, from −1/2 to 1/2, by halving. -/
def turnsGo : Nat → Nat → Cx → Int
  | 0, _, _ => 0
  | n + 1, k, z =>
    let d : Int := if 0 ≤ z.im then fxOne / 2 ^ k else -(fxOne / 2 ^ k)
    d + turnsGo n (k + 1) (cxMul z (cxConj (cxCis d)))
def turnsOf (z : Cx) : Int := turnsGo 40 2 z

/-- The phase slope of the pilots against the channel estimate, in turns per carrier (R813). -/
def pilotSlope (h y pilots : List Cx) : Int :=
  let z (i : Nat) : Cx := cxMul (cxMul (y.getD i cxZero) (cxConj (h.getD i cxZero))) (pilots.getD i cxZero)
  let sum := (natsFrom 0 24).foldl (fun a i => cxAdd a (cxMul (z (16 * i + 16)) (cxConj (z (16 * i))))) cxZero
  turnsOf sum / 16

/-- Carriers with a phase slope taken away. -/
def unslope (slope : Int) (y : List Cx) : List Cx :=
  y.zipWith (fun a i => cxMul a (cxCis (-(slope * (i + 8))))) ((natsFrom 0 394).map Int.ofNat)

/-- The move of the FFT period that a slope asks for (R813): one sample where the offset reaches half a sample. -/
def slopeShift (slope : Int) : Int :=
  let off := -(slope * 1024)
  if fxOne ≤ 2 * off then 1 else if 2 * off ≤ -fxOne then -1 else 0

/-! ## One symbol -/

/-- A received symbol: its carriers, phase corrected; whether a sample of it was blanked, and more than 64 of its FFT
period; the move of the FFT period that it asks for. -/
structure RxSymbol where
  points : List Cx
  clipped : Bool
  erased : Bool
  move : Int

/-- A symbol whose cyclic prefix begins at `start` (R811, R813 to R815); `pilots` are its known values. -/
def rxSymbol (clip : Bool) (chan pilots : List Cx) (x : List Int) (start cp : Nat) : RxSymbol :=
  let m := blankMask clip x
  let w := ((x.zipWith (fun v b => if b then 0 else v) m).drop (start + cp)).take 1024
  let y := carriersOf (w ++ List.replicate (1024 - w.length) 0)
  let slope := pilotSlope chan y pilots
  { points := unslope slope y, clipped := ((m.drop start).take (cp + 1024)).any id,
    erased := decide (64 < ((m.drop (start + cp)).take 1024).countP id), move := slopeShift slope }

/-- The known values of pilots in symbol n, the header being 0; 0 on the data carriers (R767). -/
def pilotPoints (n : Nat) : List Cx :=
  let p := (lfsrBits 11 9 (25 * (n + 1)) 2047).drop (25 * n)
  (natsFrom 0 394).map fun i => if isPilot i then ⟨fxOne * (1 - 2 * (p.getD (i / 16) 0 : Int)), 0⟩ else cxZero

/-- H_k ← H_k + μ (Y_k / X_k − H_k) for the carriers that are not off, with μ = 2^−step (R811, R812). -/
def adaptChan (step : Nat) (chan y x : List Cx) : List Cx :=
  if step = 0 then chan
  else (chan.zip (y.zip x)).map fun e =>
    let d := cxSub (cxDiv e.2.1 e.2.2) e.1
    if e.2.2 = cxZero then e.1 else cxAdd e.1 ⟨d.re / 2 ^ step, d.im / 2 ^ step⟩

/-! ## Soft inputs (R810) -/

/-- The least distance of an axis value over the bit patterns of the axis whose bit r is v, weighted by |H|²: what is
common to all of them left out. -/
def axisCost (c : Nat) (h2 y : Int) (r v : Nat) : Int :=
  let cost (b : Nat) : Int := let a := axisValue c b; fxMul h2 (fxMul a a) - 2 * fxMul y a
  let bs := (natsFrom 0 (2 ^ axisBits c)).filter fun b => decide (bitsOf b r 1 = v)
  (bs.map cost).foldl min (cost (bs.headD 0))

/-- The max-log likelihood ratio of bit r of a carrier, positive for 0, weighted by |H|² (R810). -/
def carrierLlr (c : Nat) (h y : Cx) (r : Nat) : Int :=
  let z := cxMul y (cxConj h)
  let onI := decide (r < axisBits c)
  let v := if onI then z.re else z.im
  let r := if onI then r else r - axisBits c
  axisCost c (cxNorm h) v r 1 - axisCost c (cxNorm h) v r 0

/-- Scaled and quantized to −7 .. +7 (R810). -/
def softInput (l : Int) : Int :=
  let q : Int := min 7 ((l.natAbs + Config.softBias) / (Config.softStep + 1) : Nat)
  if l < 0 then -q else q

/-- The soft inputs of a symbol, in the order its coded bits were dealt (R784, R810, R815). -/
def softInputs (codes : List Nat) (chan : List Cx) (y : RxSymbol) : List Int :=
  (dealt codes).map fun e =>
    if y.erased then 0
    else softInput (carrierLlr (codes.getD e.1 0) (chan.getD e.1 cxZero) (y.points.getD e.1 cxZero) e.2)

/-- The soft inputs of the A and B bits of n input bits, a removed bit 0 (R783). -/
def depuncture (rate : Nat) : Nat → Nat → List Int → List (Int × Int)
  | 0, _, _ => []
  | n + 1, p, l =>
    let m := if keepsA rate p then l.drop 1 else l
    let a := if keepsA rate p then l.headD 0 else 0
    let b := if keepsB rate p then m.headD 0 else 0
    (a, b) :: depuncture rate n ((p + 1) % rateData rate) (if keepsB rate p then m.drop 1 else m)

/-! ## The decoder (R783) -/

/-- The decoder: for each of the 64 states its metric and the last 96 bits of its path, newest first; the bits decided,
newest first; the input bits taken. -/
structure Vit where
  paths : List (Int × List Nat)
  out : List Nat
  fed : Nat

def vitStart : Vit := { paths := (natsFrom 0 64).map fun s => (if s = 0 then 0 else -(2 ^ 40), []), out := [], fed := 0 }

/-- What soft inputs say for the coded bits of an input bit and the six before it. -/
def branchMetric (a b : Int) (h : Nat) : Int := (if codeA h = 0 then a else -a) + (if codeB h = 0 then b else -b)

/-- One input bit: each state takes the better of its two predecessors; the bit 96 back is decided on the best path. -/
def vitStep (v : Vit) (ab : Int × Int) : Vit :=
  let reach (s p : Nat) : Int × List Nat :=
    let q := v.paths.getD p (0, [])
    (q.1 + branchMetric ab.1 ab.2 (64 * (s / 32) + p), (s / 32) :: q.2)
  let next := (natsFrom 0 64).map fun s =>
    let x := reach s (2 * (s % 32))
    let y := reach s (2 * (s % 32) + 1)
    if x.1 < y.1 then y else if y.1 < x.1 then x else if Config.viterbiTie v.fed s then y else x
  let best := next.foldl (fun b q => if b.1 < q.1 then q else b) (next.headD (0, []))
  { paths := next.map fun q => (q.1, q.2.take 96),
    out := if 96 < best.2.length then best.2.getLastD 0 :: v.out else v.out, fed := v.fed + 1 }

/-- The bits up to the end of the tail, which leaves state 0. -/
def vitEnd (v : Vit) : List Nat := v.out.reverse ++ ((v.paths.getD 0 (0, [])).2).reverse

/-- Bytes from bits, least significant first. -/
def bytesOfBits : Nat → List Nat → List Byte
  | 0, _ => []
  | n + 1, l => b8 ((l.take 8).foldr (fun b a => b + 2 * a) 0) :: bytesOfBits n (l.drop 8)

/-- n bytes from decoded bits, descrambled (R779). -/
def descrambled (n : Nat) (bits : List Nat) : List Byte :=
  bytesOfBits n ((bits.take (8 * n)).zipWith (· ^^^ ·) (lfsrBits 7 4 (8 * n) 127))

/-! ## Header and body -/

/-- The header symbol (R807): the symbol as received, and its 18 bytes as decoded. -/
def rxHeader (clip : Bool) (chan : List Cx) (x : List Int) : RxSymbol × List Byte :=
  let codes := carrierCodes none
  let y := rxSymbol clip chan (pilotPoints 0) x 0 256
  let v := ((depuncture 0 150 0 (softInputs codes chan y))).foldl vitStep vitStart
  (y, descrambled 18 (vitEnd v))

/-- The points of a header symbol, from its 18 bytes (R774, R812). -/
def headerPoints (b : List Byte) : List Cx :=
  let codes := carrierCodes none
  match symbolsOf codes 738 1 0 (convEncode 0 0 0 (scrambled (bitsOfBytes b) 219)) with
  | p :: _ => symbolPoints codes p
  | [] => []

/-- How a body was coded: the code of each carrier, its rate, its cyclic prefix, the number of data bits with CRC-32C and
tail, CLIP, the equalizer step, the points of the header symbol, and how many of the samples given come before the body. -/
structure BodyForm where
  codes : List Nat
  cbps : Nat
  rate : Nat
  cp : Nat
  bits : Nat
  clip : Bool
  step : Nat
  header : List Cx
  pre : Nat

/-- A body being received: channel estimate, place of the FFT periods, carriers of the symbols so far that adapt it,
newest first, the decoder, and the symbols with blanked samples. -/
structure BodyRun where
  chan : List Cx
  shift : Int
  past : List (Option (List Cx))
  vit : Vit
  clips : Nat

/-- The points of body symbol n from decided bits: encoded, punctured, interleaved and mapped again (R812). -/
def decidedPoints (f : BodyForm) (n : Nat) (bits : List Nat) : List Cx :=
  let d := dbpsOf f.cbps f.rate
  let before := (bits.take ((n - 1) * d)).reverse.take 6
  let st := (before.zipWith (· * ·) [32, 16, 8, 4, 2, 1]).foldl (· + ·) 0
  match symbolsOf f.codes f.cbps 1 n (convEncode f.rate 0 st ((bits.drop ((n - 1) * d)).take d)) with
  | p :: _ => symbolPoints f.codes p
  | [] => []

/-- The channel estimate with which symbol n is equalized: adapted by symbol n − 2 (R812). -/
def chanFor (f : BodyForm) (n : Nat) (r : BodyRun) : List Cx :=
  match r.past with
  | _ :: some y :: _ =>
    adaptChan f.step r.chan y (if n = 2 then f.header else decidedPoints f (n - 2) r.vit.out.reverse)
  | _ => r.chan

/-- Body symbol n, from 1 (R783, R810 to R815). -/
def bodyStep (f : BodyForm) (x : List Int) (r : BodyRun) (n : Nat) : BodyRun :=
  let chan := chanFor f n r
  let y := rxSymbol f.clip chan (pilotPoints n) x ((f.pre + (n - 1) * (1024 + f.cp) : Nat) + r.shift).toNat f.cp
  let ab := (depuncture f.rate (dbpsOf f.cbps f.rate) 0 (softInputs f.codes chan y)).take (f.bits - r.vit.fed)
  { chan := chan, shift := r.shift + y.move, past := (if y.clipped then none else some y.points) :: r.past.take 1,
    vit := ab.foldl vitStep r.vit, clips := r.clips + b2n y.clipped }

/-- A body of n symbols. -/
def rxBody (f : BodyForm) (n : Nat) (chan : List Cx) (shift : Int) (first : Option (List Cx)) (x : List Int) : BodyRun :=
  (natsFrom 1 n).foldl (bodyStep f x) { chan := chan, shift := shift, past := [first], vit := vitStart, clips := 0 }

/-! ## Sounding (R778, R793) -/

/-- The known points of a sounding body. -/
def soundPoints : List (List Cx) := soundSymbols.map (symbolPoints (carrierCodes none))

/-- The symbols of a sounding body, which begins after `pre` samples. -/
def rxSounding (clip : Bool) (cp pre : Nat) (chan : List Cx) (shift : Int) (x : List Int) : List RxSymbol :=
  ((natsFrom 0 8).foldl (fun (r : List RxSymbol × Int) n =>
    let y := rxSymbol clip chan (pilotPoints (n + 1)) x ((pre + n * (1024 + cp) : Nat) + r.2).toNat cp
    (r.1 ++ [y], r.2 + y.move)) ([], shift)).1

/-- The SNR of each used carrier, in 1/256 dB, at least 0 (R793): |H_k|² against the mean square of Y_k − H_k X_k, which is
|H_k|² times that of the equalized points. -/
def soundSnr (chan : List Cx) (ys : List RxSymbol) : List Nat :=
  (natsFrom 0 394).map fun i =>
    let h := chan.getD i cxZero
    let dev (e : RxSymbol × List Cx) : Int := cxNorm (cxSub (e.1.points.getD i cxZero) (cxMul h (e.2.getD i cxZero)))
    let noise := ((ys.zip soundPoints).map dev).foldl (· + ·) 0 / 8
    if cxNorm h = 0 then 0 else if noise = 0 then 2 ^ 16 else (decibels 256 (fxDiv (cxNorm h) noise)).toNat

end Sys2Proof.Machine
end

