-- ==== Sys2Proof/Machine/XkRx.lean ====
section
/-! DEFINITION. The Xanik receiver up to the header (R795 to R808): detection, qualification, synchronization, header,
end of frame. -/

namespace Sys2Proof.Machine

open Sys2Proof

/-- DETECTION (R795): the RSSI of the last 256 samples exceeds DETECT_THRESH in SEARCH. -/
def detect (samples : List (BitVec 12)) (t : Nat) (s : State) : State :=
  let s := timeTo t s
  let rssi := rssiOf s.xk.gain (adcValues samples)
  if s.xk.rx == .search && xkOn s && decide ((BitVec.ofNat 16 (regBits s 0x9014 0 16)).toInt < rssi.toInt) then
    xkMod (fun x => { x with rx := .acquire, acqAt := t, rssi := rssi.toNat, pktCfg := (regGet s 0x9010).toNat,
                             pktQ := regBits s 0x9014 16 16, qualAt := none, stamp := none, hdr := none }) s
  else s

def execDetection (samples : List (BitVec 12)) (t : Nat) (s : State) : Host.Outcome State Fault Refusal :=
  done (detect samples t s)

/-- What the samples of ACQUIRE come to under the settings of the packet: the instant of qualification, in ns from its
start, and the gain there (R796, R797, R800, R803). -/
def acquired (s : State) (samples : List (BitVec 12)) : Option (Nat × Nat) :=
  acquireRun (bitAt s.xk.pktCfg 8) (2 * bitsOf s.xk.pktCfg 10 6) s.xk.pktQ (adcValues samples)

/-- QUALIFICATION (R797): the gain is frozen. -/
def qualify (samples : List (BitVec 12)) (t : Nat) (s : State) : State :=
  let s := timeTo t s
  match acquired s samples with
  | some (d, g) =>
    if s.xk.rx == .acquire && s.xk.qualAt.isNone && decide (s.xk.acqAt + d ≤ t) then
      xkMod (fun x => { x with qualAt := some (x.acqAt + d), gain := g, frozen := true }) s
    else s
  | none => s

def execQualification (samples : List (BitVec 12)) (t : Nat) (s : State) : Host.Outcome State Fault Refusal :=
  done (qualify samples t s)

/-- FALSE_DET (R798). -/
def falseDet (t : Nat) (s : State) : State :=
  let s := timeTo t s
  if s.xk.rx == .acquire && s.xk.qualAt.isNone && decide (s.xk.acqAt + 6144 ≤ t) then toSearch (regAdd 0x9048 1 s) else s

def execFalseDet (t : Nat) (s : State) : Host.Outcome State Fault Refusal := done (falseDet t s)

/-- LONG_TRAINING_SYNC (R804 to R806): the first peak stamps the frame and gives the channel estimate. -/
def longSync (samples : List (BitVec 12)) (t : Nat) (s : State) : State :=
  let s := timeTo t s
  let x := adcValues samples
  match s.xk.rx, s.xk.qualAt, s.xk.stamp with
  | .acquire, some q, none =>
    match firstPeak x with
    | some n => xkMod (fun k => { k with stamp := some (q + 4 * n), chan := channelOf x n, shift := 0, first := none }) s
    | none => toSearch (regAdd 0x904C 1 (regOr 0x9004 1 s))
  | _, _, _ => s

def execLongTrainingSync (samples : List (BitVec 12)) (t : Nat) (s : State) : Host.Outcome State Fault Refusal :=
  done (longSync samples t s)

/-- The fields of a header (R772, R843). -/
def headerOf (h : List Byte) : XkHeader :=
  let b0 := leAt h 0 1
  let b1 := leAt h 1 1
  { src := b1 % 16, bcast := bitAt b1 4, dst := leAt h 2 1 % 16, mapUsed := bitAt b0 3, mapVer := leAt h 2 1 / 16,
    sound := bitAt b0 4, length := leAt h 4 2, nsym := leAt h 6 2, cp := bitAt b0 2, kind := leAt h 8 1 % 16,
    retry := bitAt (leAt h 8 1) 4, seq := leAt h 9 2 % 4096, cycle := leAt h 11 2, eligible := bitAt (leAt h 13 1) 0 }

/-- The receive map a header names, if this node holds it (R792). -/
def rxMapOf (s : State) (h : XkHeader) : Option (List Byte) :=
  if h.mapUsed then ((peerOf s h.src).rxMaps.find? fun m => m.1 = h.mapVer).map (·.2) else none

/-- Is the frame for this node? -/
def forUs (s : State) (h : XkHeader) : Bool := h.bcast || decide (h.dst = s.xk.node)

/-- Is a header accepted (R773, R775, R807, R844)? (DESIGN CHOICE, log entry 57) -/
def headerOk (s : State) (b : List Byte) : Bool :=
  let h := headerOf b
  let m := rxMapOf s h
  let known := !h.mapUsed || (m.isSome && forUs s h)
  decide (b.length = 18) && decide (crc16 (b.take 16) = leAt b 16 2) &&
  decide (leAt b 0 1 % 4 = 0) && decide (leAt b 0 1 < 32) && decide (leAt b 1 1 < 32) && decide (leAt b 3 1 = 0) &&
  decide (leAt b 8 1 < 32) && decide (leAt b 9 2 < 4096) && decide (leAt b 14 2 = 0) && decide (leAt b 13 1 ≤ 1) &&
  (decide (h.kind = 2) || !h.eligible) &&
  (!h.bcast || (!h.mapUsed && decide (h.dst = 0))) && (h.mapUsed || decide (h.mapVer = 0)) &&
  (!h.sound || (!h.mapUsed && decide (h.length = 0))) && (h.sound || h.length ≠ 0 || !h.mapUsed) &&
  decide (h.length ≤ 4096) && decide (h.nsym ≤ 4095) && decide (h.kind < 14) &&
  (!known || decide (h.nsym = if h.sound then 8 else bodySyms h.length (mapDbps m)))

/-- A header is accepted: recorded, and RECEIVE or BUSY until its computed end (R792, R808). -/
def headerTake (h : XkHeader) (st : Nat) (s : State) : State :=
  let s := regAdd 0x9044 1 (regSet 0x9018 (w32 (atBit s.xk.rssi 16 + atBit s.xk.gain 8 + atBit (b2n h.mapUsed) 5 +
    atBit (b2n h.bcast) 4 + h.src)) s)
  let s := if h.kind = 2 && h.eligible then xkMod (fun x => { x with eligibles := x.eligibles ||| 2 ^ h.src }) s else s
  let e := st + 13312 + symTime h.cp h.nsym
  let miss := forUs s h && h.mapUsed && (rxMapOf s h).isNone
  let s := if miss then regAdd 0x9058 1 (regOr 0x9004 8 s) else s
  let s := xkMod (fun x => { x with hdr := some h, rxEnd := e, rx := if forUs s h && !miss then .receive else .busy }) s
  if forUs s h && h.nsym = 0 then
    (if h.kind = 2 then joinRx h.src h.eligible s else if h.kind = 3 then leaveRx h.src s else s)
  else s

/-- n symbols of a frame had blanked samples (R814). -/
def clipCount (n : Nat) (s : State) : State := if n = 0 then s else regAdd 0x905C n (regOr 0x9004 0x10 s)

/-- CLIP of the packet in progress. -/
def clipOn (s : State) : Bool := bitAt s.xk.pktCfg 9

/-- The header symbol as received with the channel estimate of the frame. -/
def headerRx (s : State) (samples : List (BitVec 12)) : RxSymbol × List Byte :=
  rxHeader (clipOn s) s.xk.chan (adcValues samples)

/-- A header's 18 bytes are accepted or refused (R807). (DESIGN CHOICE, log entry 57) -/
def headerJudge (b : List Byte) (st : Nat) (s : State) : State :=
  if headerOk s b then headerTake (headerOf b) st s
  else
    toSearch (regAdd 0x9050 1 (regOr 0x9004 2
      (peerMod (leAt b 1 1 % 16) (fun p => { p with hdrCrc := satAdd 0xFFFFFFFF p.hdrCrc 1 }) s)))

/-- HEADER_DECODE (R807, R814, R816). -/
def headerDecode (samples : List (BitVec 12)) (t : Nat) (s : State) : State :=
  let s := timeTo t s
  match s.xk.rx, s.xk.stamp with
  | .acquire, some st =>
    let q := headerRx s samples
    let keep := if q.1.clipped then none else some (q.1.points, q.2)
    headerJudge q.2 st (clipCount (b2n q.1.clipped) (xkMod (fun x => { x with shift := q.1.move, first := keep }) s))
  | _, _ => s

def execHeaderDecode (samples : List (BitVec 12)) (t : Nat) (s : State) : Host.Outcome State Fault Refusal :=
  done (headerDecode samples t s)

/-- FRAME_END (R808): back to SEARCH at the frame's computed end. -/
def frameEnd (t : Nat) (s : State) : State :=
  let s := timeTo t s
  if (s.xk.rx == .receive || s.xk.rx == .busy) && decide (s.xk.rxEnd ≤ t) then
    toSearch (xkMod (fun x => { x with lastEnd := some x.rxEnd }) s)
  else s

def execFrameEnd (t : Nat) (s : State) : Host.Outcome State Fault Refusal := done (frameEnd t s)

/-- SYNCHRONIZATION_LOSS (R802): during a frame. -/
def syncLoss (t : Nat) (s : State) : State :=
  let s := timeTo t s
  if s.xk.rx == .receive || s.xk.rx == .busy || (s.xk.rx == .acquire && s.xk.qualAt.isSome) then toSearch s else s

def execSynchronizationLoss (t : Nat) (s : State) : Host.Outcome State Fault Refusal := done (syncLoss t s)

end Sys2Proof.Machine
end

