-- ==== Sys2Proof/Machine/CmdLink.lean ====
section
/-! DEFINITION. The Xanik commands (0x06xx, R750, R751; R851, R855, R864, R868). -/

namespace Sys2Proof.Machine

open Sys2Proof

def cmdXkConfig : CmdFun := fun h p s =>
  let node := leAt p 0 1
  let lines := leAt p 4 4
  let stop := leAt p 8 4
  checks (lenIs h p 12 ++
    [badIf (15 < node ∨ 1 < leAt p 1 1 ∨ 1 < leAt p 2 1 ∨ lines = 0 ∨ stop < 200 ∨ 10000 < stop) 0x12, rsv p 3 1,
     (xkJoined s, 0x21), busy s 0x0600 p])
    (let f (x : Xk) : Xk := { x with node := node, eligible := leAt p 1 1 == 1, cp := leAt p 2 1 == 1,
                                     cycleLines := lines, stopPeriod := stop }
     .ok (xkMod f s) [])

/-- The node's own cycle period in ns (R851), as a fraction; none while v is 0. -/
def ownCycle (s : State) : Option (Nat × Nat) :=
  if s.lt.press == .forward then
    let v := velAt s.lt (masterScale s) s.ts
    if v.1 = 0 then none else some (s.xk.cycleLines * 65536 * v.2, v.1.natAbs)
  else some (s.xk.stopPeriod * 1000, 1)

/-- The listen period in ns: 3 × the cycle, at least 1 ms and at most TIMEOUT (R851). -/
def listenNs (s : State) (timeout : Nat) : Nat :=
  match ownCycle s with
  | some (a, b) => min timeout (max 1000000 (cdiv (3 * a) b))
  | none => timeout

/-- The seed of the retry generator (R852). -/
def joinSeed (node : Nat) : Nat :=
  let v := Config.uid.toNat % 65536 ^^^ node * 0x1111
  if v = 0 then 0xACE1 else v

def cmdXkJoin : CmdFun := fun h p s =>
  let ms := leAt p 0 2
  checks (lenIs h p 4 ++
    [badIf (ms = 0 ∨ 60000 < ms) 0x12, rsv p 2 2, (xkJoined s || !xkOn s, 0x21), busy s 0x0601 p])
    (let q := accept h 0x0601 0 p (some (s.ts + ms * 1000000)) 0 s
     let f (x : Xk) : Xk :=
       { x with net := .listen, listenEnd := s.ts + listenNs s (ms * 1000000), lfsr := joinSeed x.node, joinTries := 0,
                joinCycle := none, lastC := none, interval := 0, succ := none, newNode := none, leaving := false,
                leavers := 0, admits := [], eligibles := 0 }
     .accepted (xkMod f q.1))

def cmdXkLeave : CmdFun := fun h p s =>
  checks (lenIs h p 0 ++ [(!xkJoined s, 0x21), busy s 0x0602 p])
    (.accepted (xkMod (fun x => { x with leaving := true }) (accept h 0x0602 0 p none 0 s).1))

/-- Start a sounding of every other node (0xFF), or of one. (DEDUCED, log entry 59) -/
def soundStart (cmd peer : Nat) (s : State) : State :=
  let others := (nodesOf s.xk.present).erase s.xk.node
  let dest := if peer = 0xFF then 16 else peer
  let q : Sounding :=
    { cmd := cmd, dest := dest, wait := if peer = 0xFF then others else others.filter fun n => decide (n = peer),
      maps := 0, cycle := s.xk.cycle }
  soundCheck (xkMod (fun x => { x with soundings := x.soundings ++ [q] }) (xkSend dest 13 [] s))

def cmdXkSound : CmdFun := fun h p s =>
  let peer := leAt p 0 1
  checks (lenIs h p 4 ++
    [badIf (15 < peer ∧ peer ≠ 0xFF) 0x12, rsv p 1 3, (!xkJoined s, 0x21), busy s 0x0603 p])
    (let q := accept h 0x0603 peer p none 0 s
     .accepted (soundStart q.2 peer q.1))

def cmdXkRxSet : CmdFun := fun h p s =>
  let gain := leAt p 1 1
  let cfg := atBit gain 10 + atBit (leAt p 2 1) 9 + atBit (leAt p 0 1) 8 + leAt p 3 1
  let idle (x : Xk) : Xk := if x.rx == .search then { x with gain := 2 * gain } else x
  checks (lenIs h p 8 ++
    [badIf (1 < leAt p 0 1 ∨ 63 < gain ∨ 1 < leAt p 2 1 ∨ 15 < leAt p 3 1 ∨ 32767 < leAt p 6 2) 0x12,
     busy s 0x0604 p])
    (.ok (xkMod idle (regSet 0x9014 (w32 (leAt p 4 2 + atBit (leAt p 6 2) 16)) (regSet 0x9010 (w32 cfg) s))) [])

def cmdXkStats : CmdFun := fun h p s =>
  let n := leAt p 0 1
  let e := peerOf s n
  checks (lenIs h p 4 ++ [badIf (15 < n) 0x12, rsv p 1 3, busy s 0x0605 p])
    (.ok s (leBytes 4 e.tx ++ leBytes 4 e.rx ++ leBytes 4 e.nRetries ++ leBytes 4 e.nDropped ++ leBytes 4 e.hdrCrc ++
      leBytes 4 e.payCrc ++ leBytes 4 (mapKbps ((e.txMaps.head?).map (·.2)) s.xk.cp)))

/-- The embedded request goes to the node, or into this node's own queue for MB_7. (DEDUCED, log entry 59) -/
def relayStart (cmd node : Nat) (d : List Byte) (s : State) : State :=
  let s := xkMod (fun x => { x with relays := x.relays ++ [(cmd, node, x.cycle)] }) s
  if node = s.xk.node then xkMod (fun x => { x with relayIn := x.relayIn ++ [(node, d)] }) s
  else xkSend node 10 d s

def cmdXkRelay : CmdFun := fun h p s =>
  let n := leAt p 0 1
  checks [badIf (p.length < 16 ∨ p.length ≠ 16 + leAt p 12 2) 0x11, badIf (1 < h.flags.toNat) 0x12,
     badIf (15 < n) 0x12, rsv p 1 7, (!xkJoined s || !bitAt s.xk.present n, 0x21), busy s 0x0606 p]
    (let q := accept h 0x0606 n p none 0 s
     .accepted (relayNext (relayStart q.2 n (p.drop 8) q.1)))

/-- The bytes of the range that MODEL_LOAD named, as they are now (R864, R866); a buffer that was moved is followed.
(DEDUCED, log entry 58) -/
def bcastData (md : Model) (s : State) : State × List Byte :=
  let (hv, base, off, n) := md.src
  let b := if handleOk s hv then (handleOf s (hv % 256)).base else base
  let q := supRead (b + off) n s
  (q.1, q.2.2 ++ List.replicate (n - q.2.2.length) 0)

/-- The largest fragment that fits a slot after its STATUS frame (R841), at most 4,080 B. (DEDUCED, log entry 58) -/
def bcastFrag (s : State) : Nat :=
  let st : XkFrame := { dest := 16, kind := 1, seq := 0, body := List.replicate 128 0 }
  let room := s.xk.slotUs * 1000 - (frameAir s st + 2 * gapNs s + 19456)
  let bits := room / symTime s.xk.cp 1 * 369
  min 4080 (max 1 ((bits - 6) / 8 - 20))

/-- Start a broadcast of an image to a mask of nodes; this node is no recipient of its own frames.
(DEDUCED, log entry 58) -/
def bcastStart (cmd nodes : Nat) (data : List Byte) (s : State) : State :=
  let ok := (nodesOf nodes).filter fun n => bitAt s.xk.present n && decide (n ≠ s.xk.node)
  let frag := bcastFrag s
  let b : BcastTx :=
    { cmd := cmd, xfer := s.xk.xferNext, data := data, frag := frag,
      queue := if ok.isEmpty then [] else (natsFrom 0 (cdiv data.length frag)).map (· * frag), round := 0, waiting := ok,
      loaded := 0, failed := nodes - maskOf ok, missing := [], lastCycle := s.xk.cycle }
  bcastCheck (xkMod (fun x => { x with bcastTx := x.bcastTx ++ [b], xferNext := (x.xferNext + 1) % 65536 }) s)

def cmdXkModelBcast : CmdFun := fun h p s =>
  let m := leAt p 0 1
  checks (lenIs h p 4 ++
    [badIf (31 < m) 0x12, rsv p 1 1, (!xkJoined s || (modelOf s m).isNone, 0x21), busy s 0x0607 p])
    (match modelOf s m with
     | none => .stop 0x21 []
     | some md =>
       let q := accept h 0x0607 m p none 0 s
       let r := bcastData md q.1
       .accepted (bcastStart q.2 (leAt p 2 2) r.2 r.1))

def execXkConfig (h : Hdr) (p : List Byte) (s : State) : Host.Outcome State Fault Refusal :=
  done (cmdRow 0x0600 (some 4) cmdXkConfig h p s)
def execXkJoin (h : Hdr) (p : List Byte) (s : State) : Host.Outcome State Fault Refusal :=
  done (cmdRow 0x0601 (some 4) cmdXkJoin h p s)
def execXkLeave (h : Hdr) (p : List Byte) (s : State) : Host.Outcome State Fault Refusal :=
  done (cmdRow 0x0602 (some 4) cmdXkLeave h p s)
def execXkSound (h : Hdr) (p : List Byte) (s : State) : Host.Outcome State Fault Refusal :=
  done (cmdRow 0x0603 (some 4) cmdXkSound h p s)
def execXkRxSet (h : Hdr) (p : List Byte) (s : State) : Host.Outcome State Fault Refusal :=
  done (cmdRow 0x0604 (some 4) cmdXkRxSet h p s)
def execXkStats (h : Hdr) (p : List Byte) (s : State) : Host.Outcome State Fault Refusal :=
  done (cmdRow 0x0605 none cmdXkStats h p s)
def execXkRelay (h : Hdr) (p : List Byte) (s : State) : Host.Outcome State Fault Refusal :=
  done (cmdRow 0x0606 (some 4) cmdXkRelay h p s)
def execXkModelBcast (h : Hdr) (p : List Byte) (s : State) : Host.Outcome State Fault Refusal :=
  done (cmdRow 0x0607 (some 4) cmdXkModelBcast h p s)

end Sys2Proof.Machine
end

