-- ==== Sys2Proof/Machine/XkRecv.lean ====
section
/-! DEFINITION. What received Xanik frames do (15_xanik_network.md): delivery of bodies (R809, R845 to R848), far requests
and responses (R856 to R859), allreduce frames (R860 to R863), model broadcast (R865, R866), relay (R867, R751), tone
maps (R868 to R871). -/

namespace Sys2Proof.Machine

open Sys2Proof

/-! ## Far requests and responses -/

/-- One FAR_REQ entry is performed and answered (R858): four wide reads, or one write, each in class FAR when it has a
unit (R348, R351). (DEDUCED, log entry 39) -/
def farServe (src : Nat) (e d : List Byte) (s : State) : State :=
  let tag := leAt e 1 1
  let size := leAt e 2 2
  let off := leAt e 4 4
  let read := decide (leAt e 0 1 = 0)
  jobRun { who := .serve tag, write := !read, tag := 0x1B, det := src, cls := 3, data := d.take size,
           todo := if read then (natsFrom 0 4).map fun i => (off + 64 * i, 64) else [(off, size)] } s

/-- The entries of a FAR_REQ frame in order (R856). The first argument bounds them. (DEDUCED, log entry 59) -/
def farServeAll (src : Nat) : Nat → List Byte → State → State
  | 0, _, s => s
  | f + 1, d, s =>
    if d.length < 16 then s
    else
      let n := if leAt d 0 1 = 0 then 0 else cdiv (leAt d 2 2) 8 * 8
      farServeAll src f (d.drop (16 + n)) (farServe src (d.take 16) ((d.drop 16).take n) s)

/-- The entries of a FAR_RSP frame (R856); one for a request that has ended is discarded (R859). -/
def farTakeAll (src : Nat) : Nat → List Byte → State → State
  | 0, _, s => s
  | f + 1, d, s =>
    if d.length < 8 then s
    else
      let tag := leAt d 0 1
      let code := leAt d 1 1
      let n := if tag < 64 ∧ code = 0 then 256 else 0
      let mine (w : FarWait) : Bool := w.id == some tag && decide (w.node = src)
      farTakeAll src f (d.drop (8 + n)) (if s.xk.far.any mine then farComplete mine code ((d.drop 8).take n) s else s)

/-! ## Allreduce frames (R861) -/

def collKey (d : List Byte) : Nat := leAt d 0 8 * 256 + leAt d 8 1

def collTakeContrib (src : Nat) (d : List Byte) (s : State) : State :=
  if s.xk.net == .master && decide (16 ≤ d.length) then
    roundContrib (collKey d) (leAt d 9 1) (leAt d 10 1 == 1) (leAt d 12 2) src (leAt d 11 1 % 2) (d.drop 16) s
  else s

/-- A fragment of a result copy: it is this node's when its bit is in MASK; the first good copy completes the oldest
collective of the key. -/
def collTakeResult (d : List Byte) (s : State) : State :=
  let key := collKey d
  let mask := leAt d 14 2
  let data := d.drop 16
  match s.xk.colls.find? fun l => decide (l.key = key) && l.out with
  | none => s
  | some l =>
    let first := leAt d 11 1 % 2 = 0
    let got := if first then data else l.got ++ data
    if d.length < 16 ∨ !xkJoined s ∨ !bitAt mask s.xk.node ∨ (!first ∧ l.got.length ≠ 2048) then s
    else if bitAt (leAt d 11 1) 1 then collResultFor key got mask s
    else xkMod (fun x => { x with colls := x.colls.map fun q => if q = l then { q with got := got } else q }) s

/-! ## Model broadcast (R865, R866) -/

/-- Report to the sender of a transfer. -/
def bcastTell (src xfer st model : Nat) (miss : List Nat) (s : State) : State :=
  let m := miss.take 60
  xkSend src 9 (leBytes 2 xfer ++ [b8 st, 0] ++ leBytes 2 m.length ++ [b8 model, 0] ++ m.flatMap (leBytes 4)) s

/-- The fragment offsets not received: gaps between those held, in steps of the longest fragment.
(DEDUCED, log entry 58) -/
def bcastGaps (step total : Nat) : Nat → Nat → Tab (List Byte) → List Nat
  | 0, _, _ => []
  | f + 1, at_, [] => if at_ < total then at_ :: bcastGaps step total f (at_ + step) [] else []
  | f + 1, at_, e :: t =>
    if at_ < e.1 then at_ :: bcastGaps step total f (min e.1 (at_ + step)) (e :: t)
    else bcastGaps step total f (max at_ (e.1 + e.2.length)) t

def bcastMissing (r : BcastRx) : List Nat :=
  let step := r.frags.foldl (fun m e => max m e.2.length) 1
  bcastGaps step r.total (r.total + r.frags.length + 1) 0 r.frags

/-- A complete image: a SCRATCH buffer, the load, the buffer freed, the report (R866, R751). Answers the load status and
the model number. -/
def bcastLoad (img : List Byte) (s : State) : State × Nat × Nat :=
  if !hasRight s 7 (some 1) then (s, 0x60, 0xFF)
  else match allocate (cdiv img.length 4096) 15 (2 ^ 0x1C) .scratch false s with
    | none => (s, 0x30, 0xFF)
    | some (s1, i) =>
      let hv := handleVal s1 i
      let base := (handleOf s1 i).base
      let q := supWrite base img s1
      if q.2 ≠ 0 then (freeHandle i q.1, 0x40, 0xFF)
      else
        let r := loadImage img q.1
        let k := leAt r.res 0 1
        if r.status = 0 then (freeHandle i (modelSrc k (hv, base, 0, img.length) r.s), 0, k)
        else (freeHandle i r.s, r.status, 0xFF)

/-- Take what the transfer of a sender has come to. (DEDUCED, log entry 58) -/
def bcastSettle (src : Nat) (last : Bool) (off : Nat) (r : BcastRx) (s : State) : State :=
  let miss := bcastMissing r
  let put (r : BcastRx) (s : State) : State := xkMod (fun x => { x with bcastRx := tabSet x.bcastRx src r }) s
  if miss.isEmpty then
    let img := r.frags.flatMap (·.2)
    let s := bcastTell src r.xfer 0 0xFF [] (put { r with closed := true, frags := [] } s)
    let q := bcastLoad (img.take r.total) s
    let s := regSet 0x90B4 (w32 (q.2.2 + atBit src 8 + atBit q.2.1 16)) q.1
    bcastTell src r.xfer (if q.2.1 = 0 then 2 else 3) q.2.2 [] s
  else if last || r.asked.getLast? == some off then bcastTell src r.xfer 1 0xFF miss (put { r with asked := miss.take 60 } s)
  else put r s

/-- A fragment of an image (R865). A new XFER of a sender starts anew. -/
def bcastTake (src : Nat) (d : List Byte) (s : State) : State :=
  let xfer := leAt d 0 2
  let off := leAt d 4 4
  let total := leAt d 8 4
  let data := d.drop 16
  let fresh : BcastRx := { xfer := xfer, total := total, frags := [] }
  let r := match tabGet? s.xk.bcastRx src with
    | some r => if r.xfer = xfer ∧ r.total = total then r else fresh
    | none => fresh
  if r.closed || data.isEmpty || decide (total < off + data.length) then s
  else bcastSettle src (decide (off + data.length = total)) off { r with frags := tabSet r.frags off data } s

/-- A recipient's report reaches the sender (R865, R866). (DEDUCED, log entry 58) -/
def bcastHear (src : Nat) (d : List Byte) (s : State) : State :=
  let mine (b : BcastTx) : Bool := decide (b.xfer = leAt d 0 2) && b.waiting.contains src
  let st := leAt d 2 1
  if st = 2 then bcastReport mine src true s
  else if st = 3 then bcastReport mine src false s
  else if st = 1 then
    let miss := (natsFrom 0 (leAt d 4 2)).map fun i => leAt d (8 + 4 * i) 4
    let past (b : BcastTx) : Bool := mine b && decide (3 ≤ b.round) && b.queue.isEmpty
    let add (b : BcastTx) : BcastTx :=
      if mine b then { b with missing := b.missing ++ miss.filter fun o => !b.missing.contains o && decide (o < b.data.length) }
      else b
    bcastReport past src false (xkMod (fun x => { x with bcastTx := x.bcastTx.map add }) s)
  else s

/-! ## Relay (R867) -/

/-- A relayed request is queued, one per source. (DEDUCED, log entry 59) -/
def relayTake (src : Nat) (d : List Byte) (s : State) : State :=
  if (s.xk.relayIn.any fun e => decide (e.1 = src)) || s.xk.relayBusy == some src then s
  else relayNext (xkMod (fun x => { x with relayIn := x.relayIn ++ [(src, d)] }) s)

/-! ## Tone maps (R869, R870) -/

/-- A version takes its place before the others; at most two are kept. -/
def mapKeep (v : Nat) (m : List Byte) (l : List (Nat × List Byte)) : List (Nat × List Byte) :=
  (v, m) :: (l.filter fun e => decide (e.1 ≠ v)).take 1

def mapTake (src : Nat) (d : List Byte) (s : State) : State :=
  if mapValid d then
    soundFrom src (2 ^ src) (peerMod src (fun p => { p with txMaps := mapKeep (mapVersion d) d p.txMaps }) s)
  else s

/-- The next VERSION of a receive map. (DEDUCED, log entry 59) -/
def nextVersion (l : List (Nat × List Byte)) : Nat := match l with | e :: _ => (e.1 + 1) % 16 | [] => 0

/-- The symbols of a sounding body, under the prefix of the frame in progress, or of the segment. -/
def soundingRx (before samples : List (BitVec 12)) (s : State) : List RxSymbol :=
  let cp := match s.xk.hdr with | some h => h.cp | none => s.xk.cp
  rxSounding (clipOn s) (if cp then 256 else 128) before.length s.xk.chan s.xk.shift (adcValues (before ++ samples))

/-- A sounding body gives a receive map, which goes back to its sender (R793, R794, R869). -/
def soundTake (src : Nat) (before samples : List (BitVec 12)) (s : State) : State :=
  let ys := soundingRx before samples s
  let snr := soundSnr s.xk.chan ys
  let s := regAdd 0x906C 1 (clipCount (ys.countP (·.clipped)) s)
  let v := nextVersion (peerOf s src).rxMaps
  match buildMap v snr with
  | some m => xkSend src 12 m (peerMod src (fun p => { p with rxMaps := mapKeep v m p.rxMaps }) s)
  | none => s

/-! ## Delivery (R844, R847) -/

/-- A delivered acknowledged frame, by TYPE. -/
def deliver (kind src : Nat) (d : List Byte) (s : State) : State :=
  match kind with
  | 4 => farServeAll src 257 d s
  | 5 => schedTick (farTakeAll src 513 d s)
  | 6 => collTakeContrib src d s
  | 9 => bcastHear src d s
  | 10 => relayTake src d s
  | 11 => relayDone src d s
  | 12 => mapTake src d s
  | _ => s

/-- Frames of another present node reach this node while it is on the segment and its front end is ON. -/
def hears (s : State) (src : Nat) : Bool := xkOn s && xkReaches s src

/-- An acknowledged frame is received. (DEDUCED, log entry 55; DESIGN CHOICE, log entry 57) -/
def frameRx (kind src seq : Nat) (d : List Byte) (s : State) : State :=
  if hears s src then schedTick (rxFrame deliver src seq kind d s) else s

/-- A frame that is not acknowledged is received. -/
def castRx (kind src stamp : Nat) (d : List Byte) (s : State) : State :=
  match kind with
  | 0 => if d.length = 32 then beaconRx src d stamp s else s
  | 1 => if hears s src && decide (d.length = 128) then schedTick (statusRx deliver src d s) else s
  | 7 => if hears s src then schedTick (collTakeResult d s) else s
  | 8 => if hears s src then bcastTake src d s else s
  | _ => s

/-- How the body that a header announces was coded (R775, R776, R792). -/
def bodyForm (s : State) (h : XkHeader) (pre : Nat) : BodyForm :=
  let m := rxMapOf s h
  { codes := carrierCodes m, cbps := match m with | some m => mapCbps m | none => 738,
    rate := match m with | some m => mapRate m | none => 0, cp := if h.cp then 256 else 128,
    bits := 8 * (h.length + 4) + 6, clip := clipOn s, step := bitsOf s.xk.pktCfg 0 4,
    header := match s.xk.first with | some q => headerPoints q.2 | none => [], pre := pre }

/-- The body symbols as received (R783, R810 to R815). -/
def bodyRun (s : State) (h : XkHeader) (before samples : List (BitVec 12)) : BodyRun :=
  rxBody (bodyForm s h before.length) h.nsym s.xk.chan s.xk.shift (s.xk.first.map (·.1)) (adcValues (before ++ samples))

/-- The payload of a received body and its CRC-32C (R775). -/
def bodyBytes (h : XkHeader) (r : BodyRun) : List Byte := descrambled (h.length + 4) (vitEnd r.vit)

/-- A decoded body is delivered, or its CRC-32C fails (R809). (DESIGN CHOICE, log entry 57) -/
def bodyTake (h : XkHeader) (st : Nat) (bytes : List Byte) (s : State) : State :=
  let d := bytes.take h.length
  if leAt bytes h.length 4 ≠ crc32c d then
    peerMod h.src (fun p => { p with payCrc := satAdd 0xFFFFFFFF p.payCrc 1 }) (regAdd 0x9054 1 (regOr 0x9004 4 s))
  else if acked h.kind then (if h.bcast then s else frameRx h.kind h.src h.seq d s)
  else castRx h.kind h.src st d s

/-- BODY_DECODE (R778, R783, R809 to R815). -/
def bodyRx (before samples : List (BitVec 12)) (t : Nat) (s : State) : State :=
  let s := timeTo t s
  match s.xk.rx, s.xk.hdr, s.xk.stamp with
  | .receive, some h, some st =>
    let off := xkMod (fun x => { x with hdr := none })
    if h.sound then off (if hears s h.src then soundTake h.src before samples s else s)
    else if h.length = 0 then off s
    else
      let r := bodyRun s h before samples
      bodyTake h st (bodyBytes h r) (clipCount r.clips (off (xkMod (fun x => { x with chan := r.chan, shift := r.shift }) s)))
  | _, _, _ => s

def execBodyDecode (before samples : List (BitVec 12)) (t : Nat) (s : State) : Host.Outcome State Fault Refusal :=
  done (bodyRx before samples t s)

def execStatusFrame (src : Fin 16) (payload : List Byte) (s : State) : Host.Outcome State Fault Refusal :=
  done (castRx 1 src.val 0 payload s)
def execFarReq (src : Fin 16) (seq : BitVec 12) (payload : List Byte) (s : State) : Host.Outcome State Fault Refusal :=
  done (frameRx 4 src.val seq.toNat payload s)
def execFarRsp (src : Fin 16) (seq : BitVec 12) (payload : List Byte) (s : State) : Host.Outcome State Fault Refusal :=
  done (frameRx 5 src.val seq.toNat payload s)
def execCollContrib (src : Fin 16) (seq : BitVec 12) (payload : List Byte) (s : State) : Host.Outcome State Fault Refusal :=
  done (frameRx 6 src.val seq.toNat payload s)
def execCollResult (src : Fin 16) (payload : List Byte) (s : State) : Host.Outcome State Fault Refusal :=
  done (castRx 7 src.val 0 payload s)
def execModelData (src : Fin 16) (payload : List Byte) (s : State) : Host.Outcome State Fault Refusal :=
  done (castRx 8 src.val 0 payload s)
def execModelStatus (src : Fin 16) (seq : BitVec 12) (payload : List Byte) (s : State) : Host.Outcome State Fault Refusal :=
  done (frameRx 9 src.val seq.toNat payload s)
def execRelayReq (src : Fin 16) (seq : BitVec 12) (payload : List Byte) (s : State) : Host.Outcome State Fault Refusal :=
  done (frameRx 10 src.val seq.toNat payload s)
def execRelayRsp (src : Fin 16) (seq : BitVec 12) (payload : List Byte) (s : State) : Host.Outcome State Fault Refusal :=
  done (frameRx 11 src.val seq.toNat payload s)
def execMapFrame (src : Fin 16) (seq : BitVec 12) (payload : List Byte) (s : State) : Host.Outcome State Fault Refusal :=
  done (frameRx 12 src.val seq.toNat payload s)
def execSoundFrame (src : Fin 16) (samples : List (BitVec 12)) (s : State) : Host.Outcome State Fault Refusal :=
  done (if hears s src.val then soundTake src.val [] samples s else s)

/-! ## Timeouts -/

/-- Cycles since cycle c. -/
def cyclesSince (s : State) (c : Nat) : Nat := (s.xk.cycle + 2 ^ 32 - c) % 2 ^ 32

/-- RELAY_TIMEOUT (R867): no RELAY_RSP from the node within 16 cycles. -/
def relayLate (node : Nat) (s : State) : State :=
  match s.xk.relays.find? fun r => decide (r.2.1 = node) && decide (16 ≤ cyclesSince s r.2.2) with
  | some r => longDoneAt r.1 0x40 0 [] (xkMod (fun x => { x with relays := x.relays.erase r }) s)
  | none => s

/-- MODEL_BCAST_TIMEOUT (R866): 16 cycles after the last fragment, recipients that have not reported go into FAILED. -/
def bcastLate (s : State) : State :=
  let late (b : BcastTx) : Bool := b.queue.isEmpty && (b.missing.isEmpty || decide (3 ≤ b.round)) &&
    decide (16 ≤ cyclesSince s b.lastCycle)
  let f (b : BcastTx) : BcastTx := if late b then { b with waiting := [], failed := b.failed + maskOf b.waiting } else b
  bcastCheck (xkMod (fun x => { x with bcastTx := x.bcastTx.map f }) s)

/-- SOUND_TIMEOUT (R870): 8 cycles after the SOUND frame. -/
def soundLate (s : State) : State :=
  let f (q : Sounding) : Sounding := if 8 ≤ cyclesSince s q.cycle then { q with wait := [] } else q
  soundCheck (xkMod (fun x => { x with soundings := x.soundings.map f }) s)

def execRelayTimeout (node : Fin 16) (s : State) : Host.Outcome State Fault Refusal := done (relayLate node.val s)
def execModelBcastTimeout (s : State) : Host.Outcome State Fault Refusal := done (bcastLate s)
def execSoundTimeout (s : State) : Host.Outcome State Fault Refusal := done (soundLate s)

end Sys2Proof.Machine
end

