-- ==== Sys2Proof/Machine/Serve.lean ====
section
/-! DEFINITION. Serving the mailboxes (R691 to R703), the notices of long commands (R703, R730, R739, R754, R927), the two
supervisors (R677 to R686, R893), and the management port (R710 to R716). -/

namespace Sys2Proof.Machine

open Sys2Proof

/-! ## The command set (13_command_set.md) -/

def cmdsSys (op : Nat) : Option (Option Nat × CmdFun) :=
  match op with
  | 0x0100 => some (none, cmdNop)
  | 0x0101 => some (none, cmdGetInfo)
  | 0x0102 => some (some 6, cmdSysReset)
  | 0x0103 => some (none, cmdTimeMap)
  | _ => none

def cmdsStream (op : Nat) : Option (Option Nat × CmdFun) :=
  match op with
  | 0x0200 => some (some 0, cmdPortSet)
  | 0x0201 => some (some 0, cmdStreamSet)
  | 0x0202 => some (some 0, cmdStreamStart)
  | 0x0203 => some (some 0, cmdStreamStop)
  | 0x0204 => some (some 0, cmdColUpload)
  | 0x0205 => some (some 0, cmdCamRead)
  | 0x0206 => some (some 0, cmdCamWrite)
  | _ => none

def cmdsModel (op : Nat) : Option (Option Nat × CmdFun) :=
  match op with
  | 0x0300 => some (some 1, cmdModelLoad)
  | 0x0301 => some (some 1, cmdModelUnload)
  | 0x0302 => some (some 1, cmdModelBindExt)
  | 0x0303 => some (some 1, cmdCoresetForm)
  | 0x0304 => some (some 1, cmdCoresetDissolve)
  | 0x0305 => some (some 1, cmdGroupBind)
  | 0x0306 => some (some 1, cmdGroupStart)
  | 0x0307 => some (some 1, cmdGroupStop)
  | 0x0308 => some (some 1, cmdGroupSwap)
  | 0x0309 => some (some 1, cmdGroupUnbind)
  | 0x030A => some (some 1, cmdTaskAbort)
  | 0x030B => some (some 1, cmdEpochCancel)
  | _ => none

def cmdsMem (op : Nat) : Option (Option Nat × CmdFun) :=
  match op with
  | 0x0400 => some (some 2, cmdHandleAlloc)
  | 0x0401 => some (some 2, cmdHandleFree)
  | 0x0402 => some (none, cmdHandleQuery)
  | 0x0403 => some (some 2, cmdHandleLock)
  | 0x0404 => some (some 2, cmdHandleSet)
  | 0x0405 => some (some 2, cmdCompact)
  | 0x0406 => some (some 2, cmdSemSet)
  | 0x0407 => some (none, cmdSemQuery)
  | 0x0408 => some (some 2, cmdArrivalBind)
  | 0x0409 => some (some 2, cmdArrivalUnbind)
  | 0x040A => some (some 2, cmdRingDeclare)
  | 0x040B => some (some 2, cmdRingUndeclare)
  | 0x040C => some (some 2, cmdRingReset)
  | 0x040D => some (some 2, cmdFcSize)
  | 0x040E => some (some 2, cmdBwrSet)
  | _ => none

def cmdsLine (op : Nat) : Option (Option Nat × CmdFun) :=
  match op with
  | 0x0500 => some (some 3, cmdLtSet)
  | 0x0501 => some (some 3, cmdCalWrite)
  | 0x0502 => some (none, cmdCalRead)
  | 0x0503 => some (some 3, cmdCalDisable)
  | 0x0504 => some (some 3, cmdPhaseAdjust)
  | _ => none

def cmdsLink (op : Nat) : Option (Option Nat × CmdFun) :=
  match op with
  | 0x0600 => some (some 4, cmdXkConfig)
  | 0x0601 => some (some 4, cmdXkJoin)
  | 0x0602 => some (some 4, cmdXkLeave)
  | 0x0603 => some (some 4, cmdXkSound)
  | 0x0604 => some (some 4, cmdXkRxSet)
  | 0x0605 => some (none, cmdXkStats)
  | 0x0606 => some (some 4, cmdXkRelay)
  | 0x0607 => some (some 4, cmdXkModelBcast)
  | _ => none

def cmdsRepair (op : Nat) : Option (Option Nat × CmdFun) :=
  match op with
  | 0x0700 => some (some 5, cmdScrubSet)
  | 0x0701 => some (some 5, cmdCoreDisable)
  | 0x0702 => some (some 5, cmdCoreRelease)
  | 0x0703 => some (some 5, cmdCoreMap)
  | 0x0704 => some (some 5, cmdBankSpare)
  | 0x0705 => some (some 5, cmdBankTest)
  | 0x0706 => some (some 5, cmdRepairRecord)
  | 0x0707 => some (some 5, cmdSupRelease)
  | 0x0708 => some (some 5, cmdErrInject)
  | _ => none

def cmdsPower (op : Nat) : Option (Option Nat × CmdFun) :=
  match op with
  | 0x0800 => some (some 6, cmdDsGroupPower)
  | 0x0801 => some (some 6, cmdCorePower)
  | 0x0802 => some (some 6, cmdPortPower)
  | 0x0803 => some (some 6, cmdTrestlePower)
  | 0x0804 => some (some 6, cmdXkPower)
  | 0x0805 => some (some 6, cmdPocxpSet)
  | 0x0806 => some (some 6, cmdThermalSet)
  | 0x0807 => some (none, cmdPowerStatus)
  | _ => none

def cmdsFw (op : Nat) : Option (Option Nat × CmdFun) :=
  match op with
  | 0x0900 => some (none, cmdCfgGet)
  | 0x0901 => some (some 7, cmdCfgSet)
  | 0x0902 => some (some 7, cmdCfgCommit)
  | 0x0903 => some (some 7, cmdCfgDiscard)
  | 0x0904 => some (some 7, cmdFwStage)
  | 0x0905 => some (some 7, cmdFwHandover)
  | _ => none

def cmdsTrestle (op : Nat) : Option (Option Nat × CmdFun) :=
  match op with
  | 0x0A00 => some (some 1, cmdTrBoot)
  | 0x0A01 => some (some 1, cmdTrHalt)
  | 0x0A02 => some (some 1, cmdTrEvOwner)
  | _ => none

/-- The command that an OPCODE names, and the right it needs. -/
def cmdOf (op : Nat) : Option (Option Nat × CmdFun) :=
  match op / 256 with
  | 1 => cmdsSys op
  | 2 => cmdsStream op
  | 3 => cmdsModel op
  | 4 => cmdsMem op
  | 5 => cmdsLine op
  | 6 => cmdsLink op
  | 7 => cmdsRepair op
  | 8 => cmdsPower op
  | 9 => cmdsFw op
  | 10 => cmdsTrestle op
  | _ => none

/-! ## Serving a mailbox (R692, R695, R699) -/

/-- The PENDING mailbox whose doorbell came first. -/
def mbFirst (s : State) : Option Nat :=
  (natsFrom 0 8).foldl (fun b n =>
    if mbState s n ≠ 1 then b
    else match b with
      | some x => if (mbOf s n).order < (mbOf s x).order then some n else b
      | none => some n) none

/-- Bytes [0, n) of a request buffer. -/
def mbReq (s : State) (n k : Nat) : List Byte := (natsFrom 0 k).map (tabGet 0 (mbOf s n).req)

/-- The header of the request in mailbox n, its OPCODE and LENGTH. -/
def mbHead (s : State) (n : Nat) : Hdr × Nat × Nat :=
  let d := mbReq s n 8
  ({ mb := Fin.ofNat 8 n, seq := BitVec.ofNat 16 (leAt d 2 2), flags := BitVec.ofNat 16 (leAt d 6 2) }, leAt d 0 2, leAt d 4 2)

/-- The request of a mailbox as far as its commit, and the response to post. -/
def mbRun (n : Nat) (s : State) : State × List Byte :=
  let (h, op, len) := mbHead s n
  serveCommit h op len ((mbReq s n (8 + min len 248)).drop 8) (cmdOf op) s

/-- MAILBOX_SERVE (R695): the request is copied (BUSY), checked, executed, committed and answered (DONE).
(DESIGN CHOICE, log entry 60) -/
def mbServe (s : State) : State :=
  match (if serves s then mbFirst s else none) with
  | none => s
  | some n =>
    let q := mbRun n (regField (mbBase n + 0x104) 0 3 2 s)
    schedTick (mbPost n (bitAt (mbHead s n).1.flags.toNat 0) q.2 q.1)

def execMailboxServe (s : State) : Host.Outcome State Fault Refusal := done (mbServe s)

/-! ## Long commands (R703, R730) -/

/-- Does a brown-out warning hold back flash steps (R927)? -/
def flashHeld (s : State) : Bool := regBits s 0x801C 0 8 != 0

/-- FW_STAGE's work: the image is verified as boot does, and written (R758). -/
def fwStageRun (key : Nat) (l : LongCmd) (s : State) : State :=
  let hv := leAt l.payload 0 2
  let q := if rangeIn s hv (leAt l.payload 4 4) (leAt l.payload 8 4) then bufRead hv (leAt l.payload 4 4) (leAt l.payload 8 4) s
    else (s, none)
  match q.2 with
  | none => longDoneAt key 0x40 0 [] q.1
  | some d =>
    match fwRefusal d with
    | some r => longDoneAt key 0x12 r [] q.1
    | none => longDoneAt key 0 0 (leBytes 4 (leAt d 4 4)) (fwStage d q.1)

/-- The work that a long command does when it completes: the flash commands, and a supervisor that never answered.
(DESIGN CHOICE, log entry 46) -/
def longWork (key : Nat) (l : LongCmd) (s : State) : State :=
  if l.opcode = 0x0707 then
    (match l.deadline with | some d => if d ≤ s.ts then longDoneAt key 0x40 0 [] s else s | none => s)
  else if flashHeld s then s
  else if l.opcode = 0x0706 then (let q := cfgRecord s; longDoneAt key 0 0 q.2 q.1)
  else if l.opcode = 0x0902 then (let q := cfgCommit s; longDoneAt key 0 0 q.2 q.1)
  else if l.opcode = 0x0904 then fwStageRun key l s
  else s

/-- The commands that a NOW stop overrode complete in the same step as it (R739). -/
def postOverridden (obj : Nat) (s : State) : State :=
  (s.sup.longs.filter fun e => e.2.opcode == 0x0203 && decide (e.2.obj = obj) && e.2.aux == 9).foldl
    (fun s' e => longPost e.1 s') s

/-- A command whose final status is known posts its notice. A repair with the record flag writes the store first; one
that a NOW stop overrode waits for it. (DESIGN CHOICE, log entry 46) -/
def longFinish (key : Nat) (l : LongCmd) (status : Nat) (s : State) : State :=
  if records l && status == 0 && flashHeld s then s
  else
    let s := if records l && status == 0 then (cfgRecord s).1 else s
    if l.opcode = 0x0602 then
      (match l.deadline with
       | some d => if s.ts < d then s else longPost key (leaveEnd s)
       | none => longPost key s)
    else if l.opcode = 0x0203 ∧ l.aux = 9 then
      (if s.sup.longs.any fun e => e.2.opcode == 0x0203 && decide (e.2.obj = l.obj) && e.2.aux == 1 then s
       else longPost key s)
    else if l.opcode = 0x0203 then longPost key (postOverridden l.obj s)
    else longPost key s

/-- LONG_COMMAND_COMPLETE (R703). A supervisor must run; during a takeover nothing is posted.
(DESIGN CHOICE, log entry 46) -/
def longComplete (key : Nat) (s : State) : State :=
  match (if s.sup.failed then none else tabGet? s.sup.longs key) with
  | none => s
  | some l =>
    let s := if l.done.isNone then longWork key l s else s
    match (tabGet? s.sup.longs key).bind (·.done) with
    | some d => longFinish key l d.1 s
    | none => s

def execLongCommandComplete (cmd : Nat) (s : State) : Host.Outcome State Fault Refusal :=
  done (schedTick (longComplete cmd s))

/-! ## Heartbeat and takeover (R678 to R685, R893) -/

def supMod (f : Sup → Sup) (s : State) : State := { s with sup := f s.sup }

/-- STANDBY_OK. -/
def standbyOk (s : State) : Bool := bitAt (regGet s 0x20).toNat 3
def setStandby (ok : Bool) (s : State) : State := regField 0x20 3 1 (b2n ok) s

/-- SOURCE of an entry of the active supervisor (R874). -/
def supSource (s : State) : Nat := 0x49 + activeSup s

/-- An event of GLB_SUP_EVENT with its log entry (R872). -/
def supEvent (bit code who : Nat) (s : State) : State := supLog code who (supSource s) (regOr 0x54 (2 ^ bit) s)

/-- A standby starts to answer; a SUP_RELEASE that waited for it completes. -/
def standbyBack (s : State) : State :=
  let s := supEvent 3 0x73 (1 - activeSup s) (setStandby true (supMod (fun x => { x with held := none }) s))
  longDone (fun l => l.opcode == 0x0707) 0 0 [] s

/-- Has a held supervisor been released by SUP_RELEASE? -/
def supReleased (s : State) : Bool := s.sup.longs.any fun e => e.2.opcode == 0x0707 && e.2.done.isNone

/-- SUP_HEARTBEAT (R678): from boot stage on, while the active supervisor runs. -/
def heartbeat (answers : Bool) (t : Nat) (s : State) : State :=
  let s := timeTo t s
  if s.sup.failed || regBits s 0x20 8 4 == 0 || decide (t < s.sup.lastHb + 1000000) then s
  else
    let s := regSet 0x50 (regGet s 0x50 + 1) (supMod (fun x => { x with lastHb := t }) s)
    if answers && !standbyOk s && (s.sup.held.isNone || supReleased s) then standbyBack s
    else if !answers && standbyOk s then supEvent 2 0x71 (1 - activeSup s) (setStandby false s)
    else s

def execSupHeartbeat (standbyAnswers : Bool) (t : Nat) (s : State) : Host.Outcome State Fault Refusal :=
  done (heartbeat standbyAnswers t s)

/-- The active supervisor stops. How far it was with the request it served is open: it had not begun one, or had copied
one (BUSY), or had committed one and not answered (R682). (DESIGN CHOICE, log entry 60) -/
def supFail (s : State) : State :=
  let v := (freeNow s).toNat % 3
  let f := if serves s then mbFirst s else none
  let s := supMod (fun x => { x with failed := true }) (freeStep s)
  match f, v with
  | some n, 1 => regField (mbBase n + 0x104) 0 3 2 s
  | some n, 2 => schedTick (mbRun n (regField (mbBase n + 0x104) 0 3 2 s)).1
  | _, _ => s

/-- HEARTBEAT_TIMEOUT (R680). (DEDUCED, log entry 61) -/
def heartbeatLost (t : Nat) (s : State) : State :=
  let s := timeTo t s
  if !s.sup.failed && standbyOk s && regBits s 0x20 8 4 != 0 && decide (s.sup.lastHb + 3000000 ≤ t) then supFail s else s

/-- SUP_FATAL_FAULT (R680). Without a standby no command is served any more. (DEDUCED, log entry 61) -/
def supFatal (t : Nat) (s : State) : State :=
  let s := timeTo t s
  if !s.sup.failed && regBits s 0x20 8 4 != 0 then supFail s else s

def execHeartbeatTimeout (t : Nat) (s : State) : Host.Outcome State Fault Refusal := done (heartbeatLost t s)
def execSupFatalFault (t : Nat) (s : State) : Host.Outcome State Fault Refusal := done (supFatal t s)

/-- Every mailbox in state BUSY is answered with SUP_CHANGED. -/
def busyChanged (s : State) : State :=
  (natsFrom 0 8).foldl (fun s' n =>
    if mbState s' n = 2 then
      let (h, op, _) := mbHead s' n
      mbPost n (bitAt h.flags.toNat 0) (msgBytes op h.seq.toNat 0x50 []) s'
    else s') s

/-- Does a long command write flash, with the write not known to be complete? -/
def flashWork (l : LongCmd) : Bool := l.done.isNone && (l.opcode == 0x0706 || l.opcode == 0x0902 || l.opcode == 0x0904)

/-- Long commands go on; whether an interrupted flash write is restarted is open (R683, R893).
(DESIGN CHOICE, log entry 60) -/
def longsResume (s : State) : State :=
  let v := bitAt (freeNow s).toNat 0
  let f (e : Nat × LongCmd) : Nat × LongCmd := (e.1, if flashWork e.2 then { e.2 with resumed := e.2.resumed || v } else e.2)
  freeStep (supMod (fun x => { x with longs := x.longs.map f }) s)

/-- A hand-over that the takeover cuts off ends with FAULT. (DESIGN CHOICE, log entry 60) -/
def handoverCut (s : State) : State :=
  match s.sup.handover with
  | some k => longDoneAt k 0x40 0 [] (supMod (fun x => { x with handover := none }) s)
  | none => s

/-- SUP_TAKEOVER (R681, R682, R685, R893). (DESIGN CHOICE, log entry 60) -/
def takeover (t : Nat) (s : State) : State :=
  let s := timeTo t s
  if s.sup.failed && standbyOk s then
    let old := activeSup s
    let s := supMod (fun x => { x with failed := false, held := some old, lastHb := t }) s
    let s := setStandby false (regField 0x20 2 1 (1 - old) s)
    let s := handoverCut (longsResume (busyChanged s))
    let s := notice 3 (1 - old) 0 1 [] (regOr 0x54 1 s)
    relayNext (supLog 0x70 (1 - old) (supSource s) s)
  else s

def execSupTakeover (t : Nat) (s : State) : Host.Outcome State Fault Refusal := done (takeover t s)

/-- HANDOVER_COMPLETE (R686): the staged firmware runs on the other supervisor. -/
def handoverDone (t : Nat) (s : State) : State :=
  let s := timeTo t s
  match s.sup.handover with
  | none => s
  | some k =>
    if s.sup.failed then s
    else
      let new := 1 - activeSup s
      let s := match s.sup.staged with
        | some (slot, ver) => regSet 8 (w32 ver) (supMod (fun x => { x with fwSlot := slot, staged := none }) s)
        | none => s
      let s := regField 0x20 2 1 new (supMod (fun x => { x with handover := none, lastHb := t }) s)
      let s := notice 3 new 0 2 [] (supEvent 1 0x72 new s)
      longDoneAt k 0 0 [b8 new, 0, 0, 0] s

def execHandoverComplete (t : Nat) (s : State) : Host.Outcome State Fault Refusal := done (handoverDone t s)

/-! ## Management port (R710 to R717) -/

/-- A complete word written at a pointer of the I²C space (R712). -/
def i2cWord (p v : Nat) (s : State) : State :=
  if 0x200 ≤ p then s
  else if p = 0x100 ∧ bitAt v 0 ∧ mbFree s 6 then mbGo 6 (regField 0x1D04 8 1 0 s)
  else regWrite32 .supA (0x1C00 + p) (w32 v) s

/-- Data bytes in words from a pointer on; a partial word is discarded. -/
def i2cData : Nat → List Byte → State → State
  | p, a :: b :: c :: d :: t, s => i2cData ((p + 4) % 65536) t (i2cWord p (ofLe [a, b, c, d]) s)
  | _, _, s => s

/-- I2C_WRITE (R711): pointer, high byte first, then data. (DEDUCED, log entry 62) -/
def i2cWrite (d : List Byte) (s : State) : State :=
  match d with
  | hi :: lo :: t =>
    let p := hi.toNat * 256 + lo.toNat
    if p % 4 = 0 then schedTick (i2cData p t s) else s
  | _ => s

def execI2cWrite (data : List Byte) (s : State) : Host.Outcome State Fault Refusal := done (i2cWrite data s)

/-- The word at a pointer, and the state after its capture (R712, R694). -/
def i2cFetch (p : Nat) (s : State) : State × List Byte :=
  if p < 0x100 then
    match mbWindow s (0x1C00 + p) 4 with
    | some d => (freeStep s, d)
    | none => (s, leBytes 4 0)
  else if p < 0x200 then (s, leBytes 4 (regRead32 9 (0x1C00 + p) s).toNat)
  else if p < 0x240 then (s, leBytes 4 (regRead32 9 (p - 0x200) s).toNat)
  else (s, leBytes 4 0)

/-- `n` words from a pointer on. -/
def i2cWords : Nat → Nat → State → State × List Byte
  | 0, _, s => (s, [])
  | n + 1, p, s =>
    let q := i2cFetch p s
    let r := i2cWords n ((p + 4) % 65536) q.1
    (r.1, q.2 ++ r.2)

/-- I2C_READ (R711). -/
def i2cRead (p len : Nat) (s : State) : State :=
  if p % 4 = 0 then
    let q := i2cWords (cdiv len 4) p s
    emit (.i2c (q.2.take len)) q.1
  else s

def execI2cRead (pointer : BitVec 16) (len : Nat) (s : State) : Host.Outcome State Fault Refusal :=
  done (i2cRead pointer.toNat len s)

/-- Is a byte string a good frame (R714, R715)? -/
def uartGood (d : List Byte) (gap : Bool) : Bool :=
  let n := leAt d 6 2
  !gap && decide (leAt d 0 2 = 0x5AA5) && decide (n ≤ 248) && decide (d.length = 12 + n) &&
    decide (crc16 ((d.drop 2).take (8 + n)) = leAt d (10 + n) 2)

/-- UART_FRAME (R715, R716). (DEDUCED, log entry 62) -/
def uartFrame (d : List Byte) (gap : Bool) (s : State) : State :=
  if !uartGood d gap then s
  else if mbFree s 6 then
    mbGo 6 (regField 0x1D04 8 1 1 (mbFill 6 0 ((d.drop 2).take (8 + leAt d 6 2)) s))
  else emit (.uart (uartBytes (msgBytes (leAt d 2 2) (leAt d 4 2) 0x20 []))) s

def execUartFrame (data : List Byte) (gap : Bool) (s : State) : Host.Outcome State Fault Refusal :=
  done (uartFrame data gap s)

end Sys2Proof.Machine
end

