-- ==== Sys2Proof/Machine/Boot.lean ====
section
/-! DEFINITION. Resets (R918 to R923, R928, R929, R1006) and the boot sequence to READY or to its failure (R934 to R953). -/

namespace Sys2Proof.Machine

open Sys2Proof

/-! ## What a reset leaves (R920) -/

/-- Registers that a reset of system scope keeps (R1006). -/
def keptRegs : List Nat := [0x6000, 0x6004, 0x6008, 0x6010, 0x6050, 0x6054] ++ (natsFrom 0 9).map fun c => 0x6020 + 4 * c

/-- The levels at the input pins are no state of the device: they stay. (DESIGN CHOICE, log entry 4) -/
def keptLevels (l : LineTime) (ts : Nat) : LineTime :=
  let enc (n : Nat) : Nat × Encoder :=
    let e := tabGet {} l.encs n
    (n, { encDefault n with a := e.a, b := e.b, z := e.z })
  { State.reset.lt with encs := (natsFrom 0 4).map enc, mLevel := l.mLevel, masterSince := ts, slowSince := some ts,
                        stoppedAt := ts, mRef := ts }

/-- Strobe outputs go low (R921). -/
def strobesLow (s : State) : State :=
  (s.strobes.filter fun e => e.2.active).foldl (fun s' e => emit (.strobe e.1 false s.ts) s') s

/-- A reset: `power` for power-on scope, with the cause register it leaves. (DEDUCED, log entry 63) -/
def resetTo (power : Bool) (cause : Word) (s0 : State) : State :=
  let s := strobesLow s0
  let ts := if power then 0 else s.ts
  let p : Power := { por := s.pwr.por, sysRst := s.pwr.sysRst, perst := s.pwr.perst, trst := s.pwr.trst,
                     tripHold := s.pwr.tripHold && !power, lastThrottle := ts, lastVid := ts,
                     aer := if power then 0 else s.pwr.aer }
  let regs := if power then [] else s.regs.filter fun e => keptRegs.contains e.1
  let r : State := { State.reset with
    pending := s.pending, free := s.free, ts := ts, emitted := s.emitted, flash := s.flash, jtag := s.jtag,
    log := if power then [] else s.log, regs := regs, lt := keptLevels s.lt ts, lastRefill := ts, pinWin := ts, pwr := p,
    sup := { lastHb := ts } }
  regSet 0x8020 cause r

/-- The cause register after a reset of system scope: the cause bit added. -/
def resetSystem (bit : Nat) (s : State) : State := resetTo false (regGet s 0x8020 ||| w32 (2 ^ bit)) s

/-- The causes of the resets that a source holds. -/
def heldCauses (s : State) : Word := w32 (b2n s.pwr.por + atBit (b2n s.pwr.sysRst) 2 + atBit (b2n s.pwr.tripHold) 6)

/-- The cause register after a reset of power-on scope: its own cause (R920), those of the resets held with it, and what
was recorded while POR_N was low (R923). -/
def powerCause (bits : Nat) (s : State) : Word := w32 bits ||| heldCauses s ||| (if s.pwr.por then regGet s 0x8020 else 0)

/-- POR_N (R919, R922): low resets and holds; the release ends the same reset, and TS counts from it (R94).
(DEDUCED, log entry 63) -/
def porPin (level : Bool) (t : Nat) (s : State) : State :=
  if level then
    if s.pwr.por then resetTo true (powerCause 1 s) (pwrMod (fun p => { p with por := false }) s) else timeTo t s
  else resetTo true (powerCause 1 s) (pwrMod (fun p => { p with por := true }) s)

/-- SYS_RST_N. (DEDUCED, log entry 63) -/
def sysRstPin (level : Bool) (t : Nat) (s : State) : State :=
  let s := timeTo t s
  if level then pwrMod (fun p => { p with sysRst := false }) s
  else resetSystem 2 (pwrMod (fun p => { p with sysRst := true }) s)

/-- PCIE_PERST_N (R919, R894). (DEDUCED, log entry 63) -/
def perstPin (level : Bool) (t : Nat) (s : State) : State :=
  let s := timeTo t s
  if level then pwrMod (fun p => { p with perst := false }) s
  else linkLost (pwrMod (fun p => { p with perst := true }) s)

/-- TRST_N: the test access port alone. -/
def trstPin (level : Bool) (t : Nat) (s : State) : State :=
  let s := timeTo t s
  if level then pwrMod (fun p => { p with trst := false }) s
  else { pwrMod (fun p => { p with trst := true }) s with jtag := {} }

def execPorN (level : Bool) (t : Nat) (s : State) : Host.Outcome State Fault Refusal := done (porPin level t s)
def execSysRstN (level : Bool) (t : Nat) (s : State) : Host.Outcome State Fault Refusal := done (sysRstPin level t s)
def execPciePerstN (level : Bool) (t : Nat) (s : State) : Host.Outcome State Fault Refusal := done (perstPin level t s)
def execTrstN (level : Bool) (t : Nat) (s : State) : Host.Outcome State Fault Refusal := done (trstPin level t s)

/-- BROWN_OUT_RESET (R919, R928, R929, R966): VDD_XK turns the Xanik domain off, VDD_AON and VDDIO_18 reset with power-on
scope, the others with system scope. (DEDUCED, log entry 63) -/
def brownOut (rail t : Nat) (s : State) : State :=
  let s := timeTo t s
  if rail = 5 then
    let s := if s.xk.net == .detached then s else xkOut .detached s
    regOr 0x8004 0x10 (xkDown (domPut 95 {} s))
  else if rail = 2 then resetTo true (setField (powerCause 0x20 s) 8 3 rail) s
  else if rail = 6 then resetTo true (setField (powerCause 0x10 s) 8 3 rail) s
  else resetTo false (setField (regGet s 0x8020 ||| 0x10) 8 3 rail) s

def execBrownOutReset (rail : Fin 8) (t : Nat) (s : State) : Host.Outcome State Fault Refusal := done (brownOut rail.val t s)

/-- THERMAL_SAMPLE (R912, R918): Tj is the highest reading; 125 °C for 100 µs trips; below 110 °C the trip ends.
(DEDUCED, log entry 66) -/
def thermalSample (temps : List Int) (t : Nat) (s : State) : State :=
  let s := timeTo t s
  match temps with
  | [] => s
  | x :: l =>
    let tj := l.foldl max x
    if s.pwr.tripHold then pwrMod (fun p => { p with tripHold := decide (1100 ≤ tj) }) s
    else if inReset s then s
    else
      let s := tjUpdate tj s
      if tj < 1250 then pwrMod (fun p => { p with hotSince := none }) s
      else match s.pwr.hotSince with
        | none => pwrMod (fun p => { p with hotSince := some t }) s
        | some u => if t < u + 100000 then s else resetSystem 6 (pwrMod (fun p => { p with tripHold := true }) s)

def execThermalSample (temps : List Int) (t : Nat) (s : State) : Host.Outcome State Fault Refusal :=
  done (thermalSample temps t s)

/-- A SYS_RESET that is due is performed when the block has nothing else to do (R734).
(DESIGN CHOICE, log entry 1; DEDUCED, log entry 66) -/
def idleStep (s : State) : State :=
  match s.pwr.sysResetAt with
  | some u => settle (resetSystem 3 (timeTo u s))
  | none => s

/-! ## Repair records (R897, R898) -/

/-- No number occurs twice. -/
def allDistinct : List Nat → Bool
  | [] => true
  | a :: t => !t.contains a && allDistinct t

/-- Bits of a byte string. -/
def bitIn (d : List Byte) (off i : Nat) : Bool := bitAt (leAt d (off + i / 8) 1) (i % 8)

def coreMapOk (d : List Byte) : Bool :=
  let ps := ((natsFrom 0 64).map fun c => leAt d c 1).filter fun p => p ≠ 0xFF
  decide (d.length = 80) && allDistinct ps && ps.all (fun p => decide (p < 68) && !bitIn d 64 p) &&
    decide (leAt d 72 1 < 16) && zeroAt d 73 7

def bankMapOk (d : List Byte) : Bool :=
  let ps := (natsFrom 0 256).map fun b => leAt d (2 * b) 2
  decide (d.length = 560) && allDistinct ps && ps.all (fun p => decide (p < 272) && !bitIn d 512 p) && zeroAt d 546 14

/-- The maps that boot starts from: logical core to physical core, QUARANTINED; logical bank to bank, OUT. -/
structure BootMaps where
  cores : Tab Nat
  quar : List Nat
  banks : Tab Nat
  out : List Nat
  deriving DecidableEq, Repr

/-- The record of an item, if the copy in force has a good one; a bad one is logged (CODE 0x74). -/
def recordOf (key detail : Nat) (ok : List Byte → Bool) (s : State) : State × Option (List Byte) :=
  match tabGet? s.sup.cfg key with
  | none => (s, none)
  | some d => if ok d then (s, some d) else (supLog 0x74 detail (supSource s) s, none)

def bootRecords (s : State) : State × BootMaps :=
  let c := recordOf 0x8000 0 coreMapOk s
  let b := recordOf 0x8100 1 bankMapOk c.1
  let cores := match c.2 with
    | some d => (resetCoreMap.map fun e => (e.1, leAt d e.1 1)).filter fun e => e.2 ≠ 0xFF
    | none => resetCoreMap
  let quar := match c.2 with | some d => (natsFrom 0 68).filter (bitIn d 64) | none => []
  let banks := match b.2 with
    | some d => ((natsFrom 0 256).map fun x => (x, leAt d (2 * x) 2)).filter fun e => e.1 ≠ e.2
    | none => []
  let out := match b.2 with | some d => (natsFrom 0 272).filter (bitIn d 512) | none => []
  (b.1, { cores := cores, quar := quar, banks := banks, out := out })

/-! ## Self-test repairs (R938, R951, R952) -/

/-- A failed core's logical core is mapped to a spare, the same quadrant first, or left unmapped (R892, R435).
(DEDUCED, log entry 65) -/
def bootCore (good : Nat → Bool) (p : Nat) (m : Tab Nat) : Tab Nat :=
  match m.find? fun e => e.2 = p with
  | none => m
  | some (c, _) =>
    let free := (natsFrom 0 68).filter fun k => good k && !(m.any fun e => decide (e.2 = k))
    match (free.find? fun k => k / 17 = p / 17).orElse fun _ => free.head? with
    | some k => tabSet m c k
    | none => tabDel m c

/-- Where a logical bank is: the lowest free spare takes the place of a failed one; none is left for it (false).
(DEDUCED, log entry 65) -/
def bootBank (bad : Nat → Bool) (b : Nat) (q : Tab Nat × Bool) : Tab Nat × Bool :=
  if !bad (tabGet b q.1 b) then q
  else match (natsFrom 256 16).find? fun k => !bad k && !(q.1.any fun e => decide (e.2 = k)) with
    | some k => (tabSet q.1 b k, q.2)
    | none => (q.1, false)

/-- Stage 0x5 after the self-tests: maps, bank groups, cores and ports; the failure code, 0 if none.
(DESIGN CHOICE, log entry 2; DEDUCED, log entry 65) -/
def bootStage5 (x : BootTests) (s : State) : State × Nat :=
  let q := bootRecords s
  let m := q.2
  let fc := (natsFrom 0 68).filter fun p => x.cores.contains p && !m.quar.contains p
  let fb := (natsFrom 0 272).filter fun b => x.banks.contains b && !m.out.contains b
  let fp := (natsFrom 0 6).filter fun p => x.ports.contains p
  let quar := (natsFrom 0 68).filter fun p => m.quar.contains p || fc.contains p
  let out := (natsFrom 0 272).filter fun b => m.out.contains b || fb.contains b
  let cores := fc.foldl (fun t p => bootCore (fun k => !quar.contains k) p t) m.cores
  let banks := (natsFrom 0 256).foldl (fun q b => bootBank (fun k => out.contains k) b q) (m.banks, true)
  let whole := (natsFrom 0 17).find? fun g => (natsFrom (16 * g) 16).all fun b => !out.contains b
  let limp := if banks.2 then none else whole
  let spare := banks.1.any fun e => decide (256 ≤ e.2)
  let on := match limp with
    | some g => [g]
    | none => natsFrom 0 (if spare then 17 else 16)
  let core (p : Nat) : Nat × Core :=
    (p, { state := if quar.contains p then .quarantined else if cores.any (fun e => decide (e.2 = p)) then .mapped else .off })
  let doms := (cores.map (·.2)).foldl (fun t p => tabSet t p { on := true : Domain }) []
  let doms := ((natsFrom 0 6).filter fun p => !fp.contains p).foldl (fun t p => tabSet t (85 + p) { on := true : Domain }) doms
  let s := { q.1 with
    coreMap := cores, cores := ((natsFrom 0 68).map core).filter fun e => e.2.state != .off, bankMap := banks.1,
    bankOut := out, limp := limp, groups := on.map fun g => (g, .on), mem := [], ecc := [], near := [], nearEcc := [] }
  let s := pwrMod (fun p => { p with doms := doms }) s
  let boot := (fp.foldl (fun n p => n + 2 ^ (2 + p)) 0) + atBit (min 255 fb.length) 8 + atBit (min 255 fc.length) 16
  let s := regOr 0x8024 boot (regOr 0x20 0x10 s)
  (s, if whole.isNone then 2 else if quar.length = 68 then 3 else if fp.length = 6 then 4 else 0)

/-! ## The stages (R934 to R940) -/

def stageTo (n : Nat) (s : State) : State := regField 0x20 8 4 n s

/-- Boot stops with a FAIL code. (DEDUCED, log entry 65) -/
def bootStop (fail : Nat) (s : State) : State := regField 0x8024 28 4 fail s

/-- The configuration items in force, or the defaults. -/
def cfgOf (s : State) (item index : Nat) : Nat := ofLe (cfgShown s item index false)

/-- Stage 0x6: the notice queue (R704), READY. -/
def bootReady (t : Nat) (s : State) : State :=
  match allocate 1 5 (2 ^ 0x1C + 2 ^ 0x18) .fixed false s with
  | none => s
  | some (s', i) =>
    let s := regSet 0x2200 (w32 (handleOf s' i).base) s'
    let s := supMod (fun x => { x with lastHb := t }) (stageTo 6 s)
    regOr 0x20 (1 + 2 * b2n s.limp.isSome) s

/-- Stages 0x5 and 0x6. -/
def bootLate (x : BootTests) (t : Nat) (s : State) : State :=
  let q := bootStage5 x (stageTo 5 (pwrMod (fun p => { p with bootWait := none }) s))
  if q.2 = 0 then bootReady t q.1 else bootStop q.2 q.1

/-- Stage 0x3: items applied, rights of MB_0 to MB_7, thermal thresholds of the grade (R687, R913). -/
def bootItems (s : State) : State :=
  let s := (natsFrom 0 8).foldl (fun s' n =>
    regSet (mbBase n + 0x10C) (w32 (if n = 6 then 0xFF else cfgOf s' 1 n)) s') s
  regSet 0x8010 (if Config.commercial then 0x5A55 else 0x645F) s

/-- Stages 0x0 to 0x4. Without a supervisor nothing runs; without firmware boot stops at the verification. -/
def bootEarly (x : BootTests) (t : Nat) (s : State) : State :=
  let c := cfgChoose s
  let s := match c with
    | some (copy, seq, items) => supMod (fun u => { u with cfg := items, cfgCopy := copy, cfgSeq := some seq }) s
    | none => s
  let aBad := x.supAFailed || leAt (tabGet [] s.sup.cfg 0x600) 0 1 == 1
  if aBad && x.supBFailed then s
  else
    let s := if aBad then regOr 0x20 4 (supMod (fun u => { u with held := some 0 }) s)
      else if x.supBFailed then supMod (fun u => { u with held := some 1 }) s
      else regOr 0x20 8 s
    match fwChoose s with
    | none => bootStop 1 (stageTo 2 s)
    | some (slot, ver) =>
      let s := regSet 8 (w32 ver) (supMod (fun u => { u with fwSlot := slot }) s)
      let s := stageTo 4 (bootItems (regSet 0x8024 (w32 (slot + 2 * s.sup.cfgCopy)) s))
      if s.pwr.perst then pwrMod (fun p => { p with bootWait := some x }) s
      else bootLate x t (pwrMod (fun p => { p with linkUp := true, linkRate := 4, linkLanes := 8 }) s)

/-- POWER_GOOD (R922, R934): both reset pins are released. What was done while they were low is gone.
(DEDUCED, log entry 63; DEDUCED, log entry 65) -/
def powerGood (x : BootTests) (t : Nat) (s : State) : State :=
  let s := timeTo t s
  if inReset s || s.pwr.started then s
  else bootEarly x t (pwrMod (fun p => { p with started := true }) (resetTo false (regGet s 0x8020) s))

def execPowerGood (tests : BootTests) (t : Nat) (s : State) : Host.Outcome State Fault Refusal := done (powerGood tests t s)

/-- The largest of some supported values that is not above the one asked for; the first when all are (R41). -/
def fitTo (l : List Nat) (x : Nat) : Nat := l.foldl (fun b v => if v ≤ x then v else b) (l.headD 0)

/-- The link as trained, and the function as set, within the supported subset (R41). -/
def linkFit (x : LinkSettings) (busMaster : Bool) (p : Power) : Power :=
  { p with linkUp := true, linkRate := fitTo [1, 2, 3, 4] x.rate, linkLanes := fitTo [1, 2, 4, 8] x.lanes,
           maxPayload := fitTo [128, 256, 512] x.payload, maxRead := fitTo [128, 256, 512, 1024, 2048, 4096] x.readReq,
           busMaster := busMaster, d3hot := x.d3hot, aspmL1 := x.aspmL1 }

/-- LINK_TRAINING (R936, R41, R722): the link is in L0 with what the host has set, messages that it no longer holds back go;
boot goes on where it waited.
(PRESUMED, log entry 64; DEDUCED, log entry 65) -/
def linkTrain (x : LinkSettings) (busMaster funcMask : Bool) (t : Nat) (s : State) : State :=
  let s := timeTo t s
  if inReset s || s.pwr.perst || regBits s 0x20 8 4 < 4 then s
  else
    let s := (natsFrom 0 64).foldl (fun s' v => msixFlush v s') { pwrMod (linkFit x busMaster) s with funcMask := funcMask }
    match s.pwr.bootWait with
    | some x => bootLate x t s
    | none => s

def execLinkTraining (link : LinkSettings) (busMaster funcMask : Bool) (t : Nat) (s : State) :
    Host.Outcome State Fault Refusal := done (linkTrain link busMaster funcMask t s)

/-- BOOT_FAIL (R940): "BOOT FAIL n" and a line end. (DEDUCED, log entry 65) -/
def bootFail (t : Nat) (s : State) : State :=
  let s := timeTo t s
  let n := regBits s 0x8024 28 4
  if n = 0 then s
  else emit (.uart [0x42, 0x4F, 0x4F, 0x54, 0x20, 0x46, 0x41, 0x49, 0x4C, 0x20, b8 (0x30 + n), 0x0D, 0x0A]) s

def execBootFail (t : Nat) (s : State) : Host.Outcome State Fault Refusal := done (bootFail t s)

end Sys2Proof.Machine
end

