-- ==== Sys2Proof/Machine/Held.lean ====
section
/-! DEFINITION. The refill of the regulator's buckets (R351) and what it lets go on: the accesses that wait for a unit,
the accesses of issued tile-ops, and far requests. -/

namespace Sys2Proof.Machine

open Sys2Proof

/-- A held access tried again: made, or held anew behind those of its class that were before it. -/
def heldTry (h : Held) (s : State) : State :=
  match h.acc with
  | .deep r => deepAccess r s
  | .far r => farAccess r s
  | .job j => jobRun j s

/-- The held accesses, oldest first (R351, R352): a class without a unit holds up only its own. -/
def heldServe (s : State) : State := s.held.foldl (fun s' h => heldTry h s') { s with held := [] }

/-- What waits for the buckets goes on: held accesses, far requests, the LOADs, GATHERs and STOREs that are issued. -/
def bucketServe (s : State) : State := opsGoOn (farRetag (heldServe s))

/-- BUCKET_REFILL (R351). -/
def execBucketRefill (t : Nat) (s : State) : Host.Outcome State Fault Refusal :=
  done (schedTick (bucketServe (refillTo t (tsTo t s))))

end Sys2Proof.Machine
end

