-- ==== Sys2Proof/Machine/TrMem.lean ====
section
/-! DEFINITION. Memory as a Trestle core reaches it: physical attributes and access faults (R642, R643, R646 to R649, R652),
physical memory protection, Sv39 and Sv48 translation with Svpbmt (R641; the RISC-V Privileged Architecture 1.12), loads
and stores by virtual address. A far load waits: the instruction is tried again until its line has come. -/

namespace Sys2Proof.Machine

open Sys2Proof

/-- Kind of an access. -/
inductive TrAcc where
  | fetch | load | store
  deriving DecidableEq, Repr

/-- Exception codes of a kind: address misaligned, access fault, page fault. -/
def accMis : TrAcc → Nat | .fetch => 0 | .load => 4 | .store => 6
def accFault : TrAcc → Nat | .fetch => 1 | .load => 5 | .store => 7
def accPage : TrAcc → Nat | .fetch => 12 | .load => 13 | .store => 15

/-- What an access comes to: a value, an exception with its code and tval, or it is not answered yet. -/
inductive TrRes where
  | ok (v : Nat)
  | trap (cause tval : Nat)
  | stall
  deriving DecidableEq, Repr

/-! ## Physical accesses -/

/-- Kind of a physical address: cacheable main memory, other memory of the fabric, control space, cluster-local region,
nothing (R642, R646). -/
inductive PhKind where
  | mem | unc | io | cl | bad
  deriving DecidableEq, Repr

def phKind (pa : Nat) : PhKind :=
  if 2 ^ 41 ≤ pa then .bad
  else if 2 ^ 40 ≤ pa then (if pa < 2 ^ 40 + 0x10000 then .cl else .bad)
  else if pa < 0x40000000 then .mem
  else if 0x3000000000 ≤ pa ∧ pa < 0x3000040000 then .io
  else .unc

/-- Is it cacheable for this page? -/
def phCached (pa : Nat) (nc : Bool) : Bool := phKind pa == .mem && !nc

/-- Bytes of the L2 from `pa` on, across line ends. The first argument bounds the lines. -/
def l2Bytes (c : Nat) : Nat → Nat → Nat → State → State × Nat × List Byte
  | 0, _, _, s => (s, 0, [])
  | f + 1, pa, n, s =>
    if n = 0 then (s, 0, [])
    else
      let k := min n (64 - pa % 64)
      let q := l2Read c (pa / 64) (pa % 64) k s
      if q.2.1 ≠ 0 then (q.1, q.2.1, [])
      else
        let r := l2Bytes c f (pa + k) (n - k) q.1
        (r.1, r.2.1, q.2.2 ++ r.2.2)

/-- The far line of an address in a node window that is not this node's. (DESIGN CHOICE, log entry 37) -/
def trFar (s : State) (pa : Nat) : Option (Nat × Nat) :=
  match farWindow pa with
  | some (n, off) => if xkJoined s && decide (n = s.xk.node) then none else some (n, off)
  | none => none

/-- Is the line on its way for this core? (DESIGN CHOICE, log entry 37) -/
def trWaits (s : State) (c n off : Nat) : Bool :=
  s.xk.far.any fun w => !w.write && decide (w.tag = 0x10 + c) && decide (w.node = n) && decide (w.offset / 256 = off / 256) &&
    w.mode == .engine

/-- A read over the fabric: none while the answer is awaited; an error response answers `some none`. -/
def trFabRead (c pa n : Nat) (s : State) : State × Option (Option Nat) :=
  let r : DsReq := ⟨0x10 + c, 0, .addr pa, false, false, n, []⟩
  let take (p : Reply) : Option Nat := if p.resp = 0 then some (ofLe p.data) else none
  match trFar s pa with
  | none => let q := fabAccess r pa .reply s; (q.1, q.2.map take)
  | some (node, off) =>
    match tabGet? s.xk.got (gotKey (0x10 + c) 0 node (off / 256)) with
    | some g => (s, some (take { g with data := (g.data.drop (off % 256)).take n }))
    | none =>
      if trWaits s c node off then (s, none)
      else if !fabReady s r pa then (bwStall 3 s, none)
      else let q := fabAccess r pa .engine s; (q.1, q.2.map take)

/-- A physical read of n bytes. -/
def trPhRead (c pa n : Nat) (nc : Bool) (s : State) : State × Option (Option Nat) :=
  match phKind pa with
  | .bad => (s, some none)
  | .cl => let q := clRead c (pa - 2 ^ 40) n s; (q.1, some (some q.2))
  | .io => trFabRead c pa n s
  | .unc => trFabRead c pa n s
  | .mem =>
    if nc then trFabRead c pa n s
    else
      let q := l2Bytes c (n + 1) pa n s
      (q.1, some (if q.2.1 = 0 then some (ofLe q.2.2) else none))

/-- Other harts lose a reservation on the lines written (R648). -/
def resvBreak (c pa n : Nat) (s : State) : State :=
  let hit (e : Nat × Hart) : Bool := e.1 ≠ c && (match e.2.resv with
    | some a => decide (a / 64 = pa / 64) || decide (a / 64 = (pa + n - 1) / 64)
    | none => false)
  { s with harts := s.harts.map fun e => if hit e then (e.1, { e.2 with resv := none }) else e }

/-- Bytes into the L2; a fill that is refused discards them and raises the store error (R69, R647). -/
def l2Put (c : Nat) : Nat → Nat → List Byte → State → State
  | 0, _, _, s => s
  | f + 1, pa, d, s =>
    if d.isEmpty then s
    else
      let k := min d.length (64 - pa % 64)
      let q := l2Write c (pa / 64) (pa % 64) (d.take k) s
      l2Put c f (pa + k) (d.drop k) (if q.2 = 0 then q.1 else storeError c q.1)

/-- A physical write; the access itself was found legal. Errors raise the store error (R69). -/
def trPhWrite (c pa : Nat) (d : List Byte) (nc : Bool) (s : State) : State :=
  let fab (s : State) : State :=
    let q := fabAccess ⟨0x10 + c, 0, .addr pa, false, true, d.length, d⟩ pa .reply s
    match q.2 with
    | some p => if p.resp = 0 then q.1 else storeError c q.1
    | none => q.1
  match phKind pa with
  | .bad => s
  | .cl => clWrite c (pa - 2 ^ 40) d.length (ofLe d) s
  | .io => regWrite (.trestle (Fin.ofNat 8 c)) (pa - 0x3000000000) d.length (ofLe d) s
  | .unc => fab s
  | .mem => if nc then fab s else l2Put c (d.length + 1) pa d (resvBreak c pa d.length s)

/-! ## Physical memory protection: 16 entries, granule 4 KiB -/

def pmpCfg (h : Hart) (i : Nat) : Nat := bitsOf (hcsr h (0x3A0 + 2 * (i / 8))) (8 * (i % 8)) 8
def pmpAddr (h : Hart) (i : Nat) : Nat := hcsr h (0x3B0 + i) % 2 ^ 54

/-- Trailing ones of a number. The first argument bounds them. -/
def trailOnes : Nat → Nat → Nat
  | 0, _ => 0
  | f + 1, n => if n % 2 = 1 then 1 + trailOnes f (n / 2) else 0

/-- The range of entry i: first byte and the byte after the last. -/
def pmpRange (h : Hart) (i : Nat) : Option (Nat × Nat) :=
  let top (n : Nat) : Nat := n / 1024 * 4096
  match bitsOf (pmpCfg h i) 3 2 with
  | 1 => some (if i = 0 then 0 else top (pmpAddr h (i - 1)), top (pmpAddr h i))
  | 3 =>
    let a := pmpAddr h i ||| 0x1FF
    let t := trailOnes 54 a
    some (a / 2 ^ (t + 1) * 2 ^ (t + 1) * 4, a / 2 ^ (t + 1) * 2 ^ (t + 1) * 4 + 2 ^ (t + 3))
  | _ => none

/-- May an access of n bytes at pa be made in a mode? The lowest-numbered entry that meets it decides.
(PRESUMED, log entry 31) -/
def pmpOk (h : Hart) (pa n priv : Nat) (acc : TrAcc) : Bool :=
  let meets (i : Nat) : Bool := match pmpRange h i with
    | some (lo, hi) => decide (lo < pa + n) && decide (pa < hi)
    | none => false
  match (natsFrom 0 16).find? meets with
  | none => decide (priv = 3)
  | some i =>
    match pmpRange h i with
    | none => false
    | some (lo, hi) =>
      let c := pmpCfg h i
      let perm := bitAt c (match acc with | .load => 0 | .store => 1 | .fetch => 2)
      decide (lo ≤ pa) && decide (pa + n ≤ hi) && ((priv = 3 && !bitAt c 7) || perm)

/-! ## Translation -/

/-- Where a virtual address leads: physical address and whether the page is not cacheable. -/
inductive TrPa where
  | ok (pa : Nat) (nc : Bool)
  | trap (cause : Nat)
  | stall
  deriving DecidableEq, Repr

/-- Is a leaf entry's permission good for the access? -/
def pteAllows (h : Hart) (pte priv : Nat) (acc : TrAcc) : Bool :=
  let st := hcsr h 0x300
  let user := bitAt pte 4
  let kind := match acc with
    | .fetch => bitAt pte 3
    | .load => bitAt pte 1 || (bitAt st 19 && bitAt pte 3)
    | .store => bitAt pte 2
  let mode := if priv = 0 then user else !user || (acc != .fetch && bitAt st 18)
  kind && mode && bitAt pte 6 && (acc != .store || bitAt pte 7)

/-- Does an entry use an encoding that is reserved here? Svpbmt is enabled by menvcfg.PBMTE. -/
def pteBad (h : Hart) (pte : Nat) (leaf : Bool) : Bool :=
  let pb := bitsOf pte 61 2
  !bitAt pte 0 || (!bitAt pte 1 && bitAt pte 2) || bitsOf pte 54 7 ≠ 0 || bitAt pte 63 || pb = 3 ||
    (pb ≠ 0 && (!leaf || !bitAt (hcsr h 0x30A) 62)) || (!leaf && (bitAt pte 4 || bitAt pte 6 || bitAt pte 7))

/-- The walk: `level` levels are left below this one. (PRESUMED, log entry 31; PRESUMED, log entry 32) -/
def trWalk (c : Nat) (h : Hart) (va priv : Nat) (acc : TrAcc) : Nat → Nat → State → State × TrPa
  | 0, _, s => (s, .trap (accPage acc))
  | level + 1, ppn, s =>
    let at_ := ppn * 4096 + bitsOf va (12 + 9 * level) 9 * 8
    if !pmpOk h at_ 8 1 .load then (s, .trap (accFault acc))
    else
      let q := trPhRead c at_ 8 false s
      match q.2 with
      | none => (q.1, .stall)
      | some none => (q.1, .trap (accFault acc))
      | some (some pte) =>
        let leaf := bitAt pte 1 || bitAt pte 3
        let next := bitsOf pte 10 44
        if pteBad h pte leaf then (q.1, .trap (accPage acc))
        else if !leaf then trWalk c h va priv acc level next q.1
        else if !pteAllows h pte priv acc || next % 2 ^ (9 * level) ≠ 0 then (q.1, .trap (accPage acc))
        else (q.1, .ok (next * 4096 + va % 2 ^ (12 + 9 * level)) (bitsOf pte 61 2 ≠ 0))

/-- The mode that an access is made in: MPRV lends loads and stores the mode of MPP. -/
def accPriv (h : Hart) (acc : TrAcc) : Nat :=
  let st := hcsr h 0x300
  if acc != .fetch && bitAt st 17 then bitsOf st 11 2 else h.priv

/-- Translate and check n bytes that lie in one page. -/
def trAddr (c : Nat) (h : Hart) (va n : Nat) (acc : TrAcc) (s : State) : State × TrPa :=
  let priv := accPriv h acc
  let satp := hcsr h 0x180
  let mode := satp / 2 ^ 60
  let q : State × TrPa :=
    if priv = 3 ∨ mode = 0 then (s, .ok va false)
    else
      let bits := if mode = 8 then 39 else 48
      let up := va / 2 ^ (bits - 1)
      if up = 0 ∨ up = 2 ^ (65 - bits) - 1 then trWalk c h va priv acc (if mode = 8 then 3 else 4) (satp % 2 ^ 44) s
      else (s, .trap (accPage acc))
  match q.2 with
  | .ok pa nc => if phKind pa == .bad || !pmpOk h pa n priv acc then (q.1, .trap (accFault acc)) else (q.1, .ok pa nc)
  | r => (q.1, r)

/-! ## Loads and stores by virtual address (R649) -/

/-- The pieces of an access that lie in one page each. -/
def pagePieces (va n : Nat) : List (Nat × Nat) :=
  if va % 4096 + n ≤ 4096 then [(va, n)]
  else
    let k := 4096 - va % 4096
    [(va, k), ((va + k) % 2 ^ 64, n - k)]

/-- Where the pieces of an access are, or why it is not performed. A misaligned access needs cacheable memory. -/
def trPlaces (c : Nat) (h : Hart) (acc : TrAcc) (mis : Bool) (va0 : Nat) :
    List (Nat × Nat) → State → State × (List (Nat × Nat × Bool) ⊕ TrRes)
  | [], s => (s, .inl [])
  | (va, n) :: t, s =>
    let q := trAddr c h va n acc s
    match q.2 with
    | .stall => (q.1, .inr .stall)
    | .trap cause => (q.1, .inr (.trap cause va))
    | .ok pa nc =>
      if mis && !phCached pa nc then (q.1, .inr (.trap (accMis acc) va0))
      else
        let r := trPlaces c h acc mis va0 t q.1
        match r.2 with
        | .inl l => (r.1, .inl ((pa, n, nc) :: l))
        | .inr x => (r.1, .inr x)

/-- Read the pieces in turn. -/
def trGather (c : Nat) (acc : TrAcc) (va : Nat) : List (Nat × Nat × Bool) → State → State × TrRes
  | [], s => (s, .ok 0)
  | (pa, n, nc) :: t, s =>
    let q := trPhRead c pa n nc s
    match q.2 with
    | none => (q.1, .stall)
    | some none => (q.1, .trap (accFault acc) va)
    | some (some v) =>
      let r := trGather c acc ((va + n) % 2 ^ 64) t q.1
      match r.2 with
      | .ok w => (r.1, .ok (v + 2 ^ (8 * n) * w))
      | x => (r.1, x)

/-- A load of n bytes, zero-extended. -/
def trLoad (c : Nat) (h : Hart) (n va : Nat) (s : State) : State × TrRes :=
  let q := trPlaces c h .load (va % n ≠ 0) va (pagePieces va n) s
  match q.2 with
  | .inr x => (q.1, x)
  | .inl l => trGather c .load va l q.1

/-- Write the pieces in turn. -/
def trScatter (c : Nat) : List (Nat × Nat × Bool) → List Byte → State → State
  | [], _, s => s
  | (pa, n, nc) :: t, d, s => trScatter c t (d.drop n) (trPhWrite c pa (d.take n) nc s)

/-- A store of the low n bytes of v. -/
def trStore (c : Nat) (h : Hart) (n va v : Nat) (s : State) : State × TrRes :=
  let q := trPlaces c h .store (va % n ≠ 0) va (pagePieces va n) s
  match q.2 with
  | .inr x => (q.1, x)
  | .inl l => (trScatter c l (leBytes n v) q.1, .ok 0)

/-- One 16-bit parcel of an instruction; nothing is executed from control space or the cluster-local region.
(PRESUMED, log entry 32) -/
def trFetch (c : Nat) (h : Hart) (va : Nat) (s : State) : State × TrRes :=
  let q := trAddr c h va 2 .fetch s
  match q.2 with
  | .stall => (q.1, .stall)
  | .trap cause => (q.1, .trap cause va)
  | .ok pa nc =>
    if phKind pa == .io || phKind pa == .cl then (q.1, .trap 1 va) else trGather c .fetch va [(pa, 2, nc)] q.1

/-- The far lines that came for this core are used up once its instruction is done. (DESIGN CHOICE, log entry 37) -/
def gotClear (c : Nat) (s : State) : State :=
  xkMod (fun x => { x with got := x.got.filter fun e => decide (e.1 / 2 ^ 24 / 16 / 32 ≠ 0x10 + c) }) s

end Sys2Proof.Machine
end

