-- ==== Sys2Proof/Machine/TrCsr.lean ====
section
/-! DEFINITION. Control and status registers, interrupts, traps and returns of a Trestle core (R641, R653 to R658, R665; the
RISC-V Privileged Architecture 1.12, with Zicntr, Zihpm, Sstc and Svpbmt). -/

namespace Sys2Proof.Machine

open Sys2Proof

/-- Bits of a number by their places. -/
def maskBits (l : List Nat) : Nat := l.foldl (fun m b => m + 2 ^ b) 0

def mstatusMask : Nat := maskBits [1, 3, 5, 7, 8, 9, 10, 11, 12, 13, 14, 17, 18, 19, 20, 21, 22]
def sstatusMask : Nat := maskBits [1, 5, 8, 9, 10, 13, 14, 18, 19]
def sstatusRead : Nat := sstatusMask + maskBits [32, 33, 63]

/-- mstatus as read: SXL and UXL are 64 bits, SD sums up FS and VS. -/
def mstatusOf (h : Hart) : Nat :=
  let v := hcsr h 0x300 &&& mstatusMask
  v + 2 ^ 33 + 2 ^ 35 + (if bitsOf v 13 2 = 3 ∨ bitsOf v 9 2 = 3 then 2 ^ 63 else 0)

/-- misa: RV64 with A, C, D, F, I, M, S, U, V. -/
def misaValue : Nat := 2 ^ 63 + maskBits [0, 2, 3, 5, 8, 12, 18, 20, 21]

/-- mip: the pending bits that follow from the platform, and the ones software sets. -/
def mipOf (c : Nat) (h : Hart) (s : State) : Nat :=
  let sw := hcsr h 0x344 &&& 0x222
  let stce := bitAt (hcsr h 0x30A) 63
  let bit (b : Bool) (n : Nat) : Nat := if b then 2 ^ n else 0
  (sw &&& (if stce then 0x202 else 0x222)) |||
    (bit (bitAt (clReg s (0x4100 + 4 * c)).toNat 0) 3 + bit (decide (mtimecmp s c ≤ s.ts)) 7 +
      bit (stce && decide (hcsr h 0x14D ≤ s.ts)) 5 + bit (ticBest s c false).isSome 11 + bit (ticBest s c true).isSome 9)

/-- FS and VS (bit 13 and bit 9 of mstatus): off, or the extension may be used; and made dirty. -/
def extOn (h : Hart) (lo : Nat) : Bool := bitsOf (hcsr h 0x300) lo 2 != 0
def extDirty (lo : Nat) (h : Hart) : Hart := hset 0x300 (hcsr h 0x300 ||| 3 * 2 ^ lo) h

/-- May the unprivileged counter with this bit be read in the present mode? (PRESUMED, log entry 33) -/
def counterOk (h : Hart) (bit : Nat) : Bool :=
  (h.priv = 3 || bitAt (hcsr h 0x306) bit) && (h.priv ≠ 0 || bitAt (hcsr h 0x106) bit)

/-- pmpaddr as read: with granule 4 KiB, bits 8 to 0 read as ones for a NAPOT entry and bits 9 to 0 as zeros otherwise.
(PRESUMED, log entry 33) -/
def pmpAddrRead (h : Hart) (i : Nat) : Nat :=
  if bitsOf (pmpCfg h i) 3 2 = 3 then pmpAddr h i ||| 0x1FF else pmpAddr h i / 1024 * 1024

/-- A CSR as read: its value, or `none` for one that does not exist or may not be read. Cycle and event counters are free
values: cycle counts are not part of the model. (PRESUMED, log entry 31; PRESUMED, log entry 33) -/
def csrRead (c : Nat) (h : Hart) (s : State) (n : Nat) : Option Nat :=
  let v := hcsr h n
  let fp := if extOn h 13 then some else fun _ => (none : Option Nat)
  let vec := if extOn h 9 then some else fun _ => (none : Option Nat)
  let count (i : Nat) : Option Nat :=
    some (if i = 1 then s.ts else if i = 2 then hcsr h 0xB02 else if i ≤ 10 then (freeNow s).toNat else 0)
  if h.priv < bitsOf n 8 2 then none
  else if n = 1 then fp (bitsOf (hcsr h 3) 0 5)
  else if n = 2 then fp (bitsOf (hcsr h 3) 5 3)
  else if n = 3 then fp (bitsOf v 0 8)
  else if n = 8 ∨ n = 0xC20 ∨ n = 0xC21 then vec v
  else if n = 9 then vec (bitsOf (hcsr h 0xF) 0 1)
  else if n = 0xA then vec (bitsOf (hcsr h 0xF) 1 2)
  else if n = 0xF then vec (bitsOf v 0 3)
  else if n = 0xC22 then vec 32
  else if 0xC00 ≤ n ∧ n < 0xC20 then (if counterOk h (n - 0xC00) then count (n - 0xC00) else none)
  else if 0xB00 ≤ n ∧ n < 0xB20 ∧ n ≠ 0xB01 then count (n - 0xB00)
  else if n = 0x100 then some (mstatusOf h &&& sstatusRead)
  else if n = 0x104 then some (hcsr h 0x304 &&& hcsr h 0x303)
  else if n = 0x144 then some (mipOf c h s &&& hcsr h 0x303)
  else if n = 0x14D then
    (if h.priv = 3 ∨ (bitAt (hcsr h 0x30A) 63 ∧ bitAt (hcsr h 0x306) 1) then some v else none)
  else if n = 0x180 then (if h.priv = 1 ∧ bitAt (hcsr h 0x300) 20 then none else some v)
  else if [0x105, 0x106, 0x10A, 0x140, 0x141, 0x142, 0x143].contains n then some v
  else if n = 0x300 then some (mstatusOf h)
  else if n = 0x301 then some misaValue
  else if n = 0x344 then some (mipOf c h s)
  else if [0x302, 0x303, 0x304, 0x305, 0x306, 0x30A, 0x320, 0x340, 0x341, 0x342, 0x343, 0x3A0, 0x3A2].contains n then some v
  else if 0x323 ≤ n ∧ n < 0x340 then some v
  else if 0x3B0 ≤ n ∧ n < 0x3C0 then some (pmpAddrRead h (n - 0x3B0))
  else if n = 0xF11 then some Config.mvendorid.toNat
  else if n = 0xF12 then some Config.marchid.toNat
  else if n = 0xF13 then some Config.mimpid.toNat
  else if n = 0xF14 then some c
  else if n = 0xF15 then some 0
  else none

/-- A trap vector: the reserved modes keep the old value. -/
def tvecWrite (old v : Nat) : Nat := if 2 ≤ v % 4 then old else v

/-- An environment register: CBIE 2 is reserved and keeps its value. -/
def envWrite (mask old v : Nat) : Nat :=
  let w := mergeBits mask old v
  if bitsOf w 4 2 = 2 then w - atBit (bitsOf w 4 2) 4 + atBit (bitsOf old 4 2) 4 else w

/-- One byte of a pmpcfg register: a locked entry keeps it; A = 2 (NA4) is not selectable; W without R is reserved. -/
def pmpByte (old v : Nat) : Nat :=
  if bitAt old 7 then old
  else
    let v := v &&& 0x9F
    if bitsOf v 3 2 = 2 ∨ (bitAt v 1 ∧ !bitAt v 0) then old else v

/-- An address register is locked by its entry, or by a locked TOR entry above it. -/
def pmpLocked (h : Hart) (i : Nat) : Bool :=
  bitAt (pmpCfg h i) 7 || (decide (i < 15) && bitAt (pmpCfg h (i + 1)) 7 && decide (bitsOf (pmpCfg h (i + 1)) 3 2 = 1))

/-- A CSR written; the write was found legal. (PRESUMED, log entry 31; PRESUMED, log entry 33) -/
def csrWrite (n v : Nat) (h : Hart) : Hart :=
  let put (mask : Nat) (n : Nat) : Hart := hset n (mergeBits mask (hcsr h n) v) h
  let all := 2 ^ 64 - 1
  if n = 1 then extDirty 13 (hset 3 (mergeBits 0x1F (hcsr h 3) v) h)
  else if n = 2 then extDirty 13 (hset 3 (mergeBits 0xE0 (hcsr h 3) (v * 32)) h)
  else if n = 3 then extDirty 13 (put 0xFF 3)
  else if n = 8 then extDirty 9 (put 0xFF 8)
  else if n = 9 then extDirty 9 (hset 0xF (mergeBits 1 (hcsr h 0xF) v) h)
  else if n = 0xA then extDirty 9 (hset 0xF (mergeBits 6 (hcsr h 0xF) (v * 2)) h)
  else if n = 0xF then extDirty 9 (put 7 0xF)
  else if n = 0x100 then hset 0x300 (mergeBits sstatusMask (hcsr h 0x300) v) h
  else if n = 0x104 then hset 0x304 (mergeBits (hcsr h 0x303) (hcsr h 0x304) v) h
  else if n = 0x144 then hset 0x344 (mergeBits (hcsr h 0x303 &&& 2) (hcsr h 0x344) v) h
  else if n = 0x105 ∨ n = 0x305 then hset n (tvecWrite (hcsr h n) v) h
  else if n = 0x106 ∨ n = 0x306 then put 0x7FF n
  else if n = 0x10A then hset n (envWrite 0x71 (hcsr h n) v) h
  else if n = 0x30A then hset n (envWrite (0x71 + 2 ^ 62 + 2 ^ 63) (hcsr h n) v) h
  else if n = 0x141 ∨ n = 0x341 then put (all - 1) n
  else if n = 0x180 then (if v / 2 ^ 60 = 0 ∨ v / 2 ^ 60 = 8 ∨ v / 2 ^ 60 = 9 then put all n else h)
  else if n = 0x300 then
    let w := mergeBits mstatusMask (hcsr h 0x300) v
    hset 0x300 (if bitsOf w 11 2 = 2 then w - 2 ^ 12 + atBit (bitsOf (hcsr h 0x300) 11 2) 11 else w) h
  else if n = 0x302 then put 0xB3FF n
  else if n = 0x303 then put 0x222 n
  else if n = 0x304 then put 0xAAA n
  else if n = 0x344 then put 0x222 n
  else if n = 0x320 then put 0x7FD n
  else if 0x323 ≤ n ∧ n ≤ 0x32A then put all n
  else if n = 0x3A0 ∨ n = 0x3A2 then
    hset n ((natsFrom 0 8).foldl (fun w b => w + atBit (pmpByte (bitsOf (hcsr h n) (8 * b) 8) (bitsOf v (8 * b) 8)) (8 * b)) 0) h
  else if 0x3B0 ≤ n ∧ n < 0x3C0 then (if pmpLocked h (n - 0x3B0) then h else put (2 ^ 54 - 1) n)
  else if [0x140, 0x142, 0x143, 0x14D, 0x340, 0x342, 0x343, 0xB02].contains n then put all n
  else h

/-! ## Interrupts, traps, returns -/

/-- The interrupt that is taken now, if one is. -/
def trIrq (c : Nat) (h : Hart) (s : State) : Option Nat :=
  let p := mipOf c h s &&& hcsr h 0x304
  let st := hcsr h 0x300
  let del := hcsr h 0x303
  let m := if h.priv < 3 ∨ bitAt st 3 then p &&& (2 ^ 64 - 1 - del) else 0
  let sv := if h.priv < 1 ∨ (h.priv = 1 ∧ bitAt st 1) then p &&& del else 0
  let pick (x : Nat) : Option Nat := [11, 3, 7, 9, 1, 5].find? (bitAt x)
  (pick m).orElse fun _ => pick sv

/-- MRET and SRET; the mode left behind is U, and MPRV goes where the new mode is not M. (PRESUMED, log entry 31) -/
def trMret (h : Hart) : Hart :=
  let st := hcsr h 0x300
  let mpp := bitsOf st 11 2
  let st' := mergeBits 0x1888 st (8 * b2n (bitAt st 7) + 128)
  let st' := if mpp = 3 then st' else mergeBits 0x20000 st' 0
  { hset 0x300 st' h with pc := BitVec.ofNat 64 (hcsr h 0x341), priv := mpp }

def trSret (h : Hart) : Hart :=
  let st := hcsr h 0x300
  let st' := mergeBits 0x20122 st (2 * b2n (bitAt st 5) + 32)
  { hset 0x300 st' h with pc := BitVec.ofNat 64 (hcsr h 0x141), priv := bitsOf st 8 1 }

end Sys2Proof.Machine
end

