-- ==== Sys2Proof/Machine/Jtag.lean ====
section
/-! DEFINITION. The test access port (R982 to R985), and the output pins whose level follows from the state (R921, R954,
R956, R957, R974). -/

namespace Sys2Proof.Machine

open Sys2Proof

/-- An instruction is loaded; while TRST_N is low the port stays in test-logic reset. -/
def jtagIr (ir : Nat) (f : State → State) (s : State) : State :=
  if s.pwr.trst then s else f { s with jtag := { s.jtag with ir := ir } }

/-- Cells into the boundary scan register, 135 of them (R984). -/
def boundarySet (cells : Nat) (s : State) : State := { s with jtag := { s.jtag with boundary := cells % 2 ^ 135 } }

def execExtest (cells : Nat) (s : State) : Host.Outcome State Fault Refusal := done (jtagIr 0 (boundarySet cells) s)

/-- IDCODE (R983). -/
def execIdcode (s : State) : Host.Outcome State Fault Refusal := done (jtagIr 1 (emit (.jtag 0x248163D7)) s)

/-- SAMPLE/PRELOAD: the pins are sampled and shifted out, the cells are loaded. -/
def execSamplePreload (pins cells : Nat) (s : State) : Host.Outcome State Fault Refusal :=
  done (jtagIr 2 (fun s => boundarySet cells (emit (.jtag (pins % 2 ^ 135)) s)) s)

/-- HIGHZ and CLAMP select the bypass register, which captures 0 (IEEE 1149.1). -/
def execHighz (s : State) : Host.Outcome State Fault Refusal := done (jtagIr 3 (emit (.jtag 0)) s)
def execClamp (s : State) : Host.Outcome State Fault Refusal := done (jtagIr 4 (emit (.jtag 0)) s)

/-- BYPASS: code 0x1F or any undefined one (R982). A code of another instruction is not this command's.
(PRESUMED, log entry 67) -/
def jtagBypass (ir : Nat) (s : State) : State :=
  if ir ≤ 4 ∨ ir = 0x10 ∨ ir = 0x11 then s else jtagIr ir (emit (.jtag 0)) s

def execBypass (ir : Fin 32) (s : State) : Host.Outcome State Fault Refusal := done (jtagBypass ir.val s)

/-- DTMCS: the scan answers the register; bit 16 (dmireset) and bit 17 (dmihardreset) clear the sticky status.
(PRESUMED, log entry 67) -/
def dtmcsScan (v : Word) (s : State) : State :=
  let s := emit (.jtag (Config.dtmcs s.jtag.dmiErr).toNat) s
  if bitAt v.toNat 16 || bitAt v.toNat 17 then { s with jtag := { s.jtag with dmiErr := 0 } } else s

def execDtmcs (v : Word) (s : State) : Host.Outcome State Fault Refusal := done (jtagIr 0x10 (dtmcsScan v) s)

/-! ## The debug module (R641, R985; RISC-V External Debug Support 0.13.2) -/

/-- The hart that dmcontrol selects (hartsello, bits 25 to 16). -/
def dmHart (s : State) : Nat := fieldOf (tabGet 0 s.jtag.dmi 0x10) 16 10

/-- Is the access one to a core that is not powered? dmcontrol and dmstatus are the module's own. -/
def dmUnpowered (s : State) (addr : Nat) : Bool :=
  addr ≠ 0x10 && addr ≠ 0x11 && (decide (8 ≤ dmHart s) || !domOn s (91 + dmHart s / 2))

def dmPut (addr v : Nat) (s : State) : State := { s with jtag := { s.jtag with dmi := tabSet s.jtag.dmi addr (w32 v) } }
def dmGet (s : State) (addr : Nat) : Nat := (tabGet 0 s.jtag.dmi addr).toNat

/-- dmstatus of the selected hart: version 2, authenticated; a hart that does not run is unavailable. -/
def dmStatus (s : State) : Nat :=
  let n := dmHart s
  let h := hartOf s n
  let there := decide (n < 8)
  let run := there && trRuns s n
  let both (b : Bool) (i : Nat) : Nat := atBit (3 * b2n b) i
  2 + atBit 1 7 + both (run && h.dbg) 8 + both (run && !h.dbg) 10 + both (there && !run) 12 + both (!there) 14 +
    both (there && h.resumeAck) 16 + both (there && !h.resetAck) 18

/-- cmderr of abstractcs, sticky until ones are written to it. -/
def dmFail (code : Nat) (s : State) : State := if dmGet s 0x16 = 0 then dmPut 0x16 code s else s

/-- A register that an abstract command names: a CSR, an integer or a floating-point register. -/
def dmRegRead (c : Nat) (h : Hart) (s : State) (r : Nat) : Option Nat :=
  if 0x7B0 ≤ r ∧ r < 0x7B4 then some (hcsr h r)
  else if r < 0x1000 then csrRead c { h with priv := 3 } s r
  else if r < 0x1020 then some (tabGet 0 h.x (r - 0x1000)).toNat
  else if r < 0x1040 then some (tabGet 0 h.f (r - 0x1020)).toNat
  else none

/-- A register written by an abstract command; one that cannot be written answers none. -/
def dmRegWrite (r v : Nat) (h : Hart) : Option Hart :=
  if r = 0x7B0 then some (hset r (mergeBits 0xBE07 (hcsr h r) v) h)
  else if r = 0x7B1 then some (hset r (v / 2 * 2) h)
  else if r = 0x7B2 ∨ r = 0x7B3 then some (hset r v h)
  else if r < 0x1000 then (if r / 1024 = 3 then none else some (csrWrite r v h))
  else if r = 0x1000 then some h
  else if r < 0x1020 then some { h with x := tabPut 0 h.x (r - 0x1000) (BitVec.ofNat 64 v) }
  else if r < 0x1040 then some { h with f := tabPut 0 h.f (r - 0x1020) (BitVec.ofNat 64 v) }
  else none

/-- The low part of a register replaced by a write of n bits. -/
def lowPart (n old v : Nat) : Nat := old / 2 ^ n * 2 ^ n + v % 2 ^ n

/-- The Access Register command on a halted hart: 32 or 64 bits between a register and data0, data1. The optional parts
(program buffer, post-increment) are absent. (PRESUMED, log entry 67) -/
def dmRegister (c v : Nat) (s : State) : State :=
  let h := hartOf s c
  let r := bitsOf v 0 16
  let n := if bitsOf v 20 3 = 2 then 32 else 64
  let data := dmGet s 4 + 2 ^ 32 * dmGet s 5
  if (bitsOf v 20 3 ≠ 2 ∧ bitsOf v 20 3 ≠ 3) ∨ bitAt v 18 ∨ bitAt v 19 then dmFail 2 s
  else if !bitAt v 17 then s
  else match dmRegRead c h s r with
    | none => dmFail 3 s
    | some old =>
      if bitAt v 16 then
        match dmRegWrite r (lowPart n old data) h with
        | some h' => hartPut c h' s
        | none => dmFail 3 s
      else
        let s := dmPut 4 (old % 2 ^ 32) s
        if n = 64 then dmPut 5 (old / 2 ^ 32) s else s

/-- A write to `command`. Access Memory and Quick Access are absent. -/
def dmCommand (v : Nat) (s : State) : State :=
  let c := dmHart s
  if dmGet s 0x16 ≠ 0 then s
  else if v / 2 ^ 24 ≠ 0 then dmFail 2 s
  else if !(trRuns s c && (hartOf s c).dbg) then dmFail 4 s
  else dmRegister c v s

/-- The requests of dmcontrol to the selected hart: haltreq halts it at once where it runs, resumereq lets it go on,
ackhavereset acknowledges its reset. -/
def dmRequest (v : Nat) (s : State) : State :=
  let c := dmHart s
  if 8 ≤ c then s
  else
    let others := s.jtag.haltReq - atBit (b2n (bitAt s.jtag.haltReq c)) c
    let s := { s with jtag := { s.jtag with haltReq := others + atBit (b2n (bitAt v 31)) c } }
    let s := if bitAt v 28 then hartMod c (fun h => { h with resetAck := true }) s else s
    let h := hartOf s c
    if bitAt v 31 then (if trRuns s c && !h.dbg then hartPut c (trHalt 3 h) s else s)
    else if bitAt v 30 && trRuns s c && h.dbg then hartPut c (trResume h) s
    else s

/-- A write to dmcontrol: with dmactive 0 the module takes its reset values. -/
def dmControl (v : Nat) (s : State) : State :=
  if bitAt v 0 then dmRequest v (dmPut 0x10 (v &&& 0x03FF0003) s)
  else { s with jtag := { s.jtag with dmi := [], haltReq := 0 } }

/-- A write to a register of the debug module. -/
def dmWrite (addr v : Nat) (s : State) : State :=
  if addr = 0x10 then dmControl v s
  else if !bitAt (dmGet s 0x10) 0 then s
  else if addr = 0x17 then dmCommand v s
  else if addr = 0x16 then dmPut 0x16 (dmGet s 0x16 &&& (7 - bitsOf v 8 3)) s
  else if addr = 4 ∨ addr = 5 then dmPut addr v s
  else s

/-- A register of the debug module as read: two data words, no program buffer, no system bus access; hartinfo is the
implementation's. (PRESUMED, log entry 67) -/
def dmRead (s : State) (addr : Nat) : Nat :=
  if addr = 0x10 then dmGet s 0x10
  else if addr = 0x11 then dmStatus s
  else if addr = 0x12 then Config.hartInfo.toNat
  else if addr = 0x16 then 2 + atBit (dmGet s 0x16) 8
  else if addr = 0x40 then (natsFrom 0 8).foldl (fun m i => m + atBit (b2n (trRuns s i && (hartOf s i).dbg)) i) 0
  else if addr = 4 ∨ addr = 5 then dmGet s addr
  else 0

/-- DMI (R982, R985): status 2 for an access to a core that is not powered, sticky until DTMCS clears it.
(PRESUMED, log entry 67) -/
def dmiAccess (addr : Nat) (data : Word) (dop : Nat) (s : State) : State :=
  let answer (v : Word) (st : Nat) (s : State) : State := emit (.jtag (addr * 2 ^ 34 + v.toNat * 4 + st)) s
  if s.jtag.dmiErr ≠ 0 then answer 0 s.jtag.dmiErr s
  else if dop = 0 ∨ dop = 3 then answer 0 0 s
  else if dmUnpowered s addr then answer 0 2 { s with jtag := { s.jtag with dmiErr := 2 } }
  else if dop = 2 then answer data 0 (dmWrite addr data.toNat s)
  else answer (w32 (dmRead s addr)) 0 s

def execDmi (addr : BitVec 7) (data : Word) (dop : Fin 4) (s : State) : Host.Outcome State Fault Refusal :=
  done (jtagIr 0x11 (dmiAccess addr.toNat data dop.val) s)

/-! ## Output pins -/

/-- RST_OUT_N is low while a reset of power-on or system scope acts (R956). -/
def rstOutN (s : State) : Bool := s.pwr.started

/-- VID_0 to VID_4: the code; 10 in reset (R910, R921). -/
def vidPins (s : State) : Nat := if inReset s then 10 else regBits s 0x8014 0 5

/-- STB_n: the level at the pin, with its polarity (R132); low in reset and until a command sets it. -/
def stbPin (s : State) (n : Nat) : Bool := s.pwr.started && ((tabGet {} s.strobes n).active != bitAt s.lt.stbPol n)

/-- SP_n_PWR_EN_m (R164, R921). -/
def pwrEnPin (s : State) (n m : Nat) : Bool := !inReset s && bitAt (tabGet {} s.ports n).pwrEn m

/-- XK_DRV_EN at an instant (R957): from 1 µs before a frame's ramp-up extension to 0.5 µs after its ramp-down. -/
def xkDrvEn (s : State) (t : Nat) : Bool :=
  xkOn s &&
    ((s.xk.rx == .transmit && decide (s.xk.txStart ≤ t + 1000) && decide (t ≤ s.xk.txEnd - 500)) ||
     (match s.xk.txQueue with | q :: _ => decide (q.start ≤ t + 1000) && decide (t < q.start) | [] => false))

end Sys2Proof.Machine
end

