-- ==== Sys2Proof/Machine/TrFloat.lean ====
section
/-! DEFINITION. IEEE 754 binary arithmetic as the F, D and BF16 extensions of the Trestle cores use it (R641): any format,
the five rounding modes, the five flags (NV 16, DZ 8, OF 4, UF 2, NX 1), canonical NaNs, tininess after rounding. Results
are exact values rounded once. From the RISC-V standard that R641 names. -/

namespace Sys2Proof.Machine

/-- A format: exponent bits and fraction bits. -/
structure FFmt where
  ew : Nat
  mw : Nat
  deriving DecidableEq, Repr

def fmtS : FFmt := ⟨8, 23⟩
def fmtD : FFmt := ⟨11, 52⟩
def fmtB : FFmt := ⟨8, 7⟩

/-- Class of a number. -/
inductive FCls where
  | zero | fin | inf | qnan | snan
  deriving DecidableEq, Repr

/-- A number taken apart: its magnitude is m × 2^e. -/
structure FNum where
  cls : FCls
  neg : Bool
  m : Nat
  e : Int
  deriving DecidableEq, Repr

/-- Width of a format, its exponent of the least unit, and its special encodings. -/
def fWidth (f : FFmt) : Nat := f.ew + f.mw + 1
def fEmin (f : FFmt) : Int := 2 - (2 ^ (f.ew - 1) : Nat) - (f.mw : Int)
def fSignBit (f : FFmt) (neg : Bool) : Nat := if neg then 2 ^ (f.ew + f.mw) else 0
def fInf (f : FFmt) (neg : Bool) : Nat := fSignBit f neg + (2 ^ f.ew - 1) * 2 ^ f.mw
def fNan (f : FFmt) : Nat := (2 ^ f.ew - 1) * 2 ^ f.mw + 2 ^ (f.mw - 1)

/-- Take an encoding apart. -/
def fOpen (f : FFmt) (b : Nat) : FNum :=
  let x := bitsOf b f.mw f.ew
  let t := bitsOf b 0 f.mw
  let n := bitAt b (f.ew + f.mw)
  if x = 2 ^ f.ew - 1 then
    ⟨if t = 0 then .inf else if bitAt t (f.mw - 1) then .qnan else .snan, n, 0, 0⟩
  else if x = 0 then (if t = 0 then ⟨.zero, n, 0, 0⟩ else ⟨.fin, n, t, fEmin f⟩)
  else ⟨.fin, n, t + 2 ^ f.mw, fEmin f + x - 1⟩

def isNan (a : FNum) : Bool := a.cls == .qnan || a.cls == .snan

/-- Does a remainder r of d round away from zero? Modes 0 RNE, 1 RTZ, 2 RDN, 3 RUP, 4 RMM, and 5 for rounding to odd. -/
def rndUp (rm : Nat) (neg odd : Bool) (r d : Nat) : Bool :=
  match rm with
  | 0 => decide (d < 2 * r) || (decide (2 * r = d) && odd)
  | 1 => false
  | 2 => neg && decide (r ≠ 0)
  | 3 => !neg && decide (r ≠ 0)
  | 5 => !odd && decide (r ≠ 0)
  | _ => decide (d ≤ 2 * r)

/-- m × 2^e in units of 2^q, rounded, and whether that is inexact. -/
def fCut (rm : Nat) (neg : Bool) (m : Nat) (e q : Int) : Nat × Bool :=
  if q ≤ e then (m * 2 ^ (e - q).toNat, false)
  else
    let d := 2 ^ (q - e).toNat
    let a := m / d
    (if rndUp rm neg (a % 2 == 1) (m % d) d then a + 1 else a, decide (m % d ≠ 0))

/-- A non-zero value m × 2^e rounded to a format: encoding and flags. -/
def fRound (f : FFmt) (rm : Nat) (neg : Bool) (m : Nat) (e : Int) : Nat × Nat :=
  let q0 : Int := e + Nat.log2 m - f.mw
  let q1 := max q0 (fEmin f)
  let c := fCut rm neg m e q1
  let a := if c.1 = 2 ^ (f.mw + 1) then 2 ^ f.mw else c.1
  let q := if c.1 = 2 ^ (f.mw + 1) then q1 + 1 else q1
  if fEmin f + (2 ^ f.ew : Nat) - 3 < q then
    let big := rm = 0 || rm = 4 || (rm = 2 && neg) || (rm = 3 && !neg)
    (if big then fInf f neg else fInf f neg - 1, 5)
  else
    let tiny := decide (q0 < fEmin f) && !(decide (q0 = fEmin f - 1) && (fCut rm neg m e q0).1 = 2 ^ (f.mw + 1))
    (fSignBit f neg + (q - fEmin f).toNat * 2 ^ f.mw + a, if c.2 then (if tiny then 3 else 1) else 0)

/-- NaN result, with NV when an operand signals. -/
def fNanOf (f : FFmt) (l : List FNum) : Nat × Nat := (fNan f, if l.any fun a => a.cls == .snan then 16 else 0)

/-- An exact signed value rounded; zero takes the sign given. -/
def fSum (f : FFmt) (rm : Nat) (v e : Int) (zneg : Bool) : Nat × Nat :=
  if v = 0 then (fSignBit f zneg, 0) else fRound f rm (decide (v < 0)) v.natAbs e

/-- Signed significand over a common exponent. -/
def fOver (a : FNum) (e : Int) : Int :=
  let v : Int := (a.m * 2 ^ (a.e - e).toNat : Nat)
  if a.neg then -v else v

/-- The sum of two exact numbers, none a NaN. -/
def fAddNum (f : FFmt) (rm : Nat) (a b : FNum) : Nat × Nat :=
  match a.cls, b.cls with
  | .inf, .inf => if a.neg = b.neg then (fInf f a.neg, 0) else (fNan f, 16)
  | .inf, _ => (fInf f a.neg, 0)
  | _, .inf => (fInf f b.neg, 0)
  | _, _ =>
    let e := if a.m = 0 then b.e else if b.m = 0 then a.e else min a.e b.e
    let x := if a.m = 0 then 0 else fOver a e
    let y := if b.m = 0 then 0 else fOver b e
    fSum f rm (x + y) e (if a.m = 0 ∧ b.m = 0 ∧ a.neg = b.neg then a.neg else rm = 2)

def fnFlip (a : FNum) : FNum := { a with neg := !a.neg }

/-- a + b, or a − b. -/
def fpAdd (f : FFmt) (rm : Nat) (sub : Bool) (x y : Nat) : Nat × Nat :=
  let a := fOpen f x
  let b := if sub then fnFlip (fOpen f y) else fOpen f y
  if isNan a || isNan b then fNanOf f [a, b] else fAddNum f rm a b

/-- The exact product of two numbers, none a NaN, not zero times infinity. -/
def fProd (a b : FNum) : FNum :=
  let n := a.neg != b.neg
  if a.cls == .inf || b.cls == .inf then ⟨.inf, n, 0, 0⟩
  else if a.m = 0 ∨ b.m = 0 then ⟨.zero, n, 0, 0⟩
  else ⟨.fin, n, a.m * b.m, a.e + b.e⟩

/-- Zero times infinity. -/
def fZeroInf (a b : FNum) : Bool := (a.cls == .inf && b.cls == .zero) || (a.cls == .zero && b.cls == .inf)

def fpMul (f : FFmt) (rm : Nat) (x y : Nat) : Nat × Nat :=
  let a := fOpen f x
  let b := fOpen f y
  if isNan a || isNan b then fNanOf f [a, b]
  else if fZeroInf a b then (fNan f, 16)
  else
    let p := fProd a b
    match p.cls with
    | .inf => (fInf f p.neg, 0)
    | .zero => (fSignBit f p.neg, 0)
    | _ => fRound f rm p.neg p.m p.e

/-- ±(a × b) ± c, rounded once. `g` is the format of a and b, `f` that of c and the result. -/
def fpFma (g f : FFmt) (rm : Nat) (negP negC : Bool) (x y z : Nat) : Nat × Nat :=
  let a := fOpen g x
  let b := fOpen g y
  let c := fOpen f z
  if fZeroInf a b then (fNan f, 16)
  else if isNan a || isNan b || isNan c then fNanOf f [a, b, c]
  else
    let p := fProd a b
    fAddNum f rm (if negP then fnFlip p else p) (if negC then fnFlip c else c)

def fpDiv (f : FFmt) (rm : Nat) (x y : Nat) : Nat × Nat :=
  let a := fOpen f x
  let b := fOpen f y
  let n := a.neg != b.neg
  if isNan a || isNan b then fNanOf f [a, b]
  else match a.cls, b.cls with
    | .inf, .inf | .zero, .zero => (fNan f, 16)
    | .inf, _ => (fInf f n, 0)
    | _, .inf | .zero, _ => (fSignBit f n, 0)
    | _, .zero => (fInf f n, 8)
    | _, _ =>
      let k := f.mw + 4 + Nat.log2 b.m
      let q := a.m * 2 ^ k / b.m
      fRound f rm n (2 * q + (if a.m * 2 ^ k % b.m = 0 then 0 else 1)) (a.e - b.e - (k : Int) - 1)

/-- Integer square root of n, by bits i - 1 down to 0 of the root. -/
def sqrtBits (n : Nat) : Nat → Nat → Nat
  | 0, r => r
  | i + 1, r => sqrtBits n i (if (r + 2 ^ i) * (r + 2 ^ i) ≤ n then r + 2 ^ i else r)

def fpSqrt (f : FFmt) (rm : Nat) (x : Nat) : Nat × Nat :=
  let a := fOpen f x
  if isNan a then fNanOf f [a]
  else if a.cls == .zero then (x, 0)
  else if a.neg then (fNan f, 16)
  else if a.cls == .inf then (fInf f false, 0)
  else
    let k := 2 * f.mw + 8 + (if a.e % 2 = 0 then 0 else 1)
    let n := a.m * 2 ^ k
    let r := sqrtBits n (Nat.log2 n / 2 + 1) 0
    fRound f rm false (2 * r + (if r * r = n then 0 else 1)) ((a.e - (k : Int)) / 2 - 1)

/-- To an integer of w bits, saturated: encoding and flags. -/
def fpToInt (f : FFmt) (rm w : Nat) (signed : Bool) (x : Nat) : Nat × Nat :=
  let a := fOpen f x
  let hi : Int := if signed then (2 ^ (w - 1) : Nat) - 1 else (2 ^ w : Nat) - 1
  let lo : Int := if signed then -(2 ^ (w - 1) : Nat) else 0
  if isNan a then (unsgn w hi, 16)
  else if a.cls == .inf then (unsgn w (if a.neg then lo else hi), 16)
  else
    let c := fCut rm a.neg a.m a.e 0
    let v : Int := if a.neg then -(c.1 : Nat) else (c.1 : Nat)
    if v < lo then (unsgn w lo, 16) else if hi < v then (unsgn w hi, 16) else (unsgn w v, if c.2 then 1 else 0)

def fpFromInt (f : FFmt) (rm : Nat) (v : Int) : Nat × Nat := fSum f rm v 0 false

/-- From one format to another. -/
def fpCvt (g f : FFmt) (rm : Nat) (x : Nat) : Nat × Nat :=
  let a := fOpen g x
  match a.cls with
  | .qnan | .snan => fNanOf f [a]
  | .inf => (fInf f a.neg, 0)
  | .zero => (fSignBit f a.neg, 0)
  | .fin => fRound f rm a.neg a.m a.e

/-- The place of a number that is no NaN among all: −0 and +0 share one. -/
def fPlace (f : FFmt) (x : Nat) : Int :=
  let m : Int := (bitsOf x 0 (f.ew + f.mw) : Nat)
  if bitAt x (f.ew + f.mw) then -m else m

/-- Comparison: `quiet` signals for signaling NaNs only. -/
def fpCmp (f : FFmt) (quiet : Bool) (p : Int → Int → Bool) (x y : Nat) : Bool × Nat :=
  let a := fOpen f x
  let b := fOpen f y
  if isNan a || isNan b then (false, if quiet then (fNanOf f [a, b]).2 else 16) else (p (fPlace f x) (fPlace f y), 0)

/-- The smaller, or the larger; a NaN gives way to a number, and −0 lies below +0. -/
def fpMinMax (f : FFmt) (mx : Bool) (x y : Nat) : Nat × Nat :=
  let a := fOpen f x
  let b := fOpen f y
  let fl := (fNanOf f [a, b]).2
  let less := decide (fPlace f x < fPlace f y) || (decide (fPlace f x = fPlace f y) && a.neg)
  if isNan a && isNan b then (fNan f, fl)
  else if isNan a then (y, fl)
  else if isNan b then (x, fl)
  else (if less != mx then x else y, fl)

/-- FCLASS. -/
def fpClass (f : FFmt) (x : Nat) : Nat :=
  let a := fOpen f x
  match a.cls with
  | .inf => if a.neg then 1 else 0x80
  | .zero => if a.neg then 8 else 0x10
  | .snan => 0x100
  | .qnan => 0x200
  | .fin => if bitsOf x f.mw f.ew = 0 then (if a.neg then 4 else 0x20) else if a.neg then 2 else 0x40

/-- Sign injection: 0 the sign of y, 1 its opposite, 2 the exclusive or. -/
def fpSgnj (f : FFmt) (k x y : Nat) : Nat :=
  let sx := bitAt x (f.ew + f.mw)
  let sy := bitAt y (f.ew + f.mw)
  let s := if k = 0 then sy else if k = 1 then !sy else sx != sy
  fSignBit f s + bitsOf x 0 (f.ew + f.mw)

end Sys2Proof.Machine
end

