-- ==== Sys2Proof/Machine/TrInt.lean ====
section
/-! DEFINITION. The scalar instructions of a Trestle core (R641): RV64I, M, A, Zicsr, Zifencei and Zicbom. Field layouts
and effects are those of the RISC-V standards that R641 names. -/

namespace Sys2Proof.Machine

open Sys2Proof

/-- What an instruction comes to: the hart and the machine after it (the pc moved on), an exception, an encoding that is
not implemented, a wait for memory (the instruction is tried again), or a WFI. -/
inductive TrOut where
  | go (h : Hart) (s : State)
  | trap (cause tval : Nat) (h : Hart) (s : State)
  | ill (s : State)
  | stall (h : Hart) (s : State)
  | wait (h : Hart) (s : State)
  deriving DecidableEq, Repr

/-! ## Registers and fields -/

def xGet (h : Hart) (r : Nat) : Nat := if r = 0 then 0 else (tabGet 0 h.x r).toNat
def xPut (r v : Nat) (h : Hart) : Hart := if r = 0 then h else { h with x := tabPut 0 h.x r (BitVec.ofNat 64 v) }

/-- The pc plus n, and to another place. -/
def pcAdd (n : Nat) (h : Hart) : Hart := { h with pc := h.pc + BitVec.ofNat 64 n }
def pcTo (n : Nat) (h : Hart) : Hart := { h with pc := BitVec.ofNat 64 n }

/-- The low w bits sign-extended to 64 bits. -/
def sx (w v : Nat) : Nat := unsgn 64 (sgn w v)

def fRd (i : Nat) : Nat := bitsOf i 7 5
def fF3 (i : Nat) : Nat := bitsOf i 12 3
def fRs1 (i : Nat) : Nat := bitsOf i 15 5
def fRs2 (i : Nat) : Nat := bitsOf i 20 5
def fF7 (i : Nat) : Nat := bitsOf i 25 7

/-- The immediates of the formats I, S, B, U and J, sign-extended. -/
def immI (i : Nat) : Nat := sx 12 (bitsOf i 20 12)
def immS (i : Nat) : Nat := sx 12 (atBit (bitsOf i 25 7) 5 + bitsOf i 7 5)
def immB (i : Nat) : Nat :=
  sx 13 (atBit (bitsOf i 31 1) 12 + atBit (bitsOf i 7 1) 11 + atBit (bitsOf i 25 6) 5 + atBit (bitsOf i 8 4) 1)
def immU (i : Nat) : Nat := sx 32 (atBit (bitsOf i 12 20) 12)
def immJ (i : Nat) : Nat :=
  sx 21 (atBit (bitsOf i 31 1) 20 + atBit (bitsOf i 12 8) 12 + atBit (bitsOf i 20 1) 11 + atBit (bitsOf i 21 10) 1)

/-! ## Integer operations -/

/-- The operations of OP and OP-IMM on w-bit values; `alt` is subtraction or the arithmetic shift. -/
def aluOp (w f3 : Nat) (alt : Bool) (a b : Nat) : Nat :=
  match f3 with
  | 0 => if alt then unsgn w ((a : Int) - b) else (a + b) % 2 ^ w
  | 1 => a * 2 ^ (b % w) % 2 ^ w
  | 2 => b2n (decide (sgn w a < sgn w b))
  | 3 => b2n (decide (a < b))
  | 4 => a ^^^ b
  | 5 => if alt then unsgn w (sgn w a / 2 ^ (b % w)) else a / 2 ^ (b % w)
  | 6 => a ||| b
  | _ => a &&& b

/-- The operations of M on w-bit values. -/
def mulOp (w f3 a b : Nat) : Nat :=
  let x := sgn w a
  let y := sgn w b
  match f3 with
  | 0 => a * b % 2 ^ w
  | 1 => unsgn w (x * y / 2 ^ w)
  | 2 => unsgn w (x * b / 2 ^ w)
  | 3 => a * b / 2 ^ w
  | 4 => if b = 0 then 2 ^ w - 1 else unsgn w (x.tdiv y)
  | 5 => if b = 0 then 2 ^ w - 1 else a / b
  | 6 => if b = 0 then a else unsgn w (x.tmod y)
  | _ => if b = 0 then a else a % b

/-- OP, OP-32: the result, or none where the encoding is not implemented. -/
def opReg (w f7 f3 a b : Nat) : Option Nat :=
  if f7 = 1 then (if w = 32 ∧ 1 ≤ f3 ∧ f3 ≤ 3 then none else some (mulOp w f3 a b))
  else if w = 32 ∧ f3 ≠ 0 ∧ f3 ≠ 1 ∧ f3 ≠ 5 then none
  else if f7 = 0 then some (aluOp w f3 false a b)
  else if f7 = 0x20 ∧ (f3 = 0 ∨ f3 = 5) then some (aluOp w f3 true a b)
  else none

/-- OP-IMM, OP-IMM-32: shifts have their amount and kind in the immediate. -/
def opImm (w i a : Nat) : Option Nat :=
  let f3 := fF3 i
  if f3 = 1 ∨ f3 = 5 then
    let amt := if w = 64 then bitsOf i 20 6 else bitsOf i 20 5
    let top := if w = 64 then 2 * bitsOf i 26 6 else bitsOf i 25 7
    if top = 0 then some (aluOp w f3 false a amt)
    else if top = 0x20 ∧ f3 = 5 then some (aluOp w f3 true a amt)
    else none
  else if w = 32 ∧ f3 ≠ 0 then none
  else some (aluOp w f3 false a (immI i % 2 ^ w))

def branchTaken (f3 a b : Nat) : Option Bool :=
  match f3 with
  | 0 => some (a == b)
  | 1 => some (a != b)
  | 4 => some (decide (sgn 64 a < sgn 64 b))
  | 5 => some (!decide (sgn 64 a < sgn 64 b))
  | 6 => some (decide (a < b))
  | 7 => some (!decide (a < b))
  | _ => none

/-! ## Loads and stores -/

/-- The outcome of an access that ends in a value. -/
def trThen (q : State × TrRes) (h : Hart) (f : Nat → State → TrOut) : TrOut :=
  match q.2 with
  | .ok v => f v q.1
  | .trap cause tval => .trap cause tval h q.1
  | .stall => .stall h q.1

def addrOf (h : Hart) (i imm : Nat) : Nat := (xGet h (fRs1 i) + imm) % 2 ^ 64

def trLoadOp (c len i : Nat) (h : Hart) (s : State) : TrOut :=
  let f3 := fF3 i
  if f3 = 7 then .ill s
  else
    let n := 2 ^ (f3 % 4)
    trThen (trLoad c h n (addrOf h i (immI i)) s) h fun v s' =>
      .go (pcAdd len (xPut (fRd i) (if f3 < 4 then sx (8 * n) v else v) h)) s'

def trStoreOp (c len i : Nat) (h : Hart) (s : State) : TrOut :=
  if 3 < fF3 i then .ill s
  else
    let n := 2 ^ fF3 i
    trThen (trStore c h n (addrOf h i (immS i)) (xGet h (fRs2 i)) s) h fun _ s' => .go (pcAdd len h) s'

/-! ## Atomics (R648) -/

/-- The new value of an AMO on w-bit values. -/
def amoOp (w f5 a b : Nat) : Option Nat :=
  match f5 with
  | 0 => some ((a + b) % 2 ^ w)
  | 1 => some b
  | 4 => some (a ^^^ b)
  | 8 => some (a ||| b)
  | 0xC => some (a &&& b)
  | 0x10 => some (if sgn w a < sgn w b then a else b)
  | 0x14 => some (if sgn w a < sgn w b then b else a)
  | 0x18 => some (min a b)
  | 0x1C => some (max a b)
  | _ => none

/-- The access of an atomic: the physical address, in cacheable memory. -/
def amoPlace (c : Nat) (h : Hart) (n va : Nat) (lr : Bool) (s : State) : State × TrRes :=
  if va % n ≠ 0 then (s, .trap (if lr then 4 else 6) va)
  else
    let q := trAddr c h va n (if lr then .load else .store) s
    match q.2 with
    | .stall => (q.1, .stall)
    | .trap cause => (q.1, .trap cause va)
    | .ok pa nc => if phCached pa nc then (q.1, .ok pa) else (q.1, .trap 7 va)

/-- A read of cacheable memory; a refused fill is an access fault. -/
def amoRead (c pa n cause va : Nat) (s : State) : State × TrRes :=
  let q := trPhRead c pa n false s
  match q.2 with
  | some (some v) => (q.1, .ok v)
  | some none => (q.1, .trap cause va)
  | none => (q.1, .stall)

def trAmo (c len i : Nat) (h : Hart) (s : State) : TrOut :=
  let f3 := fF3 i
  let f5 := bitsOf i 27 5
  let n := 2 ^ f3
  let va := xGet h (fRs1 i)
  let b := xGet h (fRs2 i) % 2 ^ (8 * n)
  let ret (v : Nat) (h : Hart) : Hart := pcAdd len (xPut (fRd i) (sx (8 * n) v) h)
  if f3 ≠ 2 ∧ f3 ≠ 3 then .ill s
  else if f5 = 2 then
    if fRs2 i ≠ 0 then .ill s
    else
      trThen (amoPlace c h n va true s) h fun pa s =>
        trThen (amoRead c pa n 5 va s) h fun v s => .go (ret v { h with resv := some pa }) s
  else if f5 = 3 then
    trThen (amoPlace c h n va false s) h fun pa s =>
      if h.resv = some pa then
        .go (pcAdd len (xPut (fRd i) 0 { h with resv := none })) (trPhWrite c pa (leBytes n b) false s)
      else .go (pcAdd len (xPut (fRd i) 1 { h with resv := none })) s
  else match amoOp (8 * n) f5 0 0 with
    | none => .ill s
    | some _ =>
      trThen (amoPlace c h n va false s) h fun pa s =>
        trThen (amoRead c pa n 7 va s) h fun v s =>
          let new := (amoOp (8 * n) f5 v b).getD 0
          .go (ret v h) (trPhWrite c pa (leBytes n new) false s)

/-! ## Cache blocks (Zicbom, 64 B blocks; R674) -/

/-- May the block operation be executed? CBIE or CBCFE of the environment registers decide for the lower modes. -/
def cboOk (h : Hart) (op : Nat) : Bool :=
  let on (n : Nat) : Bool := if op = 0 then bitsOf (hcsr h n) 4 2 != 0 else bitAt (hcsr h n) 6
  (h.priv = 3 || on 0x30A) && (h.priv ≠ 0 || on 0x10A)

/-- A posted far write of the core has no acknowledgement yet: a fence that orders writes waits for it (R582, R583). -/
def fenceHeld (c : Nat) (s : State) : Bool := s.xk.far.any fun w => w.write && decide (w.tag = 0x10 + c)

/-- CBO.INVAL flushes where an environment register says so. -/
def cboFlushes (h : Hart) : Bool :=
  (h.priv ≠ 3 && bitsOf (hcsr h 0x30A) 4 2 == 1) || (h.priv = 0 && bitsOf (hcsr h 0x10A) 4 2 == 1)

def trCbo (c len i : Nat) (h : Hart) (s : State) : TrOut :=
  let op := bitsOf i 20 12
  if 2 < op ∨ fRd i ≠ 0 ∨ !cboOk h op then .ill s
  else
    let va := xGet h (fRs1 i) / 64 * 64
    let q := trAddr c h va 64 .load s
    match q.2 with
    | .stall => .stall h q.1
    | .trap cause => .trap (cause + 2) (xGet h (fRs1 i)) h q.1
    | .ok pa _ =>
      let k := pa / 64
      let s := q.1
      let s := if phKind pa != .mem then s
        else if op = 1 then l2WriteBack k s
        else if op = 2 || cboFlushes h then l2Drop k (l2WriteBack k s)
        else l2Drop k s
      .go (pcAdd len h) s

def trMiscMem (c len i : Nat) (h : Hart) (s : State) : TrOut :=
  match fF3 i with
  | 0 => if (bitAt i 24 || bitAt i 26) && fenceHeld c s then .stall h s else .go (pcAdd len h) s
  | 1 => .go (pcAdd len h) s
  | 2 => trCbo c len i h s
  | _ => .ill s

/-! ## SYSTEM -/

/-- Is the CSR a counter whose value the model leaves free? -/
def csrFree (n : Nat) : Bool :=
  (0xC00 ≤ n && n ≤ 0xC0A && n != 0xC01 && n != 0xC02) || (0xB00 ≤ n && n ≤ 0xB0A && n != 0xB01 && n != 0xB02)

/-- The instruction counter runs. -/
def instCounts (h : Hart) : Bool := !bitAt (hcsr h 0x320) 2

def trCsrOp (c len i : Nat) (h : Hart) (s : State) : TrOut :=
  let n := bitsOf i 20 12
  let op := fF3 i % 4
  let src := if fF3 i < 4 then xGet h (fRs1 i) else fRs1 i
  let writes := op == 1 || fRs1 i != 0
  match csrRead c h s n with
  | none => .ill s
  | some v =>
    if writes && n / 0x400 == 3 then .ill s
    else
      let s := if csrFree n then freeStep s else s
      let old := if n = 0x344 then hcsr h n &&& 0x222 else v
      let new := if op = 1 then src else if op = 2 then old ||| src else old &&& (2 ^ 64 - 1 - src)
      let new := if n = 0xB02 ∧ instCounts h then (new + 2 ^ 64 - 1) % 2 ^ 64 else new
      let h' := if writes then csrWrite n new h else h
      .go (pcAdd len (xPut (fRd i) v h')) s

/-- WFI: with a pending interrupt it goes on at once (R668: after an acknowledged halt request the core halts).
(PRESUMED, log entry 32) -/
def trWfi (c len : Nat) (h : Hart) (s : State) : TrOut :=
  if h.priv = 0 ∨ (h.priv < 3 ∧ bitAt (hcsr h 0x300) 21) then .ill s
  else if h.state = .haltRequested ∧ h.haltAck then .wait (pcAdd len h) s
  else if mipOf c h s &&& hcsr h 0x304 = 0 then .go (pcAdd len { h with wfi := true }) s
  else .go (pcAdd len h) s

def trSystem (c len i : Nat) (h : Hart) (s : State) : TrOut :=
  if fF3 i = 4 then .ill s
  else if fF3 i ≠ 0 then trCsrOp c len i h s
  else if i = 0x00000073 then .trap (8 + h.priv) 0 h s
  else if i = 0x00100073 then .trap 3 h.pc.toNat h s
  else if i = 0x30200073 then (if h.priv = 3 then .go (trMret h) s else .ill s)
  else if i = 0x10200073 then
    (if h.priv = 0 ∨ (h.priv = 1 ∧ bitAt (hcsr h 0x300) 22) then .ill s else .go (trSret h) s)
  else if i = 0x10500073 then trWfi c len h s
  else if fF7 i = 9 ∧ fRd i = 0 then
    (if h.priv = 0 ∨ (h.priv = 1 ∧ bitAt (hcsr h 0x300) 20) then .ill s else .go (pcAdd len h) s)
  else .ill s

/-! ## Integer instructions by opcode -/

/-- A jump: link, then go there. -/
def trJump (len rd target : Nat) (h : Hart) (s : State) : TrOut :=
  .go (pcTo (target % 2 ^ 64) (xPut rd ((h.pc.toNat + len) % 2 ^ 64) h)) s

/-- A result in rd, or an encoding that is not implemented. -/
def trResult (len i : Nat) (h : Hart) (s : State) (v : Option Nat) : TrOut :=
  match v with
  | some v => .go (pcAdd len (xPut (fRd i) v h)) s
  | none => .ill s

end Sys2Proof.Machine
end

