-- ==== Sys2Proof/Machine/TrFp.lean ====
section
/-! DEFINITION. The scalar floating-point instructions of a Trestle core (R641): F, D and Zfbfmin, with NaN boxing, the
rounding modes and the accrued flags of fcsr. From the RISC-V standards that R641 names. -/

namespace Sys2Proof.Machine

open Sys2Proof

/-! ## Registers -/

def fBits (h : Hart) (r : Nat) : Nat := (tabGet 0 h.f r).toNat

/-- A value of format f from a register: a narrow value that is not boxed reads as the canonical NaN. -/
def fGet (f : FFmt) (h : Hart) (r : Nat) : Nat :=
  let w := fWidth f
  let v := fBits h r
  if w = 64 ∨ v / 2 ^ w = 2 ^ (64 - w) - 1 then v % 2 ^ w else fNan f

/-- Register r takes 64 bits; FS becomes dirty. -/
def fPutBits (r v : Nat) (h : Hart) : Hart := extDirty 13 { h with f := tabPut 0 h.f r (BitVec.ofNat 64 v) }

/-- Register r takes a value of format f, boxed. -/
def fPut (f : FFmt) (r v : Nat) (h : Hart) : Hart :=
  let w := fWidth f
  fPutBits r (v % 2 ^ w + (2 ^ (64 - w) - 1) * 2 ^ w) h

/-- Flags are accrued in fcsr. -/
def fAccrue (fl : Nat) (h : Hart) : Hart := if fl % 32 = 0 then h else extDirty 13 (hset 3 (hcsr h 3 ||| fl % 32) h)

/-- The rounding mode of an instruction: its own or frm; none where it is reserved. -/
def fRm (h : Hart) (rm : Nat) : Option Nat :=
  let m := if rm = 7 then bitsOf (hcsr h 3) 5 3 else rm
  if m ≤ 4 then some m else none

/-! ## Loads and stores -/

/-- Width field of a scalar floating-point access: 1 half, 2 single, 3 double. -/
def fMemFmt (f3 : Nat) : Option FFmt :=
  match f3 with
  | 1 => some fmtB
  | 2 => some fmtS
  | 3 => some fmtD
  | _ => none

def trFpLoad (c len i : Nat) (h : Hart) (s : State) : TrOut :=
  match fMemFmt (fF3 i) with
  | none => .ill s
  | some f =>
    if !extOn h 13 then .ill s
    else trThen (trLoad c h (2 ^ fF3 i) (addrOf h i (immI i)) s) h fun v s' => .go (pcAdd len (fPut f (fRd i) v h)) s'

def trFpStore (c len i : Nat) (h : Hart) (s : State) : TrOut :=
  match fMemFmt (fF3 i) with
  | none => .ill s
  | some _ =>
    if !extOn h 13 then .ill s
    else trThen (trStore c h (2 ^ fF3 i) (addrOf h i (immS i)) (fBits h (fRs2 i)) s) h fun _ s' => .go (pcAdd len h) s'

/-! ## Computation -/

/-- The fmt field: single or double. -/
def fFmtOf (i : Nat) : Option FFmt :=
  match bitsOf i 25 2 with
  | 0 => some fmtS
  | 1 => some fmtD
  | _ => none

/-- A result of format f with its flags. -/
def fResult (len i : Nat) (f : FFmt) (h : Hart) (s : State) (r : Nat × Nat) : TrOut :=
  .go (pcAdd len (fAccrue r.2 (fPut f (fRd i) r.1 h))) s

/-- A result in an integer register with its flags. -/
def fToX (len i : Nat) (h : Hart) (s : State) (r : Nat × Nat) : TrOut :=
  .go (pcAdd len (fAccrue r.2 (xPut (fRd i) r.1 h))) s

/-- FMADD, FMSUB, FNMSUB, FNMADD: opcodes 0x43, 0x47, 0x4B, 0x4F. -/
def trFma (len i : Nat) (h : Hart) (s : State) : TrOut :=
  match fFmtOf i, fRm h (fF3 i) with
  | some f, some rm =>
    if !extOn h 13 then .ill s
    else
      let k := bitsOf i 2 2
      fResult len i f h s (fpFma f f rm (decide (2 ≤ k)) (k == 1 || k == 3)
        (fGet f h (fRs1 i)) (fGet f h (fRs2 i)) (fGet f h (bitsOf i 27 5)))
  | _, _ => .ill s

/-- Integer formats of the conversions, by rs2: width and signedness. -/
def fIntFmt (n : Nat) : Nat × Bool := (if n < 2 then 32 else 64, n % 2 == 0)

/-- Single- and double-precision operations of OP-FP. -/
def trFpOp (len i : Nat) (f : FFmt) (h : Hart) (s : State) : TrOut :=
  let a := fGet f h (fRs1 i)
  let b := fGet f h (fRs2 i)
  let f3 := fF3 i
  let n := fRs2 i
  let rnd (k : Nat → TrOut) : TrOut := match fRm h f3 with
    | some rm => k rm
    | none => .ill s
  match bitsOf i 27 5 with
  | 0 => rnd fun rm => fResult len i f h s (fpAdd f rm false a b)
  | 1 => rnd fun rm => fResult len i f h s (fpAdd f rm true a b)
  | 2 => rnd fun rm => fResult len i f h s (fpMul f rm a b)
  | 3 => rnd fun rm => fResult len i f h s (fpDiv f rm a b)
  | 0xB => if n ≠ 0 then .ill s else rnd fun rm => fResult len i f h s (fpSqrt f rm a)
  | 4 => if 2 < f3 then .ill s else fResult len i f h s (fpSgnj f f3 a b, 0)
  | 5 => if 1 < f3 then .ill s else fResult len i f h s (fpMinMax f (f3 == 1) a b)
  | 8 =>
    if f = fmtS ∧ n = 1 then rnd fun rm => fResult len i f h s (fpCvt fmtD f rm (fGet fmtD h (fRs1 i)))
    else if f = fmtD ∧ n = 0 then rnd fun rm => fResult len i f h s (fpCvt fmtS f rm (fGet fmtS h (fRs1 i)))
    else if f = fmtS ∧ n = 6 then rnd fun rm => fResult len i f h s (fpCvt fmtB f rm (fGet fmtB h (fRs1 i)))
    else .ill s
  | 0x14 =>
    let cmp (quiet : Bool) (p : Int → Int → Bool) : TrOut :=
      let r := fpCmp f quiet p a b
      fToX len i h s (b2n r.1, r.2)
    if f3 = 2 then cmp true (fun x y => x == y)
    else if f3 = 1 then cmp false (fun x y => decide (x < y))
    else if f3 = 0 then cmp false (fun x y => decide (x ≤ y))
    else .ill s
  | 0x18 =>
    if 3 < n then .ill s
    else rnd fun rm =>
      let r := fpToInt f rm (fIntFmt n).1 (fIntFmt n).2 a
      fToX len i h s (sx (fIntFmt n).1 r.1, r.2)
  | 0x1A =>
    if 3 < n then .ill s
    else rnd fun rm =>
      let w := (fIntFmt n).1
      let x := xGet h (fRs1 i) % 2 ^ w
      fResult len i f h s (fpFromInt f rm (if (fIntFmt n).2 then sgn w x else (x : Nat)))
  | 0x1C =>
    if n ≠ 0 then .ill s
    else if f3 = 0 then fToX len i h s (sx (fWidth f) (fBits h (fRs1 i)), 0)
    else if f3 = 1 then fToX len i h s (fpClass f a, 0)
    else .ill s
  | 0x1E => if n ≠ 0 ∨ f3 ≠ 0 then .ill s else fResult len i f h s (xGet h (fRs1 i), 0)
  | _ => .ill s

/-- The BF16 operations of OP-FP (Zfbfmin): FCVT.BF16.S and the moves of half registers. -/
def trFpHalf (len i : Nat) (h : Hart) (s : State) : TrOut :=
  let n := fRs2 i
  match bitsOf i 27 5 with
  | 8 =>
    match fRm h (fF3 i) with
    | some rm => if n = 8 then fResult len i fmtB h s (fpCvt fmtS fmtB rm (fGet fmtS h (fRs1 i))) else .ill s
    | none => .ill s
  | 0x1C => if n = 0 ∧ fF3 i = 0 then fToX len i h s (sx 16 (fBits h (fRs1 i)), 0) else .ill s
  | 0x1E => if n = 0 ∧ fF3 i = 0 then fResult len i fmtB h s (xGet h (fRs1 i), 0) else .ill s
  | _ => .ill s

def trOpFp (len i : Nat) (h : Hart) (s : State) : TrOut :=
  if !extOn h 13 then .ill s
  else match bitsOf i 25 2 with
    | 0 => trFpOp len i fmtS h s
    | 1 => trFpOp len i fmtD h s
    | 2 => trFpHalf len i h s
    | _ => .ill s

end Sys2Proof.Machine
end

