-- ==== Sys2Proof/Machine/TrVec.lean ====
section
/-! DEFINITION. The vector unit of a Trestle core (R641: V 1.0, VLEN 256, ELEN 64): registers and groups, vtype and vl,
masks, the write-back of elements, and the vector loads and stores. From the RISC-V standard that R641 names. An
agnostic element is a free choice between keeping its value and all ones; an agnostic mask bit is free. -/

namespace Sys2Proof.Machine

open Sys2Proof

/-! ## Registers -/

def vReg (h : Hart) (r : Nat) : Nat := (tabGet 0 h.v (r % 32)).toNat

/-- Element i of the group that begins at register r, w bits wide. -/
def vElem (h : Hart) (r w i : Nat) : Nat := bitsOf (vReg h (r + i * w / 256)) (i * w % 256) w

/-- Bit i of a mask register. -/
def vBit (h : Hart) (r i : Nat) : Bool := bitAt (vReg h r) i

/-- Put an element. -/
def vElemPut (r w i v : Nat) (h : Hart) : Hart :=
  let k := (r + i * w / 256) % 32
  let lo := i * w % 256
  let old := vReg h k
  { h with v := tabPut 0 h.v k (BitVec.ofNat 256 (old - atBit (bitsOf old lo w) lo + atBit (v % 2 ^ w) lo)) }

/-! ## Configuration -/

/-- What a vector instruction runs with: the hart before it, its word, vl, vstart, SEW, LMUL as a power of two, the tail
and mask policies, and the counter of free values. -/
structure VCtx where
  h : Hart
  i : Nat
  vl : Nat
  vstart : Nat
  sew : Nat
  lm : Int
  vta : Bool
  vma : Bool
  free : Nat

def vSew (vt : Nat) : Nat := 8 * 2 ^ bitsOf vt 3 3
def vLm (vt : Nat) : Int := sgn 3 (bitsOf vt 0 3)

/-- Number of w-bit elements of a group of 2^e registers. -/
def vElems (e : Int) (w : Nat) : Nat := if e < 0 then 256 / w / 2 ^ (-e).toNat else 256 / w * 2 ^ e.toNat

def vLmax (vt : Nat) : Nat := vElems (vLm vt) (vSew vt)

/-- Is a vtype supported? LMUL = 2^-4 is reserved, and a fractional LMUL needs SEW ≤ LMUL × ELEN. -/
def vtypeOk (vt : Nat) : Bool :=
  decide (vt < 256) && decide (vSew vt ≤ 64) && vLm vt != -4 && (decide (0 ≤ vLm vt) || decide (vSew vt * 2 ^ (-(vLm vt)).toNat ≤ 64))

def vCtx (i : Nat) (h : Hart) (s : State) : VCtx :=
  let vt := hcsr h 0xC21
  ⟨h, i, hcsr h 0xC20, hcsr h 8, vSew vt, vLm vt, bitAt vt 6, bitAt vt 7, s.free⟩

def vill (h : Hart) : Bool := bitAt (hcsr h 0xC21) 63

/-- Fields. -/
def fVm (i : Nat) : Bool := bitAt i 25
def fF6 (i : Nat) : Nat := bitsOf i 26 6

/-- log2 of a width over SEW, added to LMUL: the EMUL of operands of that width. -/
def vEmul (x : VCtx) (w : Nat) : Int := x.lm + (Nat.log2 w : Int) - (Nat.log2 x.sew : Int)

/-- Registers of a group. -/
def vRegs (e : Int) : Nat := if e < 0 then 1 else 2 ^ e.toNat

/-- Is a group legal: EMUL within 1/8 to 8, and its first register aligned? -/
def vGroupOk (r : Nat) (e : Int) : Bool := decide (-3 ≤ e) && decide (e ≤ 3) && r % vRegs e == 0

/-- Do two groups share a register? -/
def vMeets (a : Nat) (ea : Int) (b : Nat) (eb : Int) : Bool := decide (a < b + vRegs eb) && decide (b < a + vRegs ea)

/-- May a destination of width wd overlap a source of width ws as it does? -/
def vOverlapOk (d : Nat) (ed : Int) (wd r : Nat) (er : Int) (wr : Nat) : Bool :=
  !vMeets d ed r er || wd == wr || (decide (wd < wr) && d == r) ||
    (decide (wr < wd) && decide (0 ≤ er) && r + vRegs er == d + vRegs ed)

/-- A source group: its register and the width of its elements. -/
abbrev VSrc := Nat × Nat

/-- Sources that differ in width do not share a register; a mask in v0 counts as width 1. -/
def vSrcsOk (x : VCtx) (l : List VSrc) : Bool :=
  let all := (if fVm x.i then [] else [(0, 1)]) ++ l
  let e (w : Nat) : Int := if w = 1 then 0 else vEmul x w
  all.all fun a => all.all fun b => a.2 == b.2 || !vMeets a.1 (e a.2) b.1 (e b.2)

/-- Is the shape legal: a destination of width w (a mask: 1) and sources, each at its own width? -/
def vShape (x : VCtx) (d w : Nat) (l : List VSrc) : Bool :=
  let e (w : Nat) : Int := if w = 1 then 0 else vEmul x w
  vGroupOk d (e w) && l.all (fun a => vGroupOk a.1 (e a.2) && vOverlapOk d (e w) w a.1 (e a.2) a.2) && vSrcsOk x l &&
    (w == 1 || fVm x.i || d != 0)

/-! ## Write-back of elements -/

/-- Is element i active? -/
def vActive (x : VCtx) (i : Nat) : Bool := fVm x.i || vBit x.h 0 i

/-- The k-th free bit of the instruction. (PRESUMED, log entry 34) -/
def agnBit (x : VCtx) (k : Nat) : Bool := bitAt (Config.freeValue (x.free + k / 64)).toNat (k % 64)

/-- An element that the instruction does not compute: undisturbed, or agnostic. (PRESUMED, log entry 34) -/
def vLeave (x : VCtx) (agn : Bool) (d w i k : Nat) (h : Hart) : Hart :=
  if agn && agnBit x k then vElemPut d w i (2 ^ w - 1) h else h

/-- Elements from lo up to hi written with f (value, flags), past hi the tail, up to n elements in all. `masked`: v0
decides. Bits 0 to 4 of the flags are those of fcsr, bit 5 is vxsat. -/
def vBody (x : VCtx) (masked : Bool) (d w lo hi : Nat) (f : Nat → Nat × Nat) : List Nat → Hart × Nat → Hart × Nat
  | [], q => q
  | i :: t, q =>
    let q' : Hart × Nat :=
      if i < min lo hi then q
      else if hi ≤ i then (vLeave x x.vta d w i i q.1, q.2)
      else if !masked || vActive x i then (vElemPut d w i (f i).1 q.1, q.2 ||| (f i).2)
      else (vLeave x x.vma d w i i q.1, q.2)
    vBody x masked d w lo hi f t q'

/-- Vector state dirty, vstart 0. -/
def vDirty (h : Hart) : Hart := extDirty 9 (hset 8 0 h)

/-- Flags: fcsr and vxsat. -/
def vAccrue (fl : Nat) (h : Hart) : Hart := fAccrue fl (if bitAt fl 5 then hset 0xF (hcsr h 0xF ||| 1) h else h)

/-- The instruction is over; it used up its free values. -/
def vEnd (len : Nat) (h : Hart) (s : State) : TrOut := .go (pcAdd len (vDirty h)) { s with free := s.free + 64 }

/-- An element-wise instruction with destination width w. -/
def vEachIn (x : VCtx) (masked : Bool) (d w lo hi : Nat) (f : Nat → Nat × Nat) : Hart :=
  if x.vl ≤ x.vstart then x.h
  else
    let q := vBody x masked d w lo hi f (natsFrom 0 (max (vElems (vEmul x w) w) (256 / w))) (x.h, 0)
    vAccrue q.2 q.1

def vEach (x : VCtx) (d w : Nat) (f : Nat → Nat × Nat) : Hart := vEachIn x true d w x.vstart x.vl f

/-- A mask result: bit i from f; bits past vl are agnostic. -/
def vMaskBits (x : VCtx) (masked : Bool) (d : Nat) (f : Nat → Bool × Nat) : List Nat → Hart × Nat → Hart × Nat
  | [], q => q
  | i :: t, q =>
    let put (b : Bool) (h : Hart) : Hart := vElemPut d 1 i (b2n b) h
    let q' : Hart × Nat :=
      if i < x.vstart then q
      else if x.vl ≤ i then (put (agnBit x i) q.1, q.2)
      else if !masked || vActive x i then (put (f i).1 q.1, q.2 ||| (f i).2)
      else if x.vma then (put (vBit x.h d i || agnBit x i) q.1, q.2)
      else q
    vMaskBits x masked d f t q'

def vMask (x : VCtx) (masked : Bool) (d : Nat) (f : Nat → Bool × Nat) : Hart :=
  if x.vl ≤ x.vstart then x.h
  else
    let q := vMaskBits x masked d f (natsFrom 0 256) (x.h, 0)
    vAccrue q.2 q.1

/-! ## VSETVL -/

/-- vl for an application vector length: between VLMAX and twice it, an implementation's choice within the bounds.
(PRESUMED, log entry 34) -/
def vlFor (avl vlmax : Nat) : Nat :=
  if avl ≤ vlmax then avl
  else if avl < 2 * vlmax then max ((avl + 1) / 2) (min vlmax (Config.vectorLength avl vlmax))
  else vlmax

def vSet (len i : Nat) (h : Hart) (s : State) : TrOut :=
  let form := if !bitAt i 31 then 0 else if bitAt i 30 then 1 else 2
  if form = 2 ∧ bitsOf i 25 5 ≠ 0 then .ill s
  else
    let vt := if form = 0 then bitsOf i 20 11 else if form = 1 then bitsOf i 20 10 else xGet h (fRs2 i)
    let keep := form ≠ 1 ∧ fRs1 i = 0 ∧ fRd i = 0
    let max := vLmax vt
    let bad := !vtypeOk vt || (keep && (vill h || vLmax (hcsr h 0xC21) != max))
    let vl := if bad then 0
      else if form = 1 then vlFor (fRs1 i) max
      else if fRs1 i ≠ 0 then vlFor (xGet h (fRs1 i)) max
      else if fRd i ≠ 0 then max
      else hcsr h 0xC20
    let h := hset 0xC21 (if bad then 2 ^ 63 else vt) (hset 0xC20 vl h)
    .go (pcAdd len (vDirty (xPut (fRd i) vl h))) s

/-! ## Loads and stores -/

/-- What a run over elements comes to: all done, or it ended at an element. -/
inductive VRun where
  | fin (h : Hart) (s : State)
  | cut (i : Nat) (r : TrRes) (h : Hart) (s : State)

/-- Fields j of element i, in turn: each one access. -/
def vFields (f : Nat → Hart → State → Hart × State × TrRes) : List Nat → Hart → State → Hart × State × TrRes
  | [], h, s => (h, s, .ok 0)
  | j :: t, h, s =>
    let q := f j h s
    match q.2.2 with
    | .ok _ => vFields f t q.1 q.2.1
    | _ => q

def vRun (f : Nat → Nat → Hart → State → Hart × State × TrRes) (fields : List Nat) : List Nat → Hart → State → VRun
  | [], h, s => .fin h s
  | i :: t, h, s =>
    let q := vFields (f i) fields h s
    match q.2.2 with
    | .ok _ => vRun f fields t q.1 q.2.1
    | r => .cut i r q.1 q.2.1

/-- A memory instruction as laid out: data width, registers between fields, fields, elements, whether v0 masks, the
tail's policy, and whether an exception past element 0 shortens vl. -/
structure VMem where
  w : Nat
  regs : Nat
  nf : Nat
  n : Nat
  masked : Bool
  tail : Bool
  first : Bool
  addr : Nat → Nat

/-- One element of a load. -/
def vLoadElem (c : Nat) (x : VCtx) (m : VMem) (i j : Nat) (h : Hart) (s : State) : Hart × State × TrRes :=
  let q := trLoad c x.h (m.w / 8) ((m.addr i + j * (m.w / 8)) % 2 ^ 64) s
  match q.2 with
  | .ok v => (vElemPut (fRd x.i + j * m.regs) m.w i v h, q.1, .ok 0)
  | r => (h, q.1, r)

/-- One element of a store. -/
def vStoreElem (c : Nat) (x : VCtx) (m : VMem) (i j : Nat) (h : Hart) (s : State) : Hart × State × TrRes :=
  let q := trStore c x.h (m.w / 8) ((m.addr i + j * (m.w / 8)) % 2 ^ 64) (vElem x.h (fRd x.i + j * m.regs) m.w i) s
  (h, q.1, q.2)

/-- Masked-off and tail elements of a load, for each field. -/
def vLoadRest (x : VCtx) (m : VMem) (hi : Nat) (h : Hart) : Hart :=
  let per := max (m.regs * 256 / m.w) (256 / m.w)
  (natsFrom 0 m.nf).foldl (fun h j => (natsFrom 0 per).foldl (fun h i =>
    let d := fRd x.i + j * m.regs
    let k := 256 * j + i
    if hi ≤ i then vLeave x m.tail d m.w i k h
    else if x.vstart ≤ i ∧ m.masked ∧ !vActive x i then vLeave x x.vma d m.w i k h
    else h) h) h

/-- Run a load or a store; an exception or a wait leaves vstart at its element. (PRESUMED, log entry 34) -/
def vMemGo (c len : Nat) (x : VCtx) (m : VMem) (store : Bool) (s : State) : TrOut :=
  let idx := (natsFrom x.vstart (m.n - x.vstart)).filter fun i => !m.masked || vActive x i
  let rest (hi : Nat) (h : Hart) : Hart := if store || decide (m.n ≤ x.vstart) then h else vLoadRest x m hi h
  match vRun (if store then vStoreElem c x m else vLoadElem c x m) (natsFrom 0 m.nf) idx x.h s with
  | .fin h s => vEnd len (rest m.n h) s
  | .cut i (.trap cause tval) h s =>
    if m.first ∧ i ≠ 0 then vEnd len (rest i (hset 0xC20 i h)) s
    else .trap cause tval (extDirty 9 (hset 8 i h)) s
  | .cut i _ h s => .stall (extDirty 9 (hset 8 i h)) s

/-- Width field of a vector access. -/
def vWidth (f3 : Nat) : Option Nat :=
  match f3 with
  | 0 => some 8
  | 5 => some 16
  | 6 => some 32
  | 7 => some 64
  | _ => none

/-- Data groups of an access: aligned, at most 8 registers in all, none past v31, and not v0 under a mask. -/
def vDataOk (x : VCtx) (store : Bool) (w nf : Nat) : Bool :=
  let e := vEmul x w
  let d := fRd x.i
  vGroupOk d e && decide (vRegs e * nf ≤ 8) && decide (d + vRegs e * nf ≤ 32) && (store || fVm x.i || d != 0) &&
    (!store || fVm x.i || d != 0)

/-- Unit-stride accesses by their lumop or sumop. -/
def vUnit (c len w nf : Nat) (x : VCtx) (store : Bool) (s : State) : TrOut :=
  let base := xGet x.h (fRs1 x.i)
  let e := vEmul x w
  let go (m : VMem) : TrOut := vMemGo c len x m store s
  match fRs2 x.i with
  | 8 =>
    if !fVm x.i ∨ !([1, 2, 4, 8].contains nf) ∨ fRd x.i % nf ≠ 0 ∨ (store ∧ w ≠ 8) then .ill s
    else go ⟨w, nf, 1, nf * 256 / w, false, false, false, fun i => base + i * (w / 8)⟩
  | 0xB =>
    if vill x.h ∨ !fVm x.i ∨ nf ≠ 1 ∨ w ≠ 8 then .ill s
    else go ⟨8, 1, 1, (x.vl + 7) / 8, false, true, false, fun i => base + i⟩
  | 0 =>
    if vill x.h ∨ !vDataOk x store w nf then .ill s
    else go ⟨w, vRegs e, nf, x.vl, true, x.vta, false, fun i => base + i * nf * (w / 8)⟩
  | 0x10 =>
    if vill x.h ∨ store ∨ !vDataOk x store w nf then .ill s
    else go ⟨w, vRegs e, nf, x.vl, true, x.vta, true, fun i => base + i * nf * (w / 8)⟩
  | _ => .ill s

/-- Indexed accesses: the index group has the width of the encoding, the data SEW. -/
def vIndexed (c len w nf : Nat) (x : VCtx) (store : Bool) (s : State) : TrOut :=
  let e := vEmul x x.sew
  let ei := vEmul x w
  let d := fRd x.i
  let r := fRs2 x.i
  let lap := if store then x.sew == w || !vMeets d e r ei
    else if nf = 1 then vOverlapOk d e x.sew r ei w
    else !(decide (d < r + vRegs ei) && decide (r < d + nf * vRegs e))
  if vill x.h ∨ !vDataOk x store x.sew nf ∨ !vGroupOk r ei ∨ !lap ∨ !(fVm x.i || !vMeets 0 0 r ei) then .ill s
  else
    vMemGo c len x ⟨x.sew, vRegs e, nf, x.vl, true, x.vta, false, fun i => xGet x.h (fRs1 x.i) + vElem x.h r w i⟩ store s

/-- Vector loads (opcode 0x07) and stores (opcode 0x27). -/
def trVecMem (c len i : Nat) (store : Bool) (h : Hart) (s : State) : TrOut :=
  match vWidth (fF3 i) with
  | none => .ill s
  | some w =>
    let x := vCtx i h s
    let nf := bitsOf i 29 3 + 1
    if !extOn h 9 ∨ bitAt i 28 then .ill s
    else match bitsOf i 26 2 with
      | 0 => vUnit c len w nf x store s
      | 2 =>
        if vill h ∨ !vDataOk x store w nf then .ill s
        else
          let step := xGet h (fRs2 i)
          vMemGo c len x ⟨w, vRegs (vEmul x w), nf, x.vl, true, x.vta, false,
            fun k => xGet h (fRs1 i) + k * step⟩ store s
      | _ => vIndexed c len w nf x store s

end Sys2Proof.Machine
end

