-- ==== Sys2Proof/Machine/TrVecInt.lean ====
section
/-! DEFINITION. Vector integer, fixed-point, mask and permutation instructions of a Trestle core (R641: V 1.0). From the
RISC-V standard that R641 names; a reserved encoding is an illegal instruction. -/

namespace Sys2Proof.Machine

open Sys2Proof

/-! ## Operand forms -/

/-- The second operand: a vector, an integer register, an immediate. -/
inductive VOp where
  | vv | vx | vi
  deriving DecidableEq, Repr

/-- Operand 1 as element i of width w: vs1[i], rs1, or the signed immediate. -/
def vSrc1 (x : VCtx) (k : VOp) (w i : Nat) : Nat :=
  match k with
  | .vv => vElem x.h (fRs1 x.i) w i
  | .vx => xGet x.h (fRs1 x.i) % 2 ^ w
  | .vi => unsgn w (sgn 5 (fRs1 x.i))

/-- The same with the immediate unsigned (shifts, slides, gathers). -/
def vSrc1U (x : VCtx) (k : VOp) (w i : Nat) : Nat :=
  match k with
  | .vi => fRs1 x.i
  | _ => vSrc1 x k w i

/-- Sources of a two-operand instruction: vs2 at width w2, and vs1 at w1 where it is a vector. -/
def vSrcs (x : VCtx) (k : VOp) (w2 w1 : Nat) : List VSrc :=
  (fRs2 x.i, w2) :: (if k = .vv then [(fRs1 x.i, w1)] else [])

/-- The outcome of an instruction whose shape is legal or not. -/
def vOut (len : Nat) (ok : Bool) (h : Hart) (s : State) : TrOut := if ok then vEnd len h s else .ill s

/-- Element-wise with operands and result of SEW. -/
def vSame (len : Nat) (x : VCtx) (k : VOp) (uns : Bool) (f : Nat → Nat → Nat × Nat) (s : State) : TrOut :=
  let w := x.sew
  let b (i : Nat) : Nat := if uns then vSrc1U x k w i else vSrc1 x k w i
  vOut len (vShape x (fRd x.i) w (vSrcs x k w w)) (vEach x (fRd x.i) w fun i => f (vElem x.h (fRs2 x.i) w i) (b i)) s

/-! ## Integer arithmetic -/

/-- Single-width operations of OPI: result from vs2 and operand 1. -/
def vIntOp (w f6 a b : Nat) : Option Nat :=
  match f6 with
  | 0x00 => some (aluOp w 0 false a b)
  | 0x02 => some (aluOp w 0 true a b)
  | 0x03 => some (aluOp w 0 true b a)
  | 0x04 => some (min a b)
  | 0x05 => some (if sgn w a ≤ sgn w b then a else b)
  | 0x06 => some (max a b)
  | 0x07 => some (if sgn w a ≤ sgn w b then b else a)
  | 0x09 => some (a &&& b)
  | 0x0A => some (a ||| b)
  | 0x0B => some (a ^^^ b)
  | 0x25 => some (aluOp w 1 false a b)
  | 0x28 => some (aluOp w 5 false a b)
  | 0x29 => some (aluOp w 5 true a b)
  | _ => none

/-- The forms that OPI instructions have: vector, register, immediate. -/
def vIntForm (f6 : Nat) (k : VOp) : Bool :=
  match k with
  | .vv => f6 != 0x03
  | .vx => true
  | .vi => !([0x02, 0x04, 0x05, 0x06, 0x07].contains f6)

/-- Single-width operations of OPM: multiply, divide. -/
def vMulOp (w f6 a b : Nat) : Option Nat :=
  match f6 with
  | 0x20 => some (mulOp w 5 a b)
  | 0x21 => some (mulOp w 4 a b)
  | 0x22 => some (mulOp w 7 a b)
  | 0x23 => some (mulOp w 6 a b)
  | 0x24 => some (mulOp w 3 a b)
  | 0x25 => some (mulOp w 0 a b)
  | 0x26 => some (mulOp w 2 a b)
  | 0x27 => some (mulOp w 1 a b)
  | _ => none

/-! ## Fixed point -/

def vxrm (h : Hart) : Nat := bitsOf (hcsr h 0xF) 1 2

/-- v / 2^d under a rounding mode: to nearest up, to nearest even, down, to odd. -/
def vRound (rm : Nat) (v : Int) (d : Nat) : Int :=
  let q := v / 2 ^ d
  let r := v % 2 ^ d
  let half : Int := 2 ^ d / 2
  if d = 0 then v
  else match rm with
    | 0 => if half ≤ r then q + 1 else q
    | 1 => if half < r ∨ (half = r ∧ q % 2 ≠ 0) then q + 1 else q
    | 2 => q
    | _ => if r ≠ 0 ∧ q % 2 = 0 then q + 1 else q

/-- Clip to w bits, signed or unsigned; bit 5 of the flags tells saturation. -/
def vClip (w : Nat) (signed : Bool) (v : Int) : Nat × Nat :=
  let hi : Int := if signed then 2 ^ (w - 1) - 1 else 2 ^ w - 1
  let lo : Int := if signed then -(2 ^ (w - 1)) else 0
  if v < lo then (unsgn w lo, 32) else if hi < v then (unsgn w hi, 32) else (unsgn w v, 0)

/-- Fixed-point operations of OPI. -/
def vFixOp (rm w f6 a b : Nat) : Option (Nat × Nat) :=
  let x := sgn w a
  let y := sgn w b
  match f6 with
  | 0x20 => some (vClip w false ((a : Int) + b))
  | 0x21 => some (vClip w true (x + y))
  | 0x22 => some (vClip w false ((a : Int) - b))
  | 0x23 => some (vClip w true (x - y))
  | 0x27 => some (vClip w true (vRound rm (x * y) (w - 1)))
  | 0x2A => some (unsgn w (vRound rm a (b % w)), 0)
  | 0x2B => some (unsgn w (vRound rm x (b % w)), 0)
  | _ => none

/-- Averaging operations of OPM. -/
def vAvgOp (rm w f6 a b : Nat) : Option Nat :=
  let x := sgn w a
  let y := sgn w b
  match f6 with
  | 0x08 => some (unsgn w (vRound rm ((a : Int) + b) 1))
  | 0x09 => some (unsgn w (vRound rm (x + y) 1))
  | 0x0A => some (unsgn w (vRound rm ((a : Int) - b) 1))
  | 0x0B => some (unsgn w (vRound rm (x - y) 1))
  | _ => none

/-! ## Carries, compares, merges -/

/-- Carry in of element i: its mask bit, where the instruction has one. -/
def vCarry (x : VCtx) (i : Nat) : Nat := if fVm x.i then 0 else b2n (vBit x.h 0 i)

/-- VADC and VSBC. -/
def vAdc (len : Nat) (x : VCtx) (k : VOp) (sub : Bool) (s : State) : TrOut :=
  let w := x.sew
  let d := fRd x.i
  let f (i : Nat) : Nat × Nat :=
    let a := vElem x.h (fRs2 x.i) w i
    let b := vSrc1 x k w i
    (if sub then unsgn w ((a : Int) - b - vCarry x i) else (a + b + vCarry x i) % 2 ^ w, 0)
  vOut len (!fVm x.i && vShape x d w (vSrcs x k w w)) (vEachIn x false d w x.vstart x.vl f) s

/-- VMADC and VMSBC: the carry or borrow as a mask. -/
def vMadc (len : Nat) (x : VCtx) (k : VOp) (sub : Bool) (s : State) : TrOut :=
  let w := x.sew
  let f (i : Nat) : Bool × Nat :=
    let a := vElem x.h (fRs2 x.i) w i
    let b := vSrc1 x k w i
    (if sub then decide (a < b + vCarry x i) else decide (2 ^ w ≤ a + b + vCarry x i), 0)
  vOut len (vShape x (fRd x.i) 1 (vSrcs x k w w)) (vMask x false (fRd x.i) f) s

/-- Integer compares into a mask. -/
def vCmpOp (w f6 a b : Nat) : Option Bool :=
  match f6 with
  | 0x18 => some (a == b)
  | 0x19 => some (a != b)
  | 0x1A => some (decide (a < b))
  | 0x1B => some (decide (sgn w a < sgn w b))
  | 0x1C => some (decide (a ≤ b))
  | 0x1D => some (decide (sgn w a ≤ sgn w b))
  | 0x1E => some (decide (b < a))
  | 0x1F => some (decide (sgn w b < sgn w a))
  | _ => none

def vCmpForm (f6 : Nat) (k : VOp) : Bool :=
  match k with
  | .vv => decide (f6 < 0x1E)
  | .vx => true
  | .vi => f6 != 0x1A && f6 != 0x1B

def vCompare (len : Nat) (x : VCtx) (k : VOp) (s : State) : TrOut :=
  let w := x.sew
  let f (i : Nat) : Bool × Nat := ((vCmpOp w (fF6 x.i) (vElem x.h (fRs2 x.i) w i) (vSrc1 x k w i)).getD false, 0)
  vOut len (vCmpForm (fF6 x.i) k && vShape x (fRd x.i) 1 (vSrcs x k w w)) (vMask x true (fRd x.i) f) s

/-- VMERGE; with vm = 1 VMV.V, which has no vs2. -/
def vMerge (len : Nat) (x : VCtx) (b : Nat → Nat) (vec : Bool) (s : State) : TrOut :=
  let w := x.sew
  let d := fRd x.i
  let srcs := (if fVm x.i then [] else [(fRs2 x.i, w)]) ++ (if vec then [(fRs1 x.i, w)] else [])
  let f (i : Nat) : Nat × Nat := (if fVm x.i || vBit x.h 0 i then b i else vElem x.h (fRs2 x.i) w i, 0)
  vOut len ((!fVm x.i || fRs2 x.i == 0) && vShape x d w srcs) (vEachIn x false d w x.vstart x.vl f) s

/-! ## Multiply-add, widening, narrowing -/

/-- VMADD, VNMSUB, VMACC, VNMSAC. -/
def vMacOp (w f6 d a b : Nat) : Option Nat :=
  match f6 with
  | 0x29 => some ((b * d + a) % 2 ^ w)
  | 0x2B => some (unsgn w ((a : Int) - b * d))
  | 0x2D => some ((b * a + d) % 2 ^ w)
  | 0x2F => some (unsgn w ((d : Int) - b * a))
  | _ => none

def vMac (len : Nat) (x : VCtx) (k : VOp) (s : State) : TrOut :=
  let w := x.sew
  let d := fRd x.i
  let f (i : Nat) : Nat × Nat :=
    ((vMacOp w (fF6 x.i) (vElem x.h d w i) (vElem x.h (fRs2 x.i) w i) (vSrc1 x k w i)).getD 0, 0)
  vOut len (vShape x d w (vSrcs x k w w)) (vEach x d w f) s

/-- A widening instruction: is operand 1 signed, is vs2 signed, is vs2 already wide, and the result from wide values
(vd, vs2, operand 1). -/
def vWidenOp (f6 : Nat) : Option (Bool × Bool × Bool × (Int → Int → Int → Int)) :=
  match f6 with
  | 0x30 => some (false, false, false, fun _ a b => a + b)
  | 0x31 => some (true, true, false, fun _ a b => a + b)
  | 0x32 => some (false, false, false, fun _ a b => a - b)
  | 0x33 => some (true, true, false, fun _ a b => a - b)
  | 0x34 => some (false, false, true, fun _ a b => a + b)
  | 0x35 => some (true, true, true, fun _ a b => a + b)
  | 0x36 => some (false, false, true, fun _ a b => a - b)
  | 0x37 => some (true, true, true, fun _ a b => a - b)
  | 0x38 => some (false, false, false, fun _ a b => a * b)
  | 0x3A => some (false, true, false, fun _ a b => a * b)
  | 0x3B => some (true, true, false, fun _ a b => a * b)
  | 0x3C => some (false, false, false, fun d a b => d + a * b)
  | 0x3D => some (true, true, false, fun d a b => d + a * b)
  | 0x3E => some (false, true, false, fun d a b => d + a * b)
  | 0x3F => some (true, false, false, fun d a b => d + a * b)
  | _ => none

def vInt (signed : Bool) (w v : Nat) : Int := if signed then sgn w v else (v : Nat)

def vWiden (len : Nat) (x : VCtx) (k : VOp) (s : State) : TrOut :=
  let w := x.sew
  let d := fRd x.i
  match vWidenOp (fF6 x.i) with
  | none => .ill s
  | some (sb, sa, wide, op) =>
    let wa := if wide then 2 * w else w
    let f (i : Nat) : Nat × Nat :=
      (unsgn (2 * w) (op (vElem x.h d (2 * w) i) (vInt sa wa (vElem x.h (fRs2 x.i) wa i)) (vInt sb w (vSrc1 x k w i))), 0)
    vOut len (decide (w ≤ 32) && (fF6 x.i != 0x3E || k != .vv) && vShape x d (2 * w) (vSrcs x k wa w))
      (vEach x d (2 * w) f) s

/-- VNSRL, VNSRA, VNCLIPU, VNCLIP. -/
def vNarrowOp (rm w f6 a b : Nat) : Nat × Nat :=
  let n := b % (2 * w)
  match f6 with
  | 0x2C => (a / 2 ^ n % 2 ^ w, 0)
  | 0x2D => (unsgn w (sgn (2 * w) a / 2 ^ n), 0)
  | 0x2E => vClip w false (vRound rm a n)
  | _ => vClip w true (vRound rm (sgn (2 * w) a) n)

def vNarrow (len : Nat) (x : VCtx) (k : VOp) (s : State) : TrOut :=
  let w := x.sew
  let f (i : Nat) : Nat × Nat := vNarrowOp (vxrm x.h) w (fF6 x.i) (vElem x.h (fRs2 x.i) (2 * w) i) (vSrc1U x k w i)
  vOut len (decide (w ≤ 32) && vShape x (fRd x.i) w (vSrcs x k (2 * w) w)) (vEach x (fRd x.i) w f) s

/-- VZEXT and VSEXT. -/
def vExtend (len : Nat) (x : VCtx) (s : State) : TrOut :=
  let n := fRs1 x.i
  let w := x.sew
  let ws := w / 2 ^ (4 - n / 2)
  let f (i : Nat) : Nat × Nat := (unsgn w (vInt (n % 2 == 1) ws (vElem x.h (fRs2 x.i) ws i)), 0)
  vOut len (decide (2 ≤ n) && decide (n ≤ 7) && decide (8 ≤ ws) && vShape x (fRd x.i) w [(fRs2 x.i, ws)])
    (vEach x (fRd x.i) w f) s

/-! ## Reductions -/

def vRedOp (w f6 a b : Nat) : Nat :=
  match f6 with
  | 0 => (a + b) % 2 ^ w
  | 1 => a &&& b
  | 2 => a ||| b
  | 3 => a ^^^ b
  | 4 => min a b
  | 5 => if sgn w a ≤ sgn w b then a else b
  | 6 => max a b
  | _ => if sgn w a ≤ sgn w b then b else a

/-- The active elements of vs2, w bits wide. -/
def vActiveElems (x : VCtx) (w : Nat) : List Nat :=
  ((natsFrom 0 x.vl).filter (vActive x)).map fun i => vElem x.h (fRs2 x.i) w i

/-- A scalar into element 0 of vd, width w; the other elements are tail. -/
def vScalarPut (x : VCtx) (w : Nat) (r : Nat × Nat) : Hart :=
  if x.vl ≤ x.vstart then x.h
  else
    let q := vBody x false (fRd x.i) w 0 1 (fun _ => r) (natsFrom 0 (256 / w)) (x.h, 0)
    vAccrue q.2 q.1

/-- A reduction reads the group vs2 and element 0 of vs1. -/
def vRedOk (x : VCtx) (w w1 : Nat) : Bool :=
  x.vstart == 0 && vGroupOk (fRs2 x.i) (vEmul x w) && (w == w1 || !vMeets (fRs1 x.i) 0 (fRs2 x.i) (vEmul x w)) &&
    (fVm x.i || !vMeets 0 0 (fRs2 x.i) (vEmul x w)) && (fVm x.i || fRs1 x.i != 0)

def vReduce (len : Nat) (x : VCtx) (s : State) : TrOut :=
  let w := x.sew
  let r := (vActiveElems x w).foldl (vRedOp w (fF6 x.i)) (vElem x.h (fRs1 x.i) w 0)
  vOut len (vRedOk x w w) (vScalarPut x w (r, 0)) s

/-- VWREDSUMU and VWREDSUM. -/
def vWideReduce (len : Nat) (x : VCtx) (s : State) : TrOut :=
  let w := x.sew
  let signed := fF6 x.i == 0x31
  let r := (vActiveElems x w).foldl (fun (t : Int) e => t + vInt signed w e) (vElem x.h (fRs1 x.i) (2 * w) 0 : Nat)
  vOut len (decide (w ≤ 32) && vRedOk x w (2 * w)) (vScalarPut x (2 * w) (unsgn (2 * w) r, 0)) s

/-! ## Masks -/

/-- Logical operations of mask registers: on the bits of vs2 and vs1. -/
def vMaskOp (f6 : Nat) (a b : Bool) : Bool :=
  match f6 with
  | 0x18 => a && !b
  | 0x19 => a && b
  | 0x1A => a || b
  | 0x1B => a != b
  | 0x1C => a || !b
  | 0x1D => !(a && b)
  | 0x1E => !(a || b)
  | _ => a == b

def vMaskLogic (len : Nat) (x : VCtx) (s : State) : TrOut :=
  let f (i : Nat) : Bool × Nat := (vMaskOp (fF6 x.i) (vBit x.h (fRs2 x.i) i) (vBit x.h (fRs1 x.i) i), 0)
  vOut len (fVm x.i) (vMask x false (fRd x.i) f) s

/-- The active set bits of vs2 below vl. -/
def vSetBits (x : VCtx) : List Nat := (natsFrom 0 x.vl).filter fun i => vActive x i && vBit x.h (fRs2 x.i) i

/-- VMSBF, VMSOF, VMSIF, VIOTA, VID (VMUNARY0). -/
def vMaskUnary (len : Nat) (x : VCtx) (s : State) : TrOut :=
  let d := fRd x.i
  let r := fRs2 x.i
  let first := (vSetBits x).head?
  let mask (f : Nat → Bool) : TrOut :=
    vOut len (x.vstart == 0 && d != r && (fVm x.i || d != 0)) (vMask x true d fun i => (f i, 0)) s
  match fRs1 x.i with
  | 1 => mask fun i => first.all fun p => decide (i < p)
  | 2 => mask fun i => first == some i
  | 3 => mask fun i => first.all fun p => decide (i ≤ p)
  | 0x10 =>
    let ok := x.vstart == 0 && vGroupOk d x.lm && !vMeets d x.lm r 0 && (fVm x.i || d != 0)
    vOut len ok (vEach x d x.sew fun i => (((vSetBits x).filter (· < i)).length, 0)) s
  | 0x11 => vOut len (r == 0 && vGroupOk d x.lm && (fVm x.i || d != 0)) (vEach x d x.sew fun i => (i, 0)) s
  | _ => .ill s

/-- VMV.X.S, VCPOP, VFIRST (VWXUNARY0). -/
def vToX (len : Nat) (x : VCtx) (s : State) : TrOut :=
  let put (v : Nat) : Hart := xPut (fRd x.i) v x.h
  match fRs1 x.i with
  | 0 => vOut len (fVm x.i) (put (sx x.sew (vElem x.h (fRs2 x.i) x.sew 0))) s
  | 0x10 => vOut len (x.vstart == 0) (put (vSetBits x).length) s
  | 0x11 => vOut len (x.vstart == 0) (put ((vSetBits x).head?.getD (2 ^ 64 - 1))) s
  | _ => .ill s

/-! ## Permutations -/

/-- Legal for a slide or a gather: vd shares no register with a source. -/
def vApart (x : VCtx) (l : List VSrc) : Bool :=
  vShape x (fRd x.i) x.sew l && l.all fun a => !vMeets (fRd x.i) x.lm a.1 (vEmul x a.2)

/-- Element i of vs2, and 0 past VLMAX. -/
def vAt (x : VCtx) (i : Nat) : Nat := if i < vElems x.lm x.sew then vElem x.h (fRs2 x.i) x.sew i else 0

/-- An amount or an index from a register or an immediate: not cut to SEW. -/
def vAmount (x : VCtx) (k : VOp) : Nat := if k = .vi then fRs1 x.i else xGet x.h (fRs1 x.i)

def vSlideUp (len : Nat) (x : VCtx) (k : VOp) (s : State) : TrOut :=
  let n := vAmount x k
  let h := vEachIn x true (fRd x.i) x.sew (max x.vstart n) x.vl fun i => (vAt x (i - n), 0)
  vOut len (vApart x [(fRs2 x.i, x.sew)]) h s

def vSlideDown (len : Nat) (x : VCtx) (k : VOp) (s : State) : TrOut :=
  let n := vAmount x k
  vOut len (vShape x (fRd x.i) x.sew [(fRs2 x.i, x.sew)]) (vEach x (fRd x.i) x.sew fun i => (vAt x (i + n), 0)) s

/-- VSLIDE1UP and VSLIDE1DOWN, integer or floating-point: the scalar is given. -/
def vSlide1 (len : Nat) (x : VCtx) (up : Bool) (v : Nat) (s : State) : TrOut :=
  let l := [(fRs2 x.i, x.sew)]
  if up then vOut len (vApart x l) (vEach x (fRd x.i) x.sew fun i => (if i = 0 then v else vAt x (i - 1), 0)) s
  else
    vOut len (vShape x (fRd x.i) x.sew l)
      (vEach x (fRd x.i) x.sew fun i => (if i + 1 = x.vl then v else vAt x (i + 1), 0)) s

/-- VRGATHER, and VRGATHEREI16 with 16-bit indices. -/
def vGather (len : Nat) (x : VCtx) (k : VOp) (wi : Nat) (s : State) : TrOut :=
  let at_ (i : Nat) : Nat := if k = .vv then vElem x.h (fRs1 x.i) wi i else vAmount x k
  vOut len (vApart x (vSrcs x k x.sew wi)) (vEach x (fRd x.i) x.sew fun i => (vAt x (at_ i), 0)) s

def vCompress (len : Nat) (x : VCtx) (s : State) : TrOut :=
  let d := fRd x.i
  let sel := (natsFrom 0 x.vl).filter (vBit x.h (fRs1 x.i))
  let ok := fVm x.i && x.vstart == 0 && vApart x [(fRs2 x.i, x.sew)] && !vMeets d x.lm (fRs1 x.i) 0 &&
    !vMeets (fRs2 x.i) x.lm (fRs1 x.i) 0
  let n := max (vElems x.lm x.sew) (256 / x.sew)
  let h := if x.vl = 0 then x.h
    else (vBody x false d x.sew 0 sel.length (fun i => (vAt x (sel.getD i 0), 0)) (natsFrom 0 n) (x.h, 0)).1
  vOut len ok h s

/-- VMV1R, VMV2R, VMV4R, VMV8R. -/
def vMoveRegs (len : Nat) (x : VCtx) (s : State) : TrOut :=
  let n := fRs1 x.i + 1
  let e := n * 256 / x.sew
  let h := (natsFrom x.vstart (e - x.vstart)).foldl (fun h i =>
    vElemPut (fRd x.i) x.sew i (vElem x.h (fRs2 x.i) x.sew i) h) x.h
  vOut len (fVm x.i && [1, 2, 4, 8].contains n && fRd x.i % n == 0 && fRs2 x.i % n == 0) h s

/-! ## By opcode -/

/-- OPIVV, OPIVX, OPIVI. -/
def vOpi (len : Nat) (x : VCtx) (k : VOp) (s : State) : TrOut :=
  let f6 := fF6 x.i
  let uns := f6 == 0x25 || (0x28 ≤ f6 && f6 ≤ 0x2B)
  match f6 with
  | 0x0C => vGather len x k x.sew s
  | 0x0E => if k = .vv then vGather len x k 16 s else vSlideUp len x k s
  | 0x0F => if k = .vv then .ill s else vSlideDown len x k s
  | 0x10 => vAdc len x k false s
  | 0x11 => vMadc len x k false s
  | 0x12 => if k = .vi then .ill s else vAdc len x k true s
  | 0x13 => if k = .vi then .ill s else vMadc len x k true s
  | 0x17 => vMerge len x (vSrc1 x k x.sew) (k == .vv) s
  | 0x22 | 0x23 =>
    if k = .vi then .ill s else vSame len x k uns (fun a b => (vFixOp (vxrm x.h) x.sew f6 a b).getD (0, 0)) s
  | 0x20 | 0x21 | 0x2A | 0x2B => vSame len x k uns (fun a b => (vFixOp (vxrm x.h) x.sew f6 a b).getD (0, 0)) s
  | 0x27 =>
    if k = .vi then vMoveRegs len x s
    else vSame len x k uns (fun a b => (vFixOp (vxrm x.h) x.sew f6 a b).getD (0, 0)) s
  | 0x2C | 0x2D | 0x2E | 0x2F => vNarrow len x k s
  | 0x30 | 0x31 => if k = .vv then vWideReduce len x s else .ill s
  | _ =>
    if 0x18 ≤ f6 ∧ f6 ≤ 0x1F then vCompare len x k s
    else if (vIntOp x.sew f6 0 0).isNone ∨ !vIntForm f6 k then .ill s
    else vSame len x k uns (fun a b => ((vIntOp x.sew f6 a b).getD 0, 0)) s

/-- OPMVV, OPMVX. -/
def vOpm (len : Nat) (x : VCtx) (k : VOp) (s : State) : TrOut :=
  let f6 := fF6 x.i
  let vec := decide (k = .vv)
  match f6 with
  | 0x0E | 0x0F => if vec then .ill s else vSlide1 len x (f6 == 0x0E) (xGet x.h (fRs1 x.i) % 2 ^ x.sew) s
  | 0x10 =>
    if vec then vToX len x s
    else vOut len (fVm x.i && fRs2 x.i == 0) (vScalarPut x x.sew (xGet x.h (fRs1 x.i) % 2 ^ x.sew, 0)) s
  | 0x12 => if vec then vExtend len x s else .ill s
  | 0x14 => if vec then vMaskUnary len x s else .ill s
  | 0x17 => if vec then vCompress len x s else .ill s
  | 0x29 | 0x2B | 0x2D | 0x2F => vMac len x k s
  | _ =>
    if f6 < 8 then (if vec then vReduce len x s else .ill s)
    else if f6 < 0xC then vSame len x k false (fun a b => ((vAvgOp (vxrm x.h) x.sew f6 a b).getD 0, 0)) s
    else if 0x18 ≤ f6 ∧ f6 ≤ 0x1F then (if vec then vMaskLogic len x s else .ill s)
    else if 0x30 ≤ f6 then vWiden len x k s
    else if (vMulOp x.sew f6 0 0).isNone then .ill s
    else vSame len x k false (fun a b => ((vMulOp x.sew f6 a b).getD 0, 0)) s

end Sys2Proof.Machine
end

