-- ==== Sys2Proof/Machine/TrVecFp.lean ====
section
/-! DEFINITION. Vector floating-point instructions of a Trestle core (R641: V 1.0 with SEW 32 and 64, Zvfbfmin). From the
RISC-V standard that R641 names. The sum of an unordered reduction over several elements is a free value: the standard
leaves its order open. -/

namespace Sys2Proof.Machine

open Sys2Proof

/-- The format of a width. -/
def vFmt (w : Nat) : FFmt := if w = 64 then fmtD else fmtS

/-- Is SEW a floating-point width here? -/
def vFpSew (x : VCtx) : Bool := x.sew == 32 || x.sew == 64

/-- Operand 1 as element i: vs1[i], or f[rs1] with its NaN box checked. -/
def vFSrc1 (x : VCtx) (k : VOp) (w i : Nat) : Nat :=
  if k = .vv then vElem x.h (fRs1 x.i) w i else fGet (vFmt w) x.h (fRs1 x.i)

/-! ## Estimates -/

/-- The 7 bits of a reciprocal estimate: 256 over the midpoint of the interval, rounded, less 128. -/
def recTable (i : Nat) : Nat := (2 * 65536 + (257 + 2 * i)) / (2 * (257 + 2 * i)) - 128

/-- The 7 bits of a reciprocal square root estimate; the lower half of the table is for even biased exponents. -/
def rsqTable (i : Nat) : Nat :=
  let m := (if i < 64 then 2 else 1) * (129 + 2 * (i % 64))
  (sqrtBits (4 * 65536 * 128 / m) 13 0 + 1) / 2 - 128

/-- Exponent and fraction of a finite number that is not zero, a subnormal one normalized. -/
def fNorm (f : FFmt) (x : Nat) : Int × Nat :=
  let e := bitsOf x f.mw f.ew
  let m := bitsOf x 0 f.mw
  if e ≠ 0 then (e, m)
  else
    let lz := f.mw - 1 - Nat.log2 m
    (-(lz : Int), m * 2 ^ (lz + 1) % 2 ^ f.mw)

/-- VFREC7. -/
def fpRec7 (f : FFmt) (rm x : Nat) : Nat × Nat :=
  let a := fOpen f x
  let b : Int := 2 ^ (f.ew - 1) - 1
  match a.cls with
  | .qnan | .snan => fNanOf f [a]
  | .inf => (fSignBit f a.neg, 0)
  | .zero => (fInf f a.neg, 8)
  | .fin =>
    let q := fNorm f x
    if q.1 < -1 then
      let big := rm = 0 || rm = 4 || (rm = 2 && a.neg) || (rm = 3 && !a.neg)
      (if big then fInf f a.neg else fInf f a.neg - 1, 5)
    else
      let t := recTable (q.2 / 2 ^ (f.mw - 7)) * 2 ^ (f.mw - 7)
      let e := 2 * b - 1 - q.1
      if 0 < e then (fSignBit f a.neg + e.toNat * 2 ^ f.mw + t, 0)
      else
        let u := t / 2 + 2 ^ (f.mw - 1)
        (fSignBit f a.neg + (if e = 0 then u else u / 2), 0)

/-- VFRSQRT7. -/
def fpRsq7 (f : FFmt) (x : Nat) : Nat × Nat :=
  let a := fOpen f x
  let b : Int := 2 ^ (f.ew - 1) - 1
  match a.cls with
  | .qnan | .snan => fNanOf f [a]
  | .zero => (fInf f a.neg, 8)
  | .inf => if a.neg then (fNan f, 16) else (0, 0)
  | .fin =>
    if a.neg then (fNan f, 16)
    else
      let q := fNorm f x
      let i := (q.1 % 2).toNat * 64 + q.2 / 2 ^ (f.mw - 6)
      (((3 * b - 1 - q.1) / 2).toNat * 2 ^ f.mw + rsqTable i * 2 ^ (f.mw - 7), 0)

/-! ## Element-wise -/

/-- Single-width operations: from vs2 and operand 1. -/
def vFOp (f : FFmt) (rm f6 a b : Nat) : Option (Nat × Nat) :=
  match f6 with
  | 0x00 => some (fpAdd f rm false a b)
  | 0x02 => some (fpAdd f rm true a b)
  | 0x04 => some (fpMinMax f false a b)
  | 0x06 => some (fpMinMax f true a b)
  | 0x08 => some (fpSgnj f 0 a b, 0)
  | 0x09 => some (fpSgnj f 1 a b, 0)
  | 0x0A => some (fpSgnj f 2 a b, 0)
  | 0x20 => some (fpDiv f rm a b)
  | 0x21 => some (fpDiv f rm b a)
  | 0x24 => some (fpMul f rm a b)
  | 0x27 => some (fpAdd f rm true b a)
  | _ => none

/-- The multiply-adds: ±(p × q) ± r. The low bits of funct6 choose the signs; below 0x2C vd is a factor. -/
def vFMac (f : FFmt) (rm f6 d a b : Nat) : Nat × Nat :=
  let neg := f6 % 2 == 1
  let negC := (f6 % 4 == 1) || (f6 % 4 == 2)
  if f6 < 0x2C then fpFma f f rm neg negC b d a else fpFma f f rm neg negC b a d

/-- Compares into a mask. -/
def vFCmp (f : FFmt) (f6 a b : Nat) : Option (Bool × Nat) :=
  match f6 with
  | 0x18 => some (fpCmp f true (fun x y => x == y) a b)
  | 0x19 => some (fpCmp f false (fun x y => decide (x ≤ y)) a b)
  | 0x1B => some (fpCmp f false (fun x y => decide (x < y)) a b)
  | 0x1C => let r := fpCmp f true (fun x y => x == y) a b; some (!r.1, r.2)
  | 0x1D => some (fpCmp f false (fun x y => decide (y < x)) a b)
  | 0x1F => some (fpCmp f false (fun x y => decide (y ≤ x)) a b)
  | _ => none

/-- To double width, with the flag of a signaling NaN. -/
def fWide (x : Nat) : Nat × Nat := fpCvt fmtS fmtD 0 x

/-- Widening operations: result at 64 bits from vd, vs2 (64 bits for the .w forms) and operand 1. -/
def vFWide (rm f6 d a b : Nat) : Option (Nat × Nat) :=
  let u := fWide a
  let v := fWide b
  let add (sub : Bool) (p q : Nat × Nat) : Nat × Nat :=
    let r := fpAdd fmtD rm sub p.1 q.1
    (r.1, r.2 ||| p.2 ||| q.2)
  match f6 with
  | 0x30 => some (add false u v)
  | 0x32 => some (add true u v)
  | 0x34 => some (add false (a, 0) v)
  | 0x36 => some (add true (a, 0) v)
  | 0x38 =>
    let r := fpMul fmtD rm u.1 v.1
    some (r.1, r.2 ||| u.2 ||| v.2)
  | 0x3C => some (fpFma fmtS fmtD rm false false b a d)
  | 0x3D => some (fpFma fmtS fmtD rm true true b a d)
  | 0x3E => some (fpFma fmtS fmtD rm false true b a d)
  | 0x3F => some (fpFma fmtS fmtD rm true false b a d)
  | _ => none

/-! ## Conversions (VFUNARY0) -/

/-- A conversion of vs2 by its code: widths of source and result, and the function. -/
def vCvt (w rm n : Nat) : Option (Nat × Nat × (Nat → Nat × Nat)) :=
  let fp (w : Nat) : Bool := w == 32 || w == 64
  let toInt (ws wd r : Nat) (signed : Bool) : Option (Nat × Nat × (Nat → Nat × Nat)) :=
    if fp ws then some (ws, wd, fpToInt (vFmt ws) r wd signed) else none
  let ofInt (ws wd : Nat) (signed : Bool) : Option (Nat × Nat × (Nat → Nat × Nat)) :=
    if fp wd then some (ws, wd, fun v => fpFromInt (vFmt wd) rm (vInt signed ws v)) else none
  match n with
  | 0x00 => toInt w w rm false
  | 0x01 => toInt w w rm true
  | 0x02 => ofInt w w false
  | 0x03 => ofInt w w true
  | 0x06 => toInt w w 1 false
  | 0x07 => toInt w w 1 true
  | 0x08 => if w ≤ 32 then toInt w (2 * w) rm false else none
  | 0x09 => if w ≤ 32 then toInt w (2 * w) rm true else none
  | 0x0A => if w ≤ 32 then ofInt w (2 * w) false else none
  | 0x0B => if w ≤ 32 then ofInt w (2 * w) true else none
  | 0x0C => if w = 32 then some (32, 64, fpCvt fmtS fmtD rm) else none
  | 0x0D => if w = 16 then some (16, 32, fpCvt fmtB fmtS rm) else none
  | 0x0E => if w ≤ 32 then toInt w (2 * w) 1 false else none
  | 0x0F => if w ≤ 32 then toInt w (2 * w) 1 true else none
  | 0x10 => if w ≤ 32 then toInt (2 * w) w rm false else none
  | 0x11 => if w ≤ 32 then toInt (2 * w) w rm true else none
  | 0x12 => if w ≤ 32 then ofInt (2 * w) w false else none
  | 0x13 => if w ≤ 32 then ofInt (2 * w) w true else none
  | 0x14 => if w = 32 then some (64, 32, fpCvt fmtD fmtS rm) else none
  | 0x15 => if w = 32 then some (64, 32, fpCvt fmtD fmtS 5) else none
  | 0x16 => if w ≤ 32 then toInt (2 * w) w 1 false else none
  | 0x17 => if w ≤ 32 then toInt (2 * w) w 1 true else none
  | 0x1D => if w = 16 then some (32, 16, fpCvt fmtS fmtB rm) else none
  | _ => none

def vConvert (len : Nat) (x : VCtx) (rm : Nat) (s : State) : TrOut :=
  match vCvt x.sew rm (fRs1 x.i) with
  | none => .ill s
  | some (ws, wd, f) =>
    vOut len (vShape x (fRd x.i) wd [(fRs2 x.i, ws)]) (vEach x (fRd x.i) wd fun i => f (vElem x.h (fRs2 x.i) ws i)) s

/-- VFSQRT, VFRSQRT7, VFREC7, VFCLASS (VFUNARY1). -/
def vFUnary (len : Nat) (x : VCtx) (rm : Nat) (s : State) : TrOut :=
  let w := x.sew
  let f := vFmt w
  let go (g : Nat → Nat × Nat) : TrOut :=
    vOut len (vFpSew x && vShape x (fRd x.i) w [(fRs2 x.i, w)]) (vEach x (fRd x.i) w fun i => g (vElem x.h (fRs2 x.i) w i)) s
  match fRs1 x.i with
  | 0 => go (fpSqrt f rm)
  | 4 => go (fpRsq7 f)
  | 5 => go (fpRec7 f rm)
  | 0x10 => go fun a => (fpClass f a, 0)
  | _ => .ill s

/-! ## Reductions -/

/-- A fold with flags. -/
def vFFold (op : Nat → Nat → Nat × Nat) (a : Nat) (l : List Nat) : Nat × Nat :=
  l.foldl (fun r e => let q := op r.1 e; (q.1, r.2 ||| q.2)) (a, 0)

/-- Single-width reductions: funct6 1 unordered sum, 3 ordered sum, 5 minimum, 7 maximum. The free values are those past
the ones of agnostic elements. (PRESUMED, log entry 34) -/
def vFReduce (len : Nat) (x : VCtx) (rm : Nat) (s : State) : TrOut :=
  let w := x.sew
  let f := vFmt w
  let l := vActiveElems x w
  let a := vElem x.h (fRs1 x.i) w 0
  let r : Nat × Nat := match fF6 x.i with
    | 1 =>
      if l.length ≤ 1 then vFFold (fpAdd f rm false) a l
      else ((Config.freeValue (x.free + 40)).toNat % 2 ^ w, (Config.freeValue (x.free + 41)).toNat % 32)
    | 3 => vFFold (fpAdd f rm false) a l
    | 5 => vFFold (fpMinMax f false) a l
    | _ => vFFold (fpMinMax f true) a l
  vOut len (vFpSew x && vRedOk x w w) (vScalarPut x w r) s

/-- VFWREDUSUM and VFWREDOSUM. -/
def vFWideReduce (len : Nat) (x : VCtx) (rm : Nat) (s : State) : TrOut :=
  let l := vActiveElems x 32
  let a := vElem x.h (fRs1 x.i) 64 0
  let add (u e : Nat) : Nat × Nat :=
    let v := fWide e
    let r := fpAdd fmtD rm false u v.1
    (r.1, r.2 ||| v.2)
  let r : Nat × Nat := if fF6 x.i = 0x33 ∨ l.length ≤ 1 then vFFold add a l
    else ((Config.freeValue (x.free + 40)).toNat, (Config.freeValue (x.free + 41)).toNat % 32)
  vOut len (x.sew == 32 && vRedOk x 32 64) (vScalarPut x 64 r) s

/-! ## By opcode -/

/-- VFMV.F.S (VWFUNARY0). -/
def vFToF (len : Nat) (x : VCtx) (s : State) : TrOut :=
  vOut len (vFpSew x && fVm x.i && fRs1 x.i == 0)
    (fPut (vFmt x.sew) (fRd x.i) (vElem x.h (fRs2 x.i) x.sew 0) x.h) s

/-- OPFVV and OPFVF; the rounding mode is frm. -/
def vOpf (len : Nat) (x : VCtx) (k : VOp) (rm : Nat) (s : State) : TrOut :=
  let f6 := fF6 x.i
  let w := x.sew
  let vec := decide (k = .vv)
  let f := vFmt w
  let d := fRd x.i
  let a (i : Nat) : Nat := vElem x.h (fRs2 x.i) w i
  let b (i : Nat) : Nat := vFSrc1 x k w i
  match f6 with
  | 0x01 | 0x03 | 0x05 | 0x07 => if vec then vFReduce len x rm s else .ill s
  | 0x0E | 0x0F => if vec ∨ !vFpSew x then .ill s else vSlide1 len x (f6 == 0x0E) (b 0) s
  | 0x10 =>
    if vec then vFToF len x s else vOut len (vFpSew x && fVm x.i && fRs2 x.i == 0) (vScalarPut x w (b 0, 0)) s
  | 0x12 => if vec then vConvert len x rm s else .ill s
  | 0x13 => if vec then vFUnary len x rm s else .ill s
  | 0x17 => if vec ∨ !vFpSew x then .ill s else vMerge len x b false s
  | 0x31 | 0x33 => if vec then vFWideReduce len x rm s else .ill s
  | _ =>
    if 0x18 ≤ f6 ∧ f6 ≤ 0x1F then
      vOut len (vFpSew x && (vFCmp f f6 0 0).isSome && (!vec || decide (f6 < 0x1D)) && vShape x d 1 (vSrcs x k w w))
        (vMask x true d fun i => (vFCmp f f6 (a i) (b i)).getD (false, 0)) s
    else if 0x28 ≤ f6 ∧ f6 ≤ 0x2F then
      vOut len (vFpSew x && vShape x d w (vSrcs x k w w)) (vEach x d w fun i => vFMac f rm f6 (vElem x.h d w i) (a i) (b i)) s
    else if 0x30 ≤ f6 then
      let wa := if f6 = 0x34 ∨ f6 = 0x36 then 64 else 32
      vOut len (w == 32 && (vFWide rm f6 0 0 0).isSome && vShape x d 64 (vSrcs x k wa 32))
        (vEach x d 64 fun i => (vFWide rm f6 (vElem x.h d 64 i) (vElem x.h (fRs2 x.i) wa i) (b i)).getD (0, 0)) s
    else
      vOut len (vFpSew x && (vFOp f rm f6 0 0).isSome && !(vec && (f6 == 0x21 || f6 == 0x27)) && vShape x d w (vSrcs x k w w))
        (vEach x d w fun i => (vFOp f rm f6 (a i) (b i)).getD (0, 0)) s

/-- OP-V (opcode 0x57). -/
def trVec (len i : Nat) (h : Hart) (s : State) : TrOut :=
  let x := vCtx i h s
  if !extOn h 9 then .ill s
  else if fF3 i = 7 then vSet len i h s
  else if vill h then .ill s
  else match fF3 i with
    | 0 => vOpi len x .vv s
    | 3 => vOpi len x .vi s
    | 4 => vOpi len x .vx s
    | 2 => vOpm len x .vv s
    | 6 => vOpm len x .vx s
    | f3 =>
      match fRm h 7 with
      | some rm => if extOn h 13 then vOpf len x (if f3 = 1 then .vv else .vx) rm s else .ill s
      | none => .ill s

end Sys2Proof.Machine
end

