-- ==== Sys2Proof/Machine/TrStep.lean ====
section
/-! DEFINITION. One instruction of a Trestle core (TRESTLE_INSTRUCTION, R641): interrupts, fetch, compressed encodings,
dispatch by opcode, traps, and what becomes of the core. From the RISC-V standards that R641 names. -/

namespace Sys2Proof.Machine

open Sys2Proof

/-! ## Compressed encodings -/

def mkR (op f3 f7 rd rs1 rs2 : Nat) : Nat :=
  op + atBit rd 7 + atBit f3 12 + atBit rs1 15 + atBit rs2 20 + atBit f7 25
def mkI (op f3 rd rs1 imm : Nat) : Nat := op + atBit rd 7 + atBit f3 12 + atBit rs1 15 + atBit (imm % 2 ^ 12) 20
def mkS (op f3 rs1 rs2 imm : Nat) : Nat :=
  op + atBit (bitsOf imm 0 5) 7 + atBit f3 12 + atBit rs1 15 + atBit rs2 20 + atBit (bitsOf imm 5 7) 25
def mkB (f3 rs1 rs2 imm : Nat) : Nat :=
  0x63 + atBit (bitsOf imm 11 1) 7 + atBit (bitsOf imm 1 4) 8 + atBit f3 12 + atBit rs1 15 + atBit rs2 20 +
    atBit (bitsOf imm 5 6) 25 + atBit (bitsOf imm 12 1) 31
def mkJ (rd imm : Nat) : Nat :=
  0x6F + atBit rd 7 + atBit (bitsOf imm 12 8) 12 + atBit (bitsOf imm 11 1) 20 + atBit (bitsOf imm 1 10) 21 +
    atBit (bitsOf imm 20 1) 31

/-- Bits of a parcel gathered: (from, count, to) each. -/
def cImm (w : Nat) (l : List (Nat × Nat × Nat)) : Nat := l.foldl (fun m p => m + atBit (bitsOf w p.1 p.2.1) p.2.2) 0

/-- Quadrant 0. -/
def cExpand0 (w : Nat) : Option Nat :=
  let rd := 8 + bitsOf w 2 3
  let rs := 8 + bitsOf w 7 3
  let i4 := cImm w [(10, 3, 3), (6, 1, 2), (5, 1, 6)]
  let i8 := cImm w [(10, 3, 3), (5, 2, 6)]
  match bitsOf w 13 3 with
  | 0 =>
    let n := cImm w [(11, 2, 4), (7, 4, 6), (6, 1, 2), (5, 1, 3)]
    if n = 0 then none else some (mkI 0x13 0 rd 2 n)
  | 1 => some (mkI 0x07 3 rd rs i8)
  | 2 => some (mkI 0x03 2 rd rs i4)
  | 3 => some (mkI 0x03 3 rd rs i8)
  | 5 => some (mkS 0x27 3 rs rd i8)
  | 6 => some (mkS 0x23 2 rs rd i4)
  | 7 => some (mkS 0x23 3 rs rd i8)
  | _ => none

/-- Quadrant 1. -/
def cExpand1 (w : Nat) : Option Nat :=
  let rd := bitsOf w 7 5
  let rs := 8 + bitsOf w 7 3
  let rt := 8 + bitsOf w 2 3
  let u6 := cImm w [(12, 1, 5), (2, 5, 0)]
  let i6 := sx 6 u6
  let br := sx 9 (cImm w [(12, 1, 8), (10, 2, 3), (5, 2, 6), (3, 2, 1), (2, 1, 5)])
  match bitsOf w 13 3 with
  | 0 => some (mkI 0x13 0 rd rd i6)
  | 1 => if rd = 0 then none else some (mkI 0x1B 0 rd rd i6)
  | 2 => some (mkI 0x13 0 rd 0 i6)
  | 3 =>
    if rd = 2 then
      let n := cImm w [(12, 1, 9), (6, 1, 4), (5, 1, 6), (3, 2, 7), (2, 1, 5)]
      if n = 0 then none else some (mkI 0x13 0 2 2 (sx 10 n))
    else if u6 = 0 then none
    else some (0x37 + atBit rd 7 + atBit (i6 % 2 ^ 20) 12)
  | 4 =>
    match bitsOf w 10 2 with
    | 0 => some (mkI 0x13 5 rs rs u6)
    | 1 => some (mkI 0x13 5 rs rs (0x400 + u6))
    | 2 => some (mkI 0x13 7 rs rs i6)
    | _ =>
      match bitsOf w 12 1 * 4 + bitsOf w 5 2 with
      | 0 => some (mkR 0x33 0 0x20 rs rs rt)
      | 1 => some (mkR 0x33 4 0 rs rs rt)
      | 2 => some (mkR 0x33 6 0 rs rs rt)
      | 3 => some (mkR 0x33 7 0 rs rs rt)
      | 4 => some (mkR 0x3B 0 0x20 rs rs rt)
      | 5 => some (mkR 0x3B 0 0 rs rs rt)
      | _ => none
  | 5 =>
    some (mkJ 0 (sx 12 (cImm w [(12, 1, 11), (11, 1, 4), (9, 2, 8), (8, 1, 10), (7, 1, 6), (6, 1, 7), (3, 3, 1), (2, 1, 5)])))
  | 6 => some (mkB 0 rs 0 br)
  | _ => some (mkB 1 rs 0 br)

/-- Quadrant 2. -/
def cExpand2 (w : Nat) : Option Nat :=
  let rd := bitsOf w 7 5
  let rt := bitsOf w 2 5
  let l8 := cImm w [(12, 1, 5), (5, 2, 3), (2, 3, 6)]
  let s8 := cImm w [(10, 3, 3), (7, 3, 6)]
  match bitsOf w 13 3 with
  | 0 => some (mkI 0x13 1 rd rd (cImm w [(12, 1, 5), (2, 5, 0)]))
  | 1 => some (mkI 0x07 3 rd 2 l8)
  | 2 => if rd = 0 then none else some (mkI 0x03 2 rd 2 (cImm w [(12, 1, 5), (4, 3, 2), (2, 2, 6)]))
  | 3 => if rd = 0 then none else some (mkI 0x03 3 rd 2 l8)
  | 4 =>
    if bitsOf w 12 1 = 0 then
      (if rt = 0 then (if rd = 0 then none else some (mkI 0x67 0 0 rd 0)) else some (mkR 0x33 0 0 rd 0 rt))
    else if rt = 0 then some (if rd = 0 then 0x00100073 else mkI 0x67 0 1 rd 0)
    else some (mkR 0x33 0 0 rd rd rt)
  | 5 => some (mkS 0x27 3 2 rt s8)
  | 6 => some (mkS 0x23 2 2 rt (cImm w [(9, 4, 2), (7, 2, 6)]))
  | _ => some (mkS 0x23 3 2 rt s8)

/-- The 32-bit instruction that a compressed one stands for. -/
def cExpand (w : Nat) : Option Nat :=
  match w % 4 with
  | 0 => cExpand0 w
  | 1 => cExpand1 w
  | 2 => cExpand2 w
  | _ => none

/-! ## Dispatch -/

/-- Execute a 32-bit instruction of a given length in memory. (PRESUMED, log entry 31) -/
def trExec (c len i : Nat) (h : Hart) (s : State) : TrOut :=
  let a := xGet h (fRs1 i)
  let b := xGet h (fRs2 i)
  let w32s (r : Option Nat) : Option Nat := r.map (sx 32)
  match i % 128 with
  | 0x37 => trResult len i h s (some (immU i))
  | 0x17 => trResult len i h s (some ((h.pc.toNat + immU i) % 2 ^ 64))
  | 0x6F => trJump len (fRd i) (h.pc.toNat + immJ i) h s
  | 0x67 => if fF3 i = 0 then trJump len (fRd i) ((a + immI i) % 2 ^ 64 / 2 * 2) h s else .ill s
  | 0x63 =>
    match branchTaken (fF3 i) a b with
    | none => .ill s
    | some true => .go (pcAdd (immB i) h) s
    | some false => .go (pcAdd len h) s
  | 0x03 => trLoadOp c len i h s
  | 0x23 => trStoreOp c len i h s
  | 0x13 => trResult len i h s (opImm 64 i a)
  | 0x1B => trResult len i h s (w32s (opImm 32 i (a % 2 ^ 32)))
  | 0x33 => trResult len i h s (opReg 64 (fF7 i) (fF3 i) a b)
  | 0x3B => trResult len i h s (w32s (opReg 32 (fF7 i) (fF3 i) (a % 2 ^ 32) (b % 2 ^ 32)))
  | 0x0F => trMiscMem c len i h s
  | 0x73 => trSystem c len i h s
  | 0x2F => trAmo c len i h s
  | 0x07 => if (fMemFmt (fF3 i)).isSome then trFpLoad c len i h s else trVecMem c len i false h s
  | 0x27 => if (fMemFmt (fF3 i)).isSome then trFpStore c len i h s else trVecMem c len i true h s
  | 0x43 | 0x47 | 0x4B | 0x4F => trFma len i h s
  | 0x53 => trOpFp len i h s
  | 0x57 => trVec len i h s
  | _ => .ill s

/-- The hart of core c after its instruction. What the instruction did to the core from outside its registers (its
state, a halt acknowledgement) stands in the state. -/
def trCommit (c : Nat) (h : Hart) (s : State) : State :=
  let now := hartOf s c
  hartPut c { h with state := now.state, haltAck := now.haltAck, haltBy := now.haltBy } s

/-- An instruction retired: minstret counts (`h0` is the hart before it). -/
def trRetire (h0 h : Hart) : Hart := if instCounts h0 then hset 0xB02 (hcsr h 0xB02 + 1) h else h

/-- The outcome of an instruction with encoding `bits`, fetched by hart h0. -/
def trFinish (c bits : Nat) (h0 : Hart) (o : TrOut) : State :=
  match o with
  | .go h s => gotClear c (trCommit c (trRetire h0 h) s)
  | .trap cause tval h s =>
    if cause = 3 && ebreakHalts h then gotClear c (trCommit c (trHalt 1 h) s)
    else gotClear c (trCommit c (trTrap false cause tval h) s)
  | .ill s => gotClear c (trCommit c (trTrap false 2 bits h0) s)
  | .stall h s => trCommit c h s
  | .wait h s => haltNow c (gotClear c (trCommit c (trRetire h0 h) s))

/-- Fetch and execute at the pc. -/
def trRun (c : Nat) (h : Hart) (s : State) : State :=
  let pc := h.pc.toNat
  let q := trFetch c h pc s
  match q.2 with
  | .ok lo =>
    if lo % 4 ≠ 3 then
      trFinish c lo h (match cExpand lo with
        | some i => trExec c 2 i h q.1
        | none => .ill q.1)
    else
      let r := trFetch c h ((pc + 2) % 2 ^ 64) q.1
      match r.2 with
      | .ok hi => trFinish c (lo + 2 ^ 16 * hi) h (trExec c 4 (lo + 2 ^ 16 * hi) h r.1)
      | .trap cause tval => trFinish c 0 h (.trap cause tval h r.1)
      | .stall => trFinish c 0 h (.stall h r.1)
  | .trap cause tval => trFinish c 0 h (.trap cause tval h q.1)
  | .stall => trFinish c 0 h (.stall h q.1)

/-- After a single step the hart is in Debug Mode again; an instruction that has not completed is no step. `h` is the hart
before it. (PRESUMED, log entry 67) -/
def stepHalt (c : Nat) (h : Hart) (s : State) : State :=
  if trSteps h && !(hartOf s c).dbg && (hartOf s c).pc != h.pc then trCommit c (trHalt 4 (hartOf s c)) s else s

/-- One step of core c: nothing where it is in Debug Mode, does not run, or waits in WFI; a halt request of the debug
module; an interrupt that is enabled; or an instruction.
(PRESUMED, log entry 31; DESIGN CHOICE, log entry 37) -/
def trStep (c : Nat) (s : State) : State :=
  let h := hartOf s c
  if !trRuns s c || h.dbg then s
  else if bitAt s.jtag.haltReq c then trCommit c (trHalt 3 h) s
  else if h.wfi && mipOf c h s &&& hcsr h 0x304 == 0 then s
  else
    let h := { h with wfi := false }
    match (if stepNoIrq h then none else trIrq c h s) with
    | some cause => stepHalt c h (trCommit c (trTrap true cause 0 h) s)
    | none => stepHalt c h (trRun c h s)

def execTrestleInstruction (core : Fin 8) (s : State) : Host.Outcome State Fault Refusal :=
  done (schedTick (trStep core s))

end Sys2Proof.Machine
end

