-- ==== Sys2Proof/Machine/Dispatch.lean ====
section
/-! DEFINITION. What each command does: one arm per constructor of `Instr`, each a direct call of its meaning. -/

namespace Sys2Proof.Machine

open Sys2Proof

/-- The effect of a command on everything but the queue. -/
def exec (i : Instr) (s : State) : Host.Outcome State Fault Refusal :=
  match i with
  | .registerWrite req off size v => Sys2Proof.Machine.execRegisterWrite req off size v s
  | .registerLoRead req off => Sys2Proof.Machine.execRegisterLoRead req off s
  | .registerHiRead req off => Sys2Proof.Machine.execRegisterHiRead req off s
  | .registerLoWrite req off v => Sys2Proof.Machine.execRegisterLoWrite req off v s
  | .registerHiWrite req off v => Sys2Proof.Machine.execRegisterHiWrite req off v s
  | .opWriteRefused req off v => Sys2Proof.Machine.execOpWriteRefused req off v s
  | .hostBar2Read addr len => Sys2Proof.Machine.execHostBar2Read addr len s
  | .hostBar2Write addr data => Sys2Proof.Machine.execHostBar2Write addr data s
  | .deepStoreAccess acc => Sys2Proof.Machine.execDeepStoreAccess acc s
  | .fabricTimeout acc => Sys2Proof.Machine.execFabricTimeout acc s
  | .encoderEdge enc a b e => Sys2Proof.Machine.execEncoderEdge enc a b e s
  | .encoderZEdge enc level e => Sys2Proof.Machine.execEncoderZEdge enc level e s
  | .masterFailover t => Sys2Proof.Machine.execMasterFailover t s
  | .pressStopped t => Sys2Proof.Machine.execPressStopped t s
  | .repeatBoundary t => Sys2Proof.Machine.execRepeatBoundary t s
  | .instantCommit entry t => Sys2Proof.Machine.execInstantCommit entry t s
  | .calendarLxFiring entry t => Sys2Proof.Machine.execCalendarLxFiring entry t s
  | .calendarTsFiring entry t => Sys2Proof.Machine.execCalendarTsFiring entry t s
  | .deferredFiring entry t => Sys2Proof.Machine.execDeferredFiring entry t s
  | .pulseEnd output t => Sys2Proof.Machine.execPulseEnd output t s
  | .mainsEdge level e => Sys2Proof.Machine.execMainsEdge level e s
  | .mainsDisturbedCycle t => Sys2Proof.Machine.execMainsDisturbedCycle t s
  | .streamPacket port conn pkt t => Sys2Proof.Machine.execStreamPacket port conn pkt t s
  | .fifoLineWrite stream => Sys2Proof.Machine.execFifoLineWrite stream s
  | .streamDrained stream => Sys2Proof.Machine.execStreamDrained stream s
  | .triggerEntryTimeout stream t => Sys2Proof.Machine.execTriggerEntryTimeout stream t s
  | .connectionLost port conn t => Sys2Proof.Machine.execConnectionLost port conn t s
  | .reconnectAttempt port conn answers t => Sys2Proof.Machine.execReconnectAttempt port conn answers t s
  | .discoveryDone port answers t => Sys2Proof.Machine.execDiscoveryDone port answers t s
  | .controlAcknowledge port ack data => Sys2Proof.Machine.execControlAcknowledge port ack data s
  | .ctrlTimeout port t => Sys2Proof.Machine.execCtrlTimeout port t s
  | .cameraEventPacket port data => Sys2Proof.Machine.execCameraEventPacket port data s
  | .columnTableSwitch port => Sys2Proof.Machine.execColumnTableSwitch port s
  | .dsSemSignal req sem n => Sys2Proof.Machine.execDsSemSignal req sem n s
  | .dsSemTry req sem n => Sys2Proof.Machine.execDsSemTry req sem n s
  | .dsSemRead req sem => Sys2Proof.Machine.execDsSemRead req sem s
  | .dsSemWaitArm req sem n => Sys2Proof.Machine.execDsSemWaitArm req sem n s
  | .dsSemWaitCancel req => Sys2Proof.Machine.execDsSemWaitCancel req s
  | .semWaitGrant sem => Sys2Proof.Machine.execSemWaitGrant sem s
  | .prodTry req ring forDma => Sys2Proof.Machine.execProdTry req ring forDma s
  | .consTry req ring forDma counter => Sys2Proof.Machine.execConsTry req ring forDma counter s
  | .commitSlot req ring forDma counter first last => Sys2Proof.Machine.execCommitSlot req ring forDma counter first last s
  | .releaseSlot req ring forDma counter => Sys2Proof.Machine.execReleaseSlot req ring forDma counter s
  | .prodArm req ring forDma => Sys2Proof.Machine.execProdArm req ring forDma s
  | .consArm req ring forDma counter => Sys2Proof.Machine.execConsArm req ring forDma counter s
  | .armCancel req ring => Sys2Proof.Machine.execArmCancel req ring s
  | .ringAcquireGrant ring => Sys2Proof.Machine.execRingAcquireGrant ring s
  | .bucketRefill t => Sys2Proof.Machine.execBucketRefill t s
  | .tileopDispatch group member => Sys2Proof.Machine.execTileopDispatch group member s
  | .nopTileOp op => Sys2Proof.Machine.execNopTileOp op s
  | .loadOp op => Sys2Proof.Machine.execLoadOp op s
  | .storeOp op => Sys2Proof.Machine.execStoreOp op s
  | .gather op => Sys2Proof.Machine.execGather op s
  | .conv op => Sys2Proof.Machine.execConv op s
  | .matmul op => Sys2Proof.Machine.execMatmul op s
  | .poolMax op => Sys2Proof.Machine.execPoolMax op s
  | .poolAvg op => Sys2Proof.Machine.execPoolAvg op s
  | .vec op => Sys2Proof.Machine.execVec op s
  | .sfu op => Sys2Proof.Machine.execSfu op s
  | .reduce op => Sys2Proof.Machine.execReduce op s
  | .smaxPass1 op => Sys2Proof.Machine.execSmaxPass1 op s
  | .smaxPass2 op => Sys2Proof.Machine.execSmaxPass2 op s
  | .smaxPass3 op => Sys2Proof.Machine.execSmaxPass3 op s
  | .normStats op => Sys2Proof.Machine.execNormStats op s
  | .normApply op => Sys2Proof.Machine.execNormApply op s
  | .barrier op => Sys2Proof.Machine.execBarrier op s
  | .semWait op => Sys2Proof.Machine.execSemWait op s
  | .semSignal op => Sys2Proof.Machine.execSemSignal op s
  | .fenceR op => Sys2Proof.Machine.execFenceR op s
  | .fenceW op => Sys2Proof.Machine.execFenceW op s
  | .fenceSc op => Sys2Proof.Machine.execFenceSc op s
  | .epochConfirm op => Sys2Proof.Machine.execEpochConfirm op s
  | .collective op => Sys2Proof.Machine.execCollective op s
  | .tileopComplete op => Sys2Proof.Machine.execTileopComplete op s
  | .taskStart group t => Sys2Proof.Machine.execTaskStart group t s
  | .taskBoundary group t => Sys2Proof.Machine.execTaskBoundary group t s
  | .glbEpochCancel req v => Sys2Proof.Machine.execGlbEpochCancel req v s
  | .coreHang op t => Sys2Proof.Machine.execCoreHang op t s
  | .tcPrefetch req hint => Sys2Proof.Machine.execTcPrefetch req hint s
  | .tcFlush req => Sys2Proof.Machine.execTcFlush req s
  | .tcInvalidate req => Sys2Proof.Machine.execTcInvalidate req s
  | .tcFlushInvalidate req => Sys2Proof.Machine.execTcFlushInvalidate req s
  | .fcPrefetch req hint => Sys2Proof.Machine.execFcPrefetch req hint s
  | .fcFlush req => Sys2Proof.Machine.execFcFlush req s
  | .fcInvalidate req => Sys2Proof.Machine.execFcInvalidate req s
  | .fcFlushInvalidate req => Sys2Proof.Machine.execFcFlushInvalidate req s
  | .cacheOpDone req far => Sys2Proof.Machine.execCacheOpDone req far s
  | .pinPressureWindow t => Sys2Proof.Machine.execPinPressureWindow t s
  | .farAccess acc => Sys2Proof.Machine.execFarAccess acc s
  | .dmaArm req ch => Sys2Proof.Machine.execDmaArm req ch s
  | .dmaStopAtBoundary req ch => Sys2Proof.Machine.execDmaStopAtBoundary req ch s
  | .dmaDisable req ch => Sys2Proof.Machine.execDmaDisable req ch s
  | .dmaReqSw req lines => Sys2Proof.Machine.execDmaReqSw req lines s
  | .dmaServiceUnit hostData => Sys2Proof.Machine.execDmaServiceUnit hostData s
  | .dmaBurstAnswered ch => Sys2Proof.Machine.execDmaBurstAnswered ch s
  | .dmaSetComplete ch => Sys2Proof.Machine.execDmaSetComplete ch s
  | .dmaDrained ch => Sys2Proof.Machine.execDmaDrained ch s
  | .dmaErrorStop ch code addr => Sys2Proof.Machine.execDmaErrorStop ch code addr s
  | .trestleInstruction core => Sys2Proof.Machine.execTrestleInstruction core s
  | .ticClaim core sMode => Sys2Proof.Machine.execTicClaim core sMode s
  | .ticComplete core source => Sys2Proof.Machine.execTicComplete core source s
  | .trHaltAck core => Sys2Proof.Machine.execTrHaltAck core s
  | .trEvPulse core k => Sys2Proof.Machine.execTrEvPulse core k s
  | .timerInterrupt core sMode t => Sys2Proof.Machine.execTimerInterrupt core sMode t s
  | .haltTimeout core t => Sys2Proof.Machine.execHaltTimeout core t s
  | .doorbell req mb => Sys2Proof.Machine.execDoorbell req mb s
  | .longCommandComplete cmd => Sys2Proof.Machine.execLongCommandComplete cmd s
  | .irqNqTail req v => Sys2Proof.Machine.execIrqNqTail req v s
  | .irqEoi req source => Sys2Proof.Machine.execIrqEoi req source s
  | .msixUnmask vector => Sys2Proof.Machine.execMsixUnmask vector s
  | .supHeartbeat standbyAnswers t => Sys2Proof.Machine.execSupHeartbeat standbyAnswers t s
  | .heartbeatTimeout t => Sys2Proof.Machine.execHeartbeatTimeout t s
  | .supFatalFault t => Sys2Proof.Machine.execSupFatalFault t s
  | .supTakeover t => Sys2Proof.Machine.execSupTakeover t s
  | .handoverComplete t => Sys2Proof.Machine.execHandoverComplete t s
  | .i2cWrite data => Sys2Proof.Machine.execI2cWrite data s
  | .i2cRead pointer len => Sys2Proof.Machine.execI2cRead pointer len s
  | .uartFrame data gap => Sys2Proof.Machine.execUartFrame data gap s
  | .nopCmd h p => Sys2Proof.Machine.execNopCmd h p s
  | .getInfo h p => Sys2Proof.Machine.execGetInfo h p s
  | .sysReset h p => Sys2Proof.Machine.execSysReset h p s
  | .timeMap h p => Sys2Proof.Machine.execTimeMap h p s
  | .portSet h p => Sys2Proof.Machine.execPortSet h p s
  | .streamSet h p => Sys2Proof.Machine.execStreamSet h p s
  | .streamStart h p => Sys2Proof.Machine.execStreamStart h p s
  | .streamStop h p => Sys2Proof.Machine.execStreamStop h p s
  | .colUpload h p => Sys2Proof.Machine.execColUpload h p s
  | .camRead h p => Sys2Proof.Machine.execCamRead h p s
  | .camWrite h p => Sys2Proof.Machine.execCamWrite h p s
  | .modelLoad h p => Sys2Proof.Machine.execModelLoad h p s
  | .modelUnload h p => Sys2Proof.Machine.execModelUnload h p s
  | .modelBindExt h p => Sys2Proof.Machine.execModelBindExt h p s
  | .coresetForm h p => Sys2Proof.Machine.execCoresetForm h p s
  | .coresetDissolve h p => Sys2Proof.Machine.execCoresetDissolve h p s
  | .groupBind h p => Sys2Proof.Machine.execGroupBind h p s
  | .groupStart h p => Sys2Proof.Machine.execGroupStart h p s
  | .groupStop h p => Sys2Proof.Machine.execGroupStop h p s
  | .groupSwap h p => Sys2Proof.Machine.execGroupSwap h p s
  | .groupUnbind h p => Sys2Proof.Machine.execGroupUnbind h p s
  | .taskAbort h p => Sys2Proof.Machine.execTaskAbort h p s
  | .epochCancel h p => Sys2Proof.Machine.execEpochCancel h p s
  | .handleAlloc h p => Sys2Proof.Machine.execHandleAlloc h p s
  | .handleFree h p => Sys2Proof.Machine.execHandleFree h p s
  | .handleQuery h p => Sys2Proof.Machine.execHandleQuery h p s
  | .handleLock h p => Sys2Proof.Machine.execHandleLock h p s
  | .handleSet h p => Sys2Proof.Machine.execHandleSet h p s
  | .compact h p => Sys2Proof.Machine.execCompact h p s
  | .semSet h p => Sys2Proof.Machine.execSemSet h p s
  | .semQuery h p => Sys2Proof.Machine.execSemQuery h p s
  | .arrivalBind h p => Sys2Proof.Machine.execArrivalBind h p s
  | .arrivalUnbind h p => Sys2Proof.Machine.execArrivalUnbind h p s
  | .ringDeclare h p => Sys2Proof.Machine.execRingDeclare h p s
  | .ringUndeclare h p => Sys2Proof.Machine.execRingUndeclare h p s
  | .ringReset h p => Sys2Proof.Machine.execRingReset h p s
  | .fcSize h p => Sys2Proof.Machine.execFcSize h p s
  | .bwrSet h p => Sys2Proof.Machine.execBwrSet h p s
  | .ltSet h p => Sys2Proof.Machine.execLtSet h p s
  | .calWrite h p => Sys2Proof.Machine.execCalWrite h p s
  | .calRead h p => Sys2Proof.Machine.execCalRead h p s
  | .calDisable h p => Sys2Proof.Machine.execCalDisable h p s
  | .phaseAdjust h p => Sys2Proof.Machine.execPhaseAdjust h p s
  | .xkConfig h p => Sys2Proof.Machine.execXkConfig h p s
  | .xkJoin h p => Sys2Proof.Machine.execXkJoin h p s
  | .xkLeave h p => Sys2Proof.Machine.execXkLeave h p s
  | .xkSound h p => Sys2Proof.Machine.execXkSound h p s
  | .xkRxSet h p => Sys2Proof.Machine.execXkRxSet h p s
  | .xkStats h p => Sys2Proof.Machine.execXkStats h p s
  | .xkRelay h p => Sys2Proof.Machine.execXkRelay h p s
  | .xkModelBcast h p => Sys2Proof.Machine.execXkModelBcast h p s
  | .scrubSet h p => Sys2Proof.Machine.execScrubSet h p s
  | .coreDisable h p => Sys2Proof.Machine.execCoreDisable h p s
  | .coreRelease h p => Sys2Proof.Machine.execCoreRelease h p s
  | .coreMap h p => Sys2Proof.Machine.execCoreMap h p s
  | .bankSpare h p => Sys2Proof.Machine.execBankSpare h p s
  | .bankTest h p => Sys2Proof.Machine.execBankTest h p s
  | .repairRecord h p => Sys2Proof.Machine.execRepairRecord h p s
  | .supRelease h p => Sys2Proof.Machine.execSupRelease h p s
  | .errInject h p => Sys2Proof.Machine.execErrInject h p s
  | .dsGroupPower h p => Sys2Proof.Machine.execDsGroupPower h p s
  | .corePower h p => Sys2Proof.Machine.execCorePower h p s
  | .portPower h p => Sys2Proof.Machine.execPortPower h p s
  | .trestlePower h p => Sys2Proof.Machine.execTrestlePower h p s
  | .xkPower h p => Sys2Proof.Machine.execXkPower h p s
  | .pocxpSet h p => Sys2Proof.Machine.execPocxpSet h p s
  | .thermalSet h p => Sys2Proof.Machine.execThermalSet h p s
  | .powerStatus h p => Sys2Proof.Machine.execPowerStatus h p s
  | .cfgGet h p => Sys2Proof.Machine.execCfgGet h p s
  | .cfgSet h p => Sys2Proof.Machine.execCfgSet h p s
  | .cfgCommit h p => Sys2Proof.Machine.execCfgCommit h p s
  | .cfgDiscard h p => Sys2Proof.Machine.execCfgDiscard h p s
  | .fwStage h p => Sys2Proof.Machine.execFwStage h p s
  | .fwHandover h p => Sys2Proof.Machine.execFwHandover h p s
  | .trBoot h p => Sys2Proof.Machine.execTrBoot h p s
  | .trHalt h p => Sys2Proof.Machine.execTrHalt h p s
  | .trEvOwner h p => Sys2Proof.Machine.execTrEvOwner h p s
  | .detection samples t => Sys2Proof.Machine.execDetection samples t s
  | .qualification samples t => Sys2Proof.Machine.execQualification samples t s
  | .falseDet t => Sys2Proof.Machine.execFalseDet t s
  | .longTrainingSync samples t => Sys2Proof.Machine.execLongTrainingSync samples t s
  | .headerDecode samples t => Sys2Proof.Machine.execHeaderDecode samples t s
  | .bodyDecode before samples t => Sys2Proof.Machine.execBodyDecode before samples t s
  | .frameEnd t => Sys2Proof.Machine.execFrameEnd t s
  | .frameStart t => Sys2Proof.Machine.execFrameStart t s
  | .transmitEnd t => Sys2Proof.Machine.execTransmitEnd t s
  | .cycleStart t => Sys2Proof.Machine.execCycleStart t s
  | .beacon src payload stamp => Sys2Proof.Machine.execBeacon src payload stamp s
  | .statusFrame src payload => Sys2Proof.Machine.execStatusFrame src payload s
  | .join src eligible => Sys2Proof.Machine.execJoin src eligible s
  | .leave src => Sys2Proof.Machine.execLeave src s
  | .farReq src seq payload => Sys2Proof.Machine.execFarReq src seq payload s
  | .farRsp src seq payload => Sys2Proof.Machine.execFarRsp src seq payload s
  | .collContrib src seq payload => Sys2Proof.Machine.execCollContrib src seq payload s
  | .collResult src payload => Sys2Proof.Machine.execCollResult src payload s
  | .modelData src payload => Sys2Proof.Machine.execModelData src payload s
  | .modelStatus src seq payload => Sys2Proof.Machine.execModelStatus src seq payload s
  | .relayReq src seq payload => Sys2Proof.Machine.execRelayReq src seq payload s
  | .relayRsp src seq payload => Sys2Proof.Machine.execRelayRsp src seq payload s
  | .mapFrame src seq payload => Sys2Proof.Machine.execMapFrame src seq payload s
  | .soundFrame src samples => Sys2Proof.Machine.execSoundFrame src samples s
  | .slotStart t => Sys2Proof.Machine.execSlotStart t s
  | .joinWindow t => Sys2Proof.Machine.execJoinWindow t s
  | .listenTimeout t => Sys2Proof.Machine.execListenTimeout t s
  | .joinTimeout t => Sys2Proof.Machine.execJoinTimeout t s
  | .beaconLoss t => Sys2Proof.Machine.execBeaconLoss t s
  | .farRequestTimeout tag => Sys2Proof.Machine.execFarRequestTimeout tag s
  | .collLocal key => Sys2Proof.Machine.execCollLocal key s
  | .relayTimeout node => Sys2Proof.Machine.execRelayTimeout node s
  | .fltLogSel req counter => Sys2Proof.Machine.execFltLogSel req counter s
  | .fltLogTail req v => Sys2Proof.Machine.execFltLogTail req v s
  | .powerDomainTransitionDone dom t => Sys2Proof.Machine.execPowerDomainTransitionDone dom t s
  | .thermalSample temps t => Sys2Proof.Machine.execThermalSample temps t s
  | .throttleStep t => Sys2Proof.Machine.execThrottleStep t s
  | .vidStep up t => Sys2Proof.Machine.execVidStep up t s
  | .porN level t => Sys2Proof.Machine.execPorN level t s
  | .sysRstN level t => Sys2Proof.Machine.execSysRstN level t s
  | .pciePerstN level t => Sys2Proof.Machine.execPciePerstN level t s
  | .trstN level t => Sys2Proof.Machine.execTrstN level t s
  | .powerGood tests t => Sys2Proof.Machine.execPowerGood tests t s
  | .bodWarn rail t => Sys2Proof.Machine.execBodWarn rail t s
  | .bodWarnEnd rail t => Sys2Proof.Machine.execBodWarnEnd rail t s
  | .brownOutReset rail t => Sys2Proof.Machine.execBrownOutReset rail t s
  | .registerRead req off size => Sys2Proof.Machine.execRegisterRead req off size s
  | .errorDrainDone ch => Sys2Proof.Machine.execErrorDrainDone ch s
  | .synchronizationLoss t => Sys2Proof.Machine.execSynchronizationLoss t s
  | .linkTraining link busMaster funcMask t => Sys2Proof.Machine.execLinkTraining link busMaster funcMask t s
  | .pcieLinkDown t => Sys2Proof.Machine.execPcieLinkDown t s
  | .domainFail dom t => Sys2Proof.Machine.execDomainFail dom t s
  | .powerEstimate mw t => Sys2Proof.Machine.execPowerEstimate mw t s
  | .bootFail t => Sys2Proof.Machine.execBootFail t s
  | .extest cells => Sys2Proof.Machine.execExtest cells s
  | .samplePreload pins cells => Sys2Proof.Machine.execSamplePreload pins cells s
  | .dtmcs v => Sys2Proof.Machine.execDtmcs v s
  | .dmi addr data dop => Sys2Proof.Machine.execDmi addr data dop s
  | .bypass ir => Sys2Proof.Machine.execBypass ir s
  | .spareCopyDone => Sys2Proof.Machine.execSpareCopyDone s
  | .relocationDone => Sys2Proof.Machine.execRelocationDone s
  | .scrubLine => Sys2Proof.Machine.execScrubLine s
  | .mailboxServe => Sys2Proof.Machine.execMailboxServe s
  | .modelBcastTimeout => Sys2Proof.Machine.execModelBcastTimeout s
  | .soundTimeout => Sys2Proof.Machine.execSoundTimeout s
  | .idcode => Sys2Proof.Machine.execIdcode s
  | .highz => Sys2Proof.Machine.execHighz s
  | .clamp => Sys2Proof.Machine.execClamp s

end Sys2Proof.Machine
end

