-- ==== Sys2Proof/Safety.lean ====
section
/-! DEFINITION. The notions that the statements use: the invariant of the interrupt controller, a state in which the
scheduler has nothing to do, and a supervisor request that is served. -/

namespace Sys2Proof.Machine

open Sys2Proof

/-- Host interrupt source i must send its message now (R720): unmasked, ARMED and asserted. -/
def irqDue (s : State) (i : Nat) : Bool := !irqMasked s i && (bitAt s.irqArmed i && irqAsserted s i)

/-- No host interrupt source is left with a message to send. -/
abbrev NoIrqDue (s : State) : Prop := ∀ i : Fin 48, irqDue s i = false

/-- No pixel core's leaving waits for accesses in flight (R434). -/
abbrev NoneDeparts (s : State) : Prop := ∀ e ∈ s.cores, ∀ d ∈ e.2.disable, d.due = false

/-- No tile-op is queued or issued and no stream group is bound: the scheduler has nothing to do. -/
abbrev Quiet (s : State) : Prop := s.ops = [] ∧ s.sgroups = [] ∧ NoneDeparts s

/-- No tile-op holds a slot or has failed, no group drains or aborts, and no task has a stripe in work: the scheduler has
nothing to do whatever tile-ops are queued. -/
abbrev Calm (s : State) : Prop :=
  (∀ e ∈ s.ops, e.2.held = [] ∧ e.2.failed = none) ∧
    (∀ e ∈ s.sgroups, e.2.drains = [] ∧ e.2.phase ≠ .aborting ∧ ∀ t ∈ e.2.task, t.stripes = []) ∧ NoneDeparts s

/-- The regulator has a unit of classes FETCH and STORE: no access of a tile-op waits for one (R351). -/
abbrev OpUnits (s : State) : Prop := bwReady s 1 = true ∧ bwReady s 2 = true

/-- A tile-op of an opcode that may issue and names no ring; the scheduler is calm, and the regulator has units. -/
abbrev Ready (code : Nat) (s : State) (id : Nat) (c : OpCtx) : Prop :=
  Calm s ∧ opCtx s id = some c ∧ opCode c.o.w0 = code ∧ mayIssue s c = true ∧ ctxRings s c = [] ∧ c.o.toAcquire = [] ∧
    OpUnits s

/-- The tile-op is marked issued at this instant. -/
def issuedOp (s : State) (id : Nat) (c : OpCtx) (ready : Bool) : State :=
  let o := { c.o with waitServed := true, acquired := true, haloAsked := true }
  { s with ops := tabSet s.ops id { o with issued := true, issuedAt := s.ts, ready := ready } }

/-- The reads of a compute tile-op succeed: its parameter block, its sources and destination, and the state they leave. -/
def Reads (c : OpCtx) (b : Option Opd) (i : State) (p : List Byte) (ta : Tensor) (tb : Option Tensor) (td : Tensor)
    (j : State) : Prop :=
  ∀ k, withOperands c b k i = k p ta tb td j

/-- The same for a tile-op that only has a source. -/
def ReadsSource (c : OpCtx) (i : State) (p : List Byte) (ta : Tensor) (j : State) : Prop :=
  ∀ k, withSource c k i = k p ta j

/-- A near store after elements have been written, in their order. -/
def stored (l : List (Nat × List Byte)) (m : Tab Byte) : Tab Byte := l.foldl (fun m e => cellsWrite e.1 e.2 m) m

/-- The canonical form of a memory: addresses strictly rising, and no entry that equals what an unlisted address reads as
(0 for the Deep Store and the near stores, 0xFF for the flash). -/
def Memory.wf (absent : Byte) (m : List Host.Cell) : Bool := tabWf absent m

/-- No line of a tile cache belongs to the core. -/
abbrev NoLines (s : State) (core : Nat) : Prop := ∀ e ∈ s.tcache, tcCore e.1 ≠ core

/-- Memory, near stores, buffers, rings and windows are the same. -/
abbrev SameStores (s t : State) : Prop :=
  t.mem = s.mem ∧ t.near = s.near ∧ t.handles = s.handles ∧ t.rings = s.rings ∧ t.windows = s.windows

/-- Trestle core c executes instructions, and no debugger holds, halts or steps it (R641). -/
abbrev Executes (c : Nat) (s : State) : Prop :=
  trRuns s c = true ∧ (hartOf s c).dbg = false ∧ bitAt s.jtag.haltReq c = false ∧ trSteps (hartOf s c) = false

/-- Trestle core c executes, has no interrupt to take, does not wait, and fetches the 32-bit instruction `i`; the fetch
leaves state r. -/
def Fetched (c : Nat) (s : State) (i : Nat) (r : State) : Prop :=
  Executes c s ∧ (hartOf s c).wfi = false ∧ trIrq c (hartOf s c) s = none ∧ i % 4 = 3 ∧
    ∃ q, trFetch c (hartOf s c) (hartOf s c).pc.toNat s = (q, .ok (i % 65536)) ∧
      trFetch c (hartOf s c) (((hartOf s c).pc.toNat + 2) % 2 ^ 64) q = (r, .ok (i / 65536))

/-- A request in mailbox `h.mb` that steps 1 to 4 of R699 let pass, for a command that needs `right`: the active
supervisor serves commands, LENGTH is at most 248, the sequence follows LAST, and the mailbox has the right. -/
abbrev Served (right : Option Nat) (h : Hdr) (p : List Byte) (s : State) : Prop :=
  serves s = true ∧ p.length ≤ 248 ∧ (h.seq.toNat + 65536 - regBits s (mbBase h.mb + 0x108) 0 16) % 65536 = 1 ∧
    hasRight s h.mb right = true

/-- The request is answered (R691, R698): its mailbox's response buffer, and its record of LAST, hold the opcode, the
sequence, the status and the results. -/
abbrev Answered (op status : Nat) (data : List Byte) (h : Hdr) (t : State) : Prop :=
  (mbOf t h.mb).record = msgBytes op h.seq.toNat status data ∧ (mbOf t h.mb).rsp = msgBytes op h.seq.toNat status data

/-- A long command was accepted (R703): an entry for it waits for its completion. -/
def LongRuns (op : Nat) (h : Hdr) (p : List Byte) (t : State) : Prop :=
  ∃ k l, tabGet? t.sup.longs k = some l ∧ l.opcode = op ∧ l.payload = p ∧ l.mb = h.mb.val ∧ l.seq = h.seq.toNat

/-- A request whose form is right: served, `n` payload bytes, reserved FLAGS 0; and the scheduler has nothing to do. -/
abbrev Posed (right : Option Nat) (n : Nat) (h : Hdr) (p : List Byte) (s : State) : Prop :=
  Served right h p s ∧ Calm s ∧ h.flags.toNat ≤ 1 ∧ p.length = n

/-- A request whose checks hold as far as every command has them: its form is right, and no accepted command of the same
object is still running. -/
abbrev Request (op : Nat) (right : Option Nat) (n : Nat) (h : Hdr) (p : List Byte) (s : State) : Prop :=
  Posed right n h p s ∧ (busy s op p).1 = false

/-- The request is answered ACCEPTED, and its command runs (R701, R703). -/
def Accepted (op : Nat) (h : Hdr) (p : List Byte) (t : State) : Prop := Answered op 1 [] h t ∧ LongRuns op h p t

/-- From v to t only the answer to the request has moved things: the mailboxes and their registers, what is sent, the
interrupt controller; for MB_7 also the relay. -/
def AnsweredOnly (h : Hdr) (v t : State) : Prop :=
  ∃ l m r u x a b, t = { v with emitted := l ++ v.emitted, mboxes := m, regs := r, sup := u, xk := x, irqArmed := a, pba := b } ∧
    (∀ o, o < 0x1000 ∨ 0x2000 ≤ o → regGet t o = regGet v o) ∧ (h.mb.val ≠ 7 → u = v.sup ∧ x = v.xk)

/-- The committed and posted answer to a request (R698, R679). -/
def answerWith (op status : Nat) (data : List Byte) (h : Hdr) (s : State) : State :=
  let q := mbCommit h op status data s
  mbPost h.mb (bitAt h.flags.toNat 0) q.2 q.1

/-- A Deep Store access that passes every check of R231 before the banks and meets no marked word: code 0, its group ON,
every word it touches with good check bits. -/
abbrev Passes (s : State) (r : DsReq) : Prop :=
  (dsCheck s r).1 = 0 ∧ groupOf s (bankOf s (dsCheck s r).2.1 / 16) = .on ∧
    ∀ w ∈ wordsOf (dsCheck s r).2.1 r.size, eccAt s w = .ok

/-- What a register of a card holds after a 32-bit write of `v` over `old` (R15, R17): RW fields take the value, a field
written with a reserved encoding keeps its own, W1C bits written 1 are cleared, the rest stays. -/
def cardStored (c : RegCard) (off : Nat) (old v : Word) : Word :=
  ((old &&& ~~~(w32 c.rw)) ||| (keepReserved off old v &&& w32 c.rw)) &&& ~~~(keepReserved off old v &&& w32 c.w1c)

/-- Where the register of a card is kept: a banked one in the requester's own copy. -/
abbrev cardKey (b off : Nat) (c : RegCard) : Nat := if c.banked then bankKey b off else off

/-- Class c has n units for accesses to come, and no earlier access of the class waits (R351). -/
abbrev Units (s : State) (c n : Nat) : Prop :=
  (bwUnlimited s c = true ∨ n ≤ tabGet 0 s.tokens c) ∧ bwHeld s c = false

/-- An access of the class cannot be made now (R351): its bucket holds no unit, or an earlier one waits. -/
abbrev NoUnit (s : State) (c : Nat) : Prop := bwReady s c = false ∨ bwHeld s c = true

/-- DS_SEM_RES of requester b after an operation on semaphore i that leaves value v (R256): OK, GRANTED clear, and ARMED
and INDEX of the armed wait while there is one. -/
def semWord (b i : Nat) (ok : Bool) (v : Nat) (s : State) : Word :=
  let armed := bitAt (regGet s (semRes b)).toNat 30
  w32 (atBit (b2n ok) 31 + atBit (b2n armed) 30 + atBit (if armed then regBits s (semRes b) 16 12 else i) 16 + v % 65536)

/-- The access that one piece of a host BAR2 access is (R45). -/
def bar2Req (a n : Nat) (write : Bool) : DsReq := ⟨0x18, 0, .addr a, decide (n = 64), write, n, []⟩

/-- The running long command of a key has its final status, detail and results (R703): its notice is to be posted. -/
def Finished (key status detail : Nat) (res : List Byte) (t : State) : Prop :=
  ∃ l, tabGet? t.sup.longs key = some l ∧ l.done = some (status, detail, res)

/-- The long command l of a key has posted its completion with a status (R703): it runs no more, MB_n_NOTE holds its
sequence and status, NOTE_NEW is set; the other long commands, handles and rings stay. -/
def Posted (key status : Nat) (l : LongCmd) (s t : State) : Prop :=
  tabGet? t.sup.longs key = none ∧ (∀ j, j ≠ key → tabGet? t.sup.longs j = tabGet? s.sup.longs j) ∧
    regGet t (0x1110 + 0x200 * l.mb) = w32 (l.seq + 65536 * status) ∧
    bitAt (regGet t (0x1104 + 0x200 * l.mb)).toNat 6 = true ∧ t.handles = s.handles ∧ t.rings = s.rings

/-- A counter register has grown by one, or stays at its greatest value (R901). -/
abbrev Counted (off : Nat) (s t : State) : Prop := (regGet t off).toNat = min 0xFFFFFFFF ((regGet s off).toNat + 1)

/-- No acquire waits on a ring. -/
abbrev NoWaits (s : State) (r : Nat) : Prop := (ringOf s r).waitP = [] ∧ (ringOf s r).waitC = []

end Sys2Proof.Machine
end

