-- ==== Sys2Proof/Certificates/Slice0/Obligations.lean ====
section
/-! DEFINITION. The statements about the block, for the provers: what the commands do, family by family, from the numbered
rules of spec/. Every statement of what a command does concludes that `exec` answers a next state and says what it holds. -/

open Sys2Proof Sys2Proof.Machine

/-- A step runs the command at the front of the queue, with the queue's rest. For every command c and every state, a step
with c at the front of the queue is exec of c on that state with the queue's rest; on an empty queue with no SYS_RESET
due the block idles (the model's choice, log entry 1). (00_scope.md, 95_what_each_step_holds.md) -/
def Obligations.FrontCommandRuns : Prop :=
  (∀ (c : Instr) (s : State) (rest : List Instr), step { s with pending := c :: rest } = exec c { s with pending := rest }) ∧
    ∀ s : State, s.pending = [] → s.pwr.sysResetAt = none → step s = .next s

/-- Every step leaves no host interrupt source with a message to send. For every state with no host interrupt source that
is asserted, unmasked and ARMED at once, and every step that answers a next state, that state has none either. (R720,
R718, 12_supervisor_mailboxes.md) -/
def Obligations.NoInterruptLeftDueKept : Prop :=
  ∀ s t : State, NoIrqDue s → step s = .next t → NoIrqDue t

/-- After reset no host interrupt source has a message to send. The state after reset has every host interrupt source
ARMED and none asserted and unmasked at once. (R720, 12_supervisor_mailboxes.md) -/
def Obligations.NoInterruptDueAtReset : Prop :=
  NoIrqDue State.reset ∧ ∀ i : Fin 48, bitAt State.reset.irqArmed i = true

/-- An asserted, unmasked, ARMED source sends one MSI-X message and loses ARMED. When source i is asserted, unmasked in
IRQ_MASK and ARMED, serving it clears its ARMED flag and no other, and sends the message of the vector in IRQ_ROUTE_i,
or sets that vector's bit of the PBA where the vector is masked (R722); a source for which one of the three fails
sends nothing. Every ARMED flag is set at reset. (R720) -/
def Obligations.ArmedSourceSendsOneMessage : Prop :=
  (∀ i : Fin 64, bitAt State.reset.irqArmed i = true) ∧
    ∀ (i : Fin 48) (s : State),
      (irqDue s i = true →
        (∀ j : Fin 64, bitAt (irqOne i s).irqArmed j = (j.val != i.val && bitAt s.irqArmed j)) ∧
        ((irqOne i s).emitted = (if msixMasked s (regBits s (0x2100 + 4 * i) 0 6) then s.emitted
          else .msix (regBits s (0x2100 + 4 * i) 0 6) :: s.emitted)) ∧
        ((irqOne i s).pba = (if msixMasked s (regBits s (0x2100 + 4 * i) 0 6) then s.pba ||| 2 ^ regBits s (0x2100 + 4 * i) 0 6
          else s.pba))) ∧
      (irqDue s i = false → irqOne i s = s)

/-- REGISTER_WRITE stores RW fields, clears W1C fields where 1 is written, and fills the mailbox window. A write of another
size or alignment logs REG_SIZE; one by a requester without write access is denied. Otherwise a 32-bit write at the
offset of a card that is no operation, in no window, and no word of a staged 64-bit register: in the register, or the
requester's own copy of a banked one, RW fields take the value (a reserved encoding keeps the field), W1C bits written
1 are cleared, and nothing else changes; without a card nothing changes. At an operation register it starts what the
value names, in the MSI-X table it stores the word, at a shadow register of an armed channel it is refused. In the
buffer window of a free mailbox it stores its bytes in the request buffer, in PENDING or BUSY it sets WR_IGNORED. A
64-bit write to a 64-bit RW register writes both words and leaves the staging words, at other registers it is the two
32-bit writes. (R15, R17, R40, R49, R50, R59, R63, R64, R601, R689, R693, R722) -/
def Obligations.RegisterWriteByAccessCodes : Prop :=
  ∀ (req : Req) (off : Nat) (v : BitVec 64) (s : State),
    (∀ size : Nat, regSizeOk off size = false →
      exec (.registerWrite req off size v) s = .next (settle (regViolation req 0x10 off true s))) ∧
    (∀ size : Nat, regSizeOk off size = true → mayAccess req off true = false →
      exec (.registerWrite req off size v) s = .next (settle (regDeny req off s))) ∧
    (mayAccess req off true = true → regSizeOk off 4 = true →
      (¬(0x1000 ≤ off ∧ off < 0x2000 ∧ off % 0x200 < 0x100) → ¬(0x2800 ≤ off ∧ off < 0x2C00) →
        (∀ f, opRegister req off (w32 v.toNat) = some f → exec (.registerWrite req off 4 v) s = .next (settle (f s))) ∧
        ((opRegister req off (w32 v.toNat)).isNone = true → shadowLocked s off = true →
          exec (.registerWrite req off 4 v) s = .next (settle (shadowRefuse off s))) ∧
        ((opRegister req off (w32 v.toNat)).isNone = true → shadowLocked s off = false → isStaged off = false →
          ¬(4 ≤ off ∧ isStaged (off - 4) = true) →
          (∀ c : RegCard, cardAt off = some c → exec (.registerWrite req off 4 v) s = .next (settle
            (regSet (cardKey (reqBank req) off c)
              (cardStored c off (regGet s (cardKey (reqBank req) off c)) (w32 v.toNat)) s))) ∧
          (cardAt off = none → exec (.registerWrite req off 4 v) s = .next (settle s)))) ∧
      (0x2800 ≤ off → off < 0x2C00 →
        exec (.registerWrite req off 4 v) s = .next (settle (msixSet ((off - 0x2800) / 4) (w32 v.toNat) s))) ∧
      ∀ n : Fin 8, mbBase n ≤ off → off < mbBase n + 0x100 →
        (mbFree s n = true → ∃ t, exec (.registerWrite req off 4 v) s = .next t ∧ t.regs = s.regs ∧
          (∀ k : Fin 4, tabGet 0 (mbOf t n).req (off % 0x200 + k) = b8 (v.toNat / 256 ^ k.val)) ∧
          ∀ k, k < off % 0x200 ∨ off % 0x200 + 4 ≤ k → tabGet 0 (mbOf t n).req k = tabGet 0 (mbOf s n).req k) ∧
        (mbFree s n = false → exec (.registerWrite req off 4 v) s = .next (settle (regOr (mbBase n + 0x104) 0x20 s)))) ∧
    (mayAccess req off true = true → regSizeOk off 8 = true →
      (∀ c c' : RegCard, isStaged off = true → shadowLocked s off = false → cardAt off = some c → cardAt (off + 4) = some c' →
        ∃ t, exec (.registerWrite req off 8 v) s = .next t ∧ t.staging = s.staging ∧ SameStores s t ∧
          regGet t (cardKey (reqBank req) off c) =
            cardStored c off (regGet s (cardKey (reqBank req) off c)) (w32 v.toNat) ∧
          regGet t (cardKey (reqBank req) (off + 4) c') = cardStored c' (off + 4)
            (regGet s (cardKey (reqBank req) (off + 4) c')) (w32 (v.toNat / 2 ^ 32)) ∧
          ∀ o, o ≠ cardKey (reqBank req) off c → o ≠ cardKey (reqBank req) (off + 4) c' → regGet t o = regGet s o) ∧
      (isStaged off = true → shadowLocked s off = true →
        exec (.registerWrite req off 8 v) s = .next (settle (shadowRefuse off s))) ∧
      (isStaged off = false → exec (.registerWrite req off 8 v) s = .next (settle
        (regWrite32 req (off + 4) (w32 (v.toNat / 2 ^ 32)) (regWrite32 req off (w32 v.toNat) s)))))

/-- A LO write waits in the staging word; the HI write commits both words at once. A LO write by a requester with access,
to a 64-bit RW register whose set is not locked, changes no register: it is held in the requester's staging word with
the register's offset, in place of an earlier one. A HI write whose register matches the tag clears the staging word
and commits both words by the access codes of their cards, LO from the staging word; other registers stay. (R57, R58) -/
def Obligations.LoWriteIsStagedHiWriteCommits : Prop :=
  ∀ (req : Req) (off : Nat) (v : Word) (s : State), regSizeOk off 4 = true → regSizeOk (off + 4) 4 = true →
    mayAccess req off true = true → mayAccess req (off + 4) true = true →
    ¬(0x1000 ≤ off ∧ off < 0x2000) → ¬(0x2800 ≤ off ∧ off < 0x2C00) → ¬(0x27FC ≤ off ∧ off < 0x2BFC) → ¬(0xFFC ≤ off ∧ off < 0x1FFC) →
    (∀ w : Word, (opRegister req off w).isNone = true ∧ (opRegister req (off + 4) w).isNone = true) →
    isStaged off = true → isStaged (off + 4) = false → shadowLocked s off = false → shadowLocked s (off + 4) = false →
    exec (.registerLoWrite req off v) s =
        .next (settle { s with staging := tabSet s.staging (reqBank req) (off, v) }) ∧
      ∀ w : Word, tabGet? s.staging (reqBank req) = some (off, w) →
        exec (.registerHiWrite req (off + 4) v) s = .next (settle (cardWrite (reqBank req) (off + 4) v
          (cardWrite (reqBank req) off w { s with staging := tabDel s.staging (reqBank req) })))

/-- A LO read latches the HI word; the matching HI read returns it once. A LO read of a 64-bit register answers the LO
word and puts the live HI word, tagged with the register, into the requester's latch. A HI read with a matching tag
answers the latched word and clears the tag; without one it answers the live HI word and leaves the latch. Neither
changes any register (XK_NOISE, a free value, and its neighbour apart). (R53, R54) -/
def Obligations.HiReadReturnsTheLatchedWord : Prop :=
  ∀ (req : Req) (off : Nat) (s : State), regSizeOk off 4 = true → regSizeOk (off + 4) 4 = true →
    mayAccess req off false = true → mayAccess req (off + 4) false = true → ¬(0xE00 ≤ off ∧ off < 0x2000) →
    isLo64 off = true → isLo64 (off + 4) = false → off / 4 ≠ 0x901C / 4 → (off + 4) / 4 ≠ 0x901C / 4 →
    exec (.registerLoRead req off) s = .next (settle (reply (reqBank req)
        { data := leBytes 4 (regRead32 (reqBank req) off s).toNat }
        { s with latches := tabSet s.latches (reqBank req) (off, regRead32 (reqBank req) (off + 4) s) })) ∧
      (∀ w : Word, tabGet? s.latches (reqBank req) = some (off, w) →
        exec (.registerHiRead req (off + 4)) s = .next (settle (reply (reqBank req) { data := leBytes 4 w.toNat }
          { s with latches := tabDel s.latches (reqBank req) }))) ∧
      ((∀ w : Word, tabGet? s.latches (reqBank req) ≠ some (off, w)) →
        exec (.registerHiRead req (off + 4)) s = .next (settle (reply (reqBank req)
          { data := leBytes 4 (regRead32 (reqBank req) (off + 4) s).toNat } s)))

/-- REGISTER_READ answers the register and leaves the state; a wrong size answers 0 and logs. By a requester with access:
a 32-bit read of a register that is no word of a 64-bit register, and a 64-bit read, outside the mailbox windows and
XK_NOISE, answer the words of the same instant and change nothing but the reply, the latch included; a 32-bit read of
a word of a 64-bit register is that of REGISTER_LO_READ or REGISTER_HI_READ. A read of the window of a mailbox in state
DONE answers the response buffer, in another state bytes that are open. XK_NOISE answers an open value below 2^16. A
read without access answers 0 with RIGHTS and is logged; one of a wrong size or alignment answers 0 and logs REG_SIZE.
(R40, R50, R56, R689, R694, 01_architecture.md) -/
def Obligations.RegisterReadAnswersAndChangesNothing : Prop :=
  ∀ (req : Req) (off : Nat) (s : State),
    (mayAccess req off false = true →
      (¬(0x1000 ≤ off ∧ off < 0x2000 ∧ off % 0x200 < 0x100) → regSizeOk off 4 = true → isLo64 off = false →
        ¬(4 ≤ off ∧ isLo64 (off - 4) = true) → off / 4 ≠ 0x901C / 4 →
        exec (.registerRead req off 4) s = .next (settle (reply (reqBank req)
          { data := leBytes 4 (regRead32 (reqBank req) off s).toNat } s))) ∧
      (¬(0x1000 ≤ off ∧ off < 0x2000 ∧ off % 0x200 < 0x100) → regSizeOk off 8 = true → off / 4 ≠ 0x901C / 4 → off ≠ 0x9018 →
        exec (.registerRead req off 8) s = .next (settle (reply (reqBank req)
          { data := leBytes 4 (regRead32 (reqBank req) off s).toNat ++
              leBytes 4 (regRead32 (reqBank req) (off + 4) s).toNat } s))) ∧
      (∀ n : Fin 8, mbBase n ≤ off → off < mbBase n + 0x100 → regSizeOk off 4 = true →
        ∃ t d, exec (.registerRead req off 4) s = .next t ∧ t.regs = s.regs ∧ t.mboxes = s.mboxes ∧ SameStores s t ∧
          tabGet {} t.replies (reqBank req) = { data := d } ∧ d.length = 4 ∧
          (mbState s n = 3 → d = (natsFrom (off % 0x200) 4).map fun i => (mbOf s n).rsp.getD i 0)) ∧
      (off = 0x901C → ∃ t x, exec (.registerRead req off 4) s = .next t ∧ x < 65536 ∧ t.regs = s.regs ∧ SameStores s t ∧
        tabGet {} t.replies (reqBank req) = { data := leBytes 4 x })) ∧
    (isLo64 off = true → exec (.registerRead req off 4) s = exec (.registerLoRead req off) s) ∧
    (4 ≤ off → isLo64 (off - 4) = true → exec (.registerRead req off 4) s = exec (.registerHiRead req off) s) ∧
    (∀ size : Nat, regSizeOk off size = true → mayAccess req off false = false →
      exec (.registerRead req off size) s = .next (settle (reply (reqBank req)
        { resp := 2, data := List.replicate size 0 } (regViolation req 2 off false s)))) ∧
    ∀ size : Nat, regSizeOk off size = false →
      exec (.registerRead req off size) s = .next (settle (reply (reqBank req)
        { data := List.replicate size 0 } (regViolation req 0x10 off false s)))

/-- OP_WRITE_REFUSED: a reserved encoding of an operation register starts nothing and is reported. A write of a reserved
operation code to DS_SEM_OP leaves every semaphore and reports OK 0 in DS_SEM_RES; to BK_r_OP it leaves the ring and
reports BAD_OP in BK_r_RES; a write with GO of a reserved operation or hint to TC_OP_CTRL or FC_OP_CTRL starts no
range operation and reports REFUSED. The requester has write access. (R18, R64, R40) -/
def Obligations.ReservedOperationIsRefused : Prop :=
  ∀ (req : Req) (v : Word) (s : State), (∀ ch, req ≠ .dma ch) →
    (5 ≤ fieldOf v 28 4 → exec (.opWriteRefused req 0x880 v) s = .next (settle (semFailed (reqBank req) s))) ∧
    (∀ r : Fin 128, 7 ≤ fieldOf v 28 4 → exec (.opWriteRefused req (0x10020 + 0x200 * r) v) s =
      .next (settle (bkResult (reqBank req) r false 8 s))) ∧
    (bitAt v.toNat 31 = true → 4 ≤ fieldOf v 0 3 ∨ fieldOf v 4 2 = 3 →
      exec (.opWriteRefused req 0x120 v) s = .next (settle (rgRefuse (reqBank req) 0x124 s)) ∧
      exec (.opWriteRefused req 0x22C v) s = .next (settle (rgRefuse (reqBank req) 0x230 s)))

/-- A Deep Store access by address meets ALIGN, RANGE, RIGHTS and RING in this order. The checks before the banks, for an
access by address: a wrong size or alignment answers ALIGN (5); else an address past the local range DECERR (1); else
an address in no buffer RIGHTS (2); else, but for the supervisor in a buffer that is no ring, a tag not among the
owners or a missing right RIGHTS (2); else in a ring buffer an access without an open window RING (4); else none. A
refused access changes no byte, no semaphore, no ring and no buffer. (R231, R225, R234, R240, 04_deep_store.md) -/
def Obligations.AccessChecksInOrder : Prop :=
  ∀ (r : DsReq) (a : Nat) (s : State), r.target = .addr a →
    (viewOk r a = false → (dsCheck s r).1 = 5) ∧
    (viewOk r a = true → localSize s < a + r.size → (dsCheck s r).1 = 1) ∧
    (viewOk r a = true → a + r.size ≤ localSize s → bufferAt s a = none → (dsCheck s r).1 = 2) ∧
    (∀ i, viewOk r a = true → a + r.size ≤ localSize s → bufferAt s a = some i →
      ((handleOf s i).ring = false → r.tag = 0x1C → (dsCheck s r).1 = 0) ∧
      (¬((handleOf s i).ring = false ∧ r.tag = 0x1C) →
        ((bitAt (handleOf s i).owner r.tag && bitAt (handleOf s i).rights (rightBit r)) = false → (dsCheck s r).1 = 2) ∧
        ((bitAt (handleOf s i).owner r.tag && bitAt (handleOf s i).rights (rightBit r)) = true →
          ((handleOf s i).ring = false → (dsCheck s r).1 = 0) ∧
          ((handleOf s i).ring = true → (dsCheck s r).1 =
            if ringCheck s i r.tag (a - (handleOf s i).base) r.size r.write then 0 else 4)))) ∧
    ∀ force : Bool, (dsCheck s r).1 ≠ 0 →
      (dsAccess r force s).2.resp = (dsCheck s r).1 ∧ (dsAccess r force s).1.mem = s.mem ∧
        (dsAccess r force s).1.sems = s.sems ∧ (dsAccess r force s).1.rings = s.rings ∧
        (dsAccess r force s).1.handles = s.handles

/-- DEEP_STORE_ACCESS: an access that passes reads or writes exactly its bytes; without a unit of its class it waits. With
nothing for the scheduler to do. An access that passes the checks, to a bank that is ON and words without a mark, whose
class, if it has one, has a unit and no access waiting: a read changes no byte and no mark and is answered with its
bytes; a write stores its bytes at its address and is answered without error, and every other byte stays. The answer
goes to the port of the tag that has one. Where the class has no unit, or an earlier access of it waits, the access
joins those that wait and changes no byte. Buffers, rings and near stores stay. (R231, R225, R226, R280, R351,
04_deep_store.md) -/
def Obligations.DeepStoreAccessIsPerformed : Prop :=
  ∀ (r : DsReq) (s : State), Calm s →
    (Passes s r → (∀ c, bwClassOf r.tag r.write = some c → Units s c 1) →
      (r.write = false → ∃ t, exec (.deepStoreAccess r) s = .next t ∧ SameStores s t ∧ t.ecc = s.ecc ∧
        ∀ b, tagBank? r.tag = some b → tabGet {} t.replies b = { data := memBytes s (dsCheck s r).2.1 r.size }) ∧
      (r.write = true → r.data.length = r.size → ∃ t, exec (.deepStoreAccess r) s = .next t ∧ t.handles = s.handles ∧
        t.rings = s.rings ∧ t.near = s.near ∧ (∀ b, tagBank? r.tag = some b → tabGet {} t.replies b = {}) ∧
        memBytes t (dsCheck s r).2.1 r.size = r.data ∧
        ∀ a, a < (dsCheck s r).2.1 ∨ (dsCheck s r).2.1 + r.size ≤ a → memByte t a = memByte s a)) ∧
    ∀ c, bwClassOf r.tag r.write = some c → NoUnit s c → ∃ t, exec (.deepStoreAccess r) s = .next t ∧ SameStores s t ∧
      t.held = s.held ++ [⟨c, .deep r⟩] ∧ t.replies = s.replies

/-- FABRIC_TIMEOUT: the request receives TIMEOUT and is logged, and the stores are untouched. With nothing for the
scheduler to do. A request of the host or of a Trestle core, by an address that is neither local Deep Store nor in a
node's window, receives the response code TIMEOUT (7) on its port; the next entry of the error log has class 3, code
7, the requester's tag and the address; no byte, no buffer, no ring, no semaphore and no register outside the error
log's block changes. Every requester's is logged and answered so. A request to the local Deep Store or a node's window
has no such timeout, and nothing changes (the model's reading, log entry 80). (R68, R67, R69, R271,
01_architecture.md) -/
def Obligations.FabricTimeoutAnswersTimeout : Prop :=
  ∀ (r : DsReq) (s : State),
    (∀ a, mayTimeOut r = some a →
      exec (.fabricTimeout r) s = .next (settle (schedTick (respond r a { resp := 7 } (dsErrLog r 7 a s)))) ∧
      (Calm s → 0x10 ≤ r.tag → r.tag ≤ 0x18 → ∃ t e, exec (.fabricTimeout r) s = .next t ∧ SameStores s t ∧ t.sems = s.sems ∧
        (∀ b, tagBank? r.tag = some b → (tabGet {} t.replies b).resp = 7) ∧
        tabGet? t.log ((regGet s 0x6000).toNat % 256) = some e ∧ e.cls = 3 ∧ e.code = 7 ∧ e.source = r.tag ∧
        e.detail = r.detail ∧ e.addr = a ∧ ∀ o, o < 0x6000 ∨ 0x7000 ≤ o → regGet t o = regGet s o)) ∧
    (mayTimeOut r = none → Calm s → exec (.fabricTimeout r) s = .next (settle s))

/-- HOST_BAR2_READ and HOST_BAR2_WRITE move exactly the bytes of their range. When every piece that R45 splits a BAR2
access into passes the checks as the host (tag 0x18), and class HOST has a unit for each and no access waiting: a read
answers the bytes of the range on the host's port and changes no byte and no mark; a write stores its bytes over the
range, and no other byte of the store and no mark of a word outside the range changes. Buffers, rings and near stores
stay. Where class HOST has no unit the access waits, and changes no byte. (R44, R45, R46, R351, 01_architecture.md) -/
def Obligations.HostWindowAccessesMoveTheirBytes : Prop :=
  ∀ (addr : Nat) (s : State),
    (∀ len, (∀ p ∈ pieces len addr len, Passes s (bar2Req p.1 p.2 false)) → Units s 4 (pieces len addr len).length →
      ∃ t, exec (.hostBar2Read addr len) s = .next t ∧ tabGet {} t.replies 0 = { data := memBytes s addr len } ∧
        SameStores s t ∧ t.ecc = s.ecc) ∧
    (∀ data : List Byte, (∀ p ∈ pieces data.length addr data.length, Passes s (bar2Req p.1 p.2 true)) →
      Units s 4 (pieces data.length addr data.length).length →
      ∃ t, exec (.hostBar2Write addr data) s = .next t ∧ memBytes t addr data.length = data ∧ t.handles = s.handles ∧
        t.rings = s.rings ∧ t.near = s.near ∧ (∀ a, a < addr ∨ addr + data.length ≤ a → memByte t a = memByte s a) ∧
        ∀ w, w + 8 ≤ addr ∨ addr + data.length ≤ w → eccAt t w = eccAt s w) ∧
    (NoUnit s 4 → (∀ len, 0 < len → ∃ t, exec (.hostBar2Read addr len) s = .next t ∧ SameStores s t ∧
        t.held.length = s.held.length + 1 ∧ t.replies = s.replies) ∧
      ∀ data : List Byte, data ≠ [] → ∃ t, exec (.hostBar2Write addr data) s = .next t ∧ SameStores s t ∧
        t.held.length = s.held.length + 1)

/-- DS_SEM_SIGNAL, DS_SEM_TRY and DS_SEM_READ count as the spec says. For a requester that may write DS_SEM_OP: SIGNAL of
n on a semaphore without a queue sets its value to value + n, at most 65,535; on one whose only waiter the sum
satisfies it serves that wait. TRY takes n when no wait is queued and the value suffices, and otherwise changes no
semaphore and reports OK 0; READ changes no semaphore. DS_SEM_RES of the requester then holds OK, an armed wait's
ARMED and INDEX, and the value. Other semaphores, rings, and every byte of the store stay. (R250, R252, R256,
04_deep_store.md) -/
def Obligations.SemaphoreSignalTryRead : Prop :=
  ∀ (req : Req) (sem : Fin 4096) (n : BitVec 16) (s : State), mayAccess req 0x880 true = true →
    ((semOf s sem).queue = [] → ∃ t, exec (.dsSemSignal req sem n) s = .next t ∧
      (semOf t sem).value = min ((semOf s sem).value + n.toNat) 65535 ∧ (semOf t sem).queue = [] ∧
      (∀ j, j ≠ sem.val → semOf t j = semOf s j) ∧ t.mem = s.mem ∧ t.rings = s.rings ∧
      regGet t (semRes (reqBank req)) = semWord (reqBank req) sem true (min ((semOf s sem).value + n.toNat) 65535) s) ∧
    (∀ (w : SemWait) (k : Nat), (semOf s sem).queue = [w] → w.who = .bank k → w.n ≤ min ((semOf s sem).value + n.toNat) 65535 →
      ∃ t, exec (.dsSemSignal req sem n) s = .next t ∧ (semOf t sem).queue = [] ∧
        (semOf t sem).value = min ((semOf s sem).value + n.toNat) 65535 - w.n ∧ regBits t (semRes k) 29 2 = 1 ∧
        (∀ j, j ≠ sem.val → semOf t j = semOf s j) ∧ t.mem = s.mem ∧ t.rings = s.rings) ∧
    (semCan s sem n.toNat = true → ∃ t, exec (.dsSemTry req sem n) s = .next t ∧
      (semOf t sem).value = (semOf s sem).value - n.toNat ∧ (semOf t sem).queue = (semOf s sem).queue ∧
      (∀ j, j ≠ sem.val → semOf t j = semOf s j) ∧ t.mem = s.mem ∧ t.rings = s.rings ∧
      regGet t (semRes (reqBank req)) = semWord (reqBank req) sem true ((semOf s sem).value - n.toNat) s) ∧
    (semCan s sem n.toNat = false → exec (.dsSemTry req sem n) s = .next (settle (regSet (semRes (reqBank req))
      (semWord (reqBank req) sem false (semOf s sem).value s) s))) ∧
    exec (.dsSemRead req sem) s = .next (settle (regSet (semRes (reqBank req))
      (semWord (reqBank req) sem true (semOf s sem).value s) s))

/-- DS_SEM_WAIT_ARM, DS_SEM_WAIT_CANCEL and SEM_WAIT_GRANT: a wait queues, is cancelled, is served. WAIT_ARM without an
armed wait: where the units cannot be taken now, the wait joins the queue's end with the requester's tag and ARMED is
set, no value changes; where they can, they are taken and GRANTED is set with ARMED clear. With an armed wait it is
refused: OK and GRANTED 0, nothing else. WAIT_CANCEL takes the requester's wait from the queue, clears ARMED, reports
OK and changes no value where the next wait cannot be served; without an armed wait it is refused. The wait at the
queue's head whose units are there is served: the units are taken, it leaves the queue, its requester has GRANTED set
and ARMED clear, its tile-op has been served; where they are not there nothing changes. Other semaphores and the
store stay. (R251, R257, R258, R259, 04_deep_store.md) -/
def Obligations.SemaphoreWaitsQueueAndAreGranted : Prop :=
  ∀ (s : State),
    (∀ (req : Req) (sem : Fin 4096) (n : BitVec 16), mayAccess req 0x880 true = true →
      (bitAt (regGet s (semRes (reqBank req))).toNat 30 = true →
        exec (.dsSemWaitArm req sem n) s = .next (settle (semFailed (reqBank req) s))) ∧
      (bitAt (regGet s (semRes (reqBank req))).toNat 30 = false →
        (semCan s sem n.toNat = false → ∃ t, exec (.dsSemWaitArm req sem n) s = .next t ∧
          (semOf t sem).queue = (semOf s sem).queue ++ [⟨.bank (reqBank req), reqTag req, n.toNat⟩] ∧
          (semOf t sem).value = (semOf s sem).value ∧ bitAt (regGet t (semRes (reqBank req))).toNat 30 = true ∧
          (∀ j, j ≠ sem.val → semOf t j = semOf s j) ∧ t.mem = s.mem) ∧
        (semCan s sem n.toNat = true → ∃ t, exec (.dsSemWaitArm req sem n) s = .next t ∧
          (semOf t sem).value = (semOf s sem).value - n.toNat ∧ regBits t (semRes (reqBank req)) 29 2 = 1 ∧
          (∀ j, j ≠ sem.val → semOf t j = semOf s j) ∧ t.mem = s.mem))) ∧
    (∀ req : Req, mayAccess req 0x880 true = true →
      (bitAt (regGet s (semRes (reqBank req))).toNat 30 = false →
        exec (.dsSemWaitCancel req) s = .next (settle (semFailed (reqBank req) s))) ∧
      ∀ (i : Nat) (l : List SemWait), bitAt (regGet s (semRes (reqBank req))).toNat 30 = true →
        regBits s (semRes (reqBank req)) 16 12 = i → (semOf s i).queue.filter (fun w => w.who ≠ .bank (reqBank req)) = l →
        (∀ w, l.head? = some w → (semOf s i).value < w.n) →
        ∃ t, exec (.dsSemWaitCancel req) s = .next t ∧ (semOf t i).queue = l ∧ (semOf t i).value = (semOf s i).value ∧
          regGet t (semRes (reqBank req)) = w32 (2 ^ 31 + atBit i 16 + (semOf s i).value % 65536) ∧
          (∀ j, j ≠ i → semOf t j = semOf s j) ∧ t.mem = s.mem) ∧
    ∀ sem : Fin 4096,
      ((∀ w, (semOf s sem).queue.head? = some w → (semOf s sem).value < w.n) →
        exec (.semWaitGrant sem) s = .next (settle s)) ∧
      ∀ (w : SemWait) (l : List SemWait), (semOf s sem).queue = w :: l → w.n ≤ (semOf s sem).value →
        (∀ x, l.head? = some x → (semOf s sem).value - w.n < x.n) →
        ∃ t, exec (.semWaitGrant sem) s = .next t ∧ (semOf t sem).queue = l ∧
          (semOf t sem).value = (semOf s sem).value - w.n ∧ (∀ b, w.who = .bank b → regBits t (semRes b) 29 2 = 1) ∧
          (∀ id o, w.who = .op id → tabGet? s.ops id = some o →
            (tabGet? t.ops id).map (·.waitServed) = some true) ∧
          (∀ j, j ≠ sem.val → semOf t j = semOf s j) ∧ t.mem = s.mem

/-- SPARE_COPY_DONE, RELOCATION_DONE, SCRUB_LINE, BUCKET_REFILL. A spare copy that completes with group 16 ON switches the
bank map to the spare and maps the old bank out; with it not ON nothing changes. While no supervisor runs (a takeover),
neither a spare copy nor a relocation makes its final switch. A relocation that completes with no
COMPACT running and no line in the tile caches moves BASE to the destination and the bytes with it; one of a buffer
that may no longer move leaves it. The scrubber passes to the next line and, after the last, to line 0 with its pass
counter advanced. With nothing waiting, a refill adds RATE for each 100 ns step to a bucket without a pending setting,
less what the class owes (log entry 19), up to DEPTH; a pending setting comes into force at the step; a read that waits
for its class alone, has a unit then and passes, is made. (R219, R247, R285, R287, R351, R684,
04_deep_store.md, 05_baskets_streams.md, 12_supervisor_mailboxes.md; log entry 46) -/
def Obligations.BanksBuffersAndScrubberMove : Prop :=
  ∀ s : State,
    (s.sup.failed = true → exec .spareCopyDone s = .next (settle s) ∧ exec .relocationDone s = .next (settle s)) ∧
    (∀ c : SpareCopy, s.copy = some c → s.sup.failed = false →
      (groupOf s 16 ≠ .on → exec .spareCopyDone s = .next (settle s)) ∧
      (groupOf s 16 = .on → ∃ t, exec .spareCopyDone s = .next t ∧ t.copy = none ∧
        physBank t c.logical = c.dest ∧ t.bankOut.contains (physBank s c.logical) = true ∧
        (∀ b, b ≠ c.logical → physBank t b = physBank s b) ∧ t.mem = s.mem)) ∧
    (∀ r : Relocation, s.reloc = some r → s.sup.failed = false → (∀ e ∈ s.sup.longs, e.2.opcode ≠ 0x0405) →
      (movable s r.idx = false → exec .relocationDone s = .next (settle { s with reloc := none })) ∧
      (movable s r.idx = true → s.tcache = [] → ∃ t, exec .relocationDone s = .next t ∧ t.reloc = none ∧
        handleOf t r.idx = { handleOf s r.idx with base := r.dest } ∧ (∀ j, j ≠ r.idx → handleOf t j = handleOf s j) ∧
        t.rings = s.rings ∧ t.near = s.near ∧ ((s.mem.map (·.1)).Nodup →
          (∀ k, k < 4096 * (handleOf s r.idx).units → memByte t (r.dest + k) = memByte s ((handleOf s r.idx).base + k)) ∧
          ∀ a, a < r.dest ∨ r.dest + 4096 * (handleOf s r.idx).units ≤ a → memByte t a = memByte s a))) ∧
    (regBits s 0x824 0 16 < 65535 → ∃ t, exec .scrubLine s = .next t ∧
      regGet t 0x824 = w32 (regBits s 0x824 0 16 + 1) ∧ t.mem = s.mem) ∧
    (regBits s 0x824 0 16 = 65535 → s.ecc = [] → ∃ t, exec .scrubLine s = .next t ∧ regGet t 0x824 = 0 ∧
      regBits t 0x820 0 16 = (regBits s 0x820 0 16 + 1) % 65536 ∧ t.mem = s.mem) ∧
    ∀ (time : Nat) (c : Fin 5),
      (Quiet s → s.held = [] → s.xk.far = [] → ∃ t, exec (.bucketRefill time) s = .next t ∧ t.ts = max s.ts time ∧
        SameStores s t ∧
        (∀ n, tabGet 0 s.tokens (32 + c) = n + 1 → s.lastRefill / 100 < time / 100 → regGet t (0x400 + 0x10 * c) = w32 n) ∧
        (tabGet 0 s.tokens (32 + c) = 0 → regGet t (0x400 + 0x10 * c) = regGet s (0x400 + 0x10 * c) ∧
          tabGet 0 t.tokens c = min (bwDepth s c)
            (tabGet 0 s.tokens c + ((time / 100 - s.lastRefill / 100) * bwRate s c - bwOwed s c)))) ∧
      ∀ (u : State) (r : DsReq), refillTo time (tsTo time s) = u → Quiet u → u.xk.far = [] → u.held = [⟨c, .deep r⟩] →
        bwClassOf r.tag r.write = some c.val → bwReady u c = true → Passes u r → r.write = false →
        ∃ t, exec (.bucketRefill time) s = .next t ∧ t.held = [] ∧ SameStores u t ∧
          ∀ b, tagBank? r.tag = some b → tabGet {} t.replies b = { data := memBytes u (dsCheck u r).2.1 r.size }

/-- PROD_TRY and CONS_TRY acquire a slot at once, or fail without a change. With no tile-op, no stream group and no core
about to leave, on a declared ring: PROD_TRY by its producer, no producer acquire waiting, the slot at HEAD ready and
the window table not full, takes the slot at HEAD (FILLING), gives a producer window and advances HEAD; other rings
stay. CONS_TRY of a ready counter, the table not full, gives a consumer window and leaves the rings. Each reports OK,
and the store and the semaphores stay. Where the slot is not ready, or an earlier producer waits, only BK_r_RES
changes, with ERR NOT_READY; for a full window table it is WIN_FULL, for a counter out of range RANGE, for another
producer's ring NOT_PRODUCER, for a ring that is not declared NOT_DECLARED. (R302, R307, R312, R313, R318, R319, R321,
05_baskets_streams.md) -/
def Obligations.RingTriesAcquire : Prop :=
  ∀ (req : Req) (r : Fin 128) (dma : Bool) (s : State), Quiet s → mayAccess req (bkBase r + 0x20) true = true →
    ((ringOf s r).declared = false → exec (.prodTry req r dma) s = .next (settle (bkResult (reqBank req) r false 9 s)) ∧
      ∀ c : BitVec 16, exec (.consTry req r dma c) s = .next (settle (bkResult (reqBank req) r false 9 s))) ∧
    ((ringOf s r).declared = true →
      ((ringOf s r).producer ≠ actTag req dma →
        exec (.prodTry req r dma) s = .next (settle (bkResult (reqBank req) r false 2 s))) ∧
      ((ringOf s r).producer = actTag req dma →
        ((ringOf s r).waitP = [] → prodReady (ringOf s r) none = true →
          (windowFree s = false → exec (.prodTry req r dma) s = .next (settle (bkResult (reqBank req) r false 5 s))) ∧
          (windowFree s = true → ∃ t, exec (.prodTry req r dma) s = .next t ∧
            t.windows = s.windows ++ [⟨r, (ringOf s r).head, actTag req dma, true, none⟩] ∧
            (ringOf t r).head = ((ringOf s r).head + 1) % wrapOf (ringOf s r) ∧
            (slotAt (ringOf t r) (ringOf s r).head).state = .filling ∧ (∀ j, j ≠ r.val → ringOf t j = ringOf s j) ∧
            bitAt (regGet t (bkRes (reqBank req) r)).toNat 31 = true ∧ t.mem = s.mem ∧ t.sems = s.sems)) ∧
        ((ringOf s r).waitP ≠ [] ∨ prodReady (ringOf s r) none = false →
          exec (.prodTry req r dma) s = .next (settle (bkResult (reqBank req) r false 1 s)))) ∧
      ∀ c : BitVec 16,
        ((ringOf s r).slots ≤ fromTail (ringOf s r) c.toNat → exec (.consTry req r dma c) s =
          .next (settle (bkCounter (reqBank req) r c.toNat (bkResult (reqBank req) r false 3 s)))) ∧
        (fromTail (ringOf s r) c.toNat < (ringOf s r).slots →
          (consReady (ringOf s r) c.toNat none = false → exec (.consTry req r dma c) s =
            .next (settle (bkCounter (reqBank req) r c.toNat (bkResult (reqBank req) r false 1 s)))) ∧
          (consReady (ringOf s r) c.toNat none = true →
            (windowFree s = false → exec (.consTry req r dma c) s =
              .next (settle (bkCounter (reqBank req) r c.toNat (bkResult (reqBank req) r false 5 s)))) ∧
            (windowFree s = true → ∃ t, exec (.consTry req r dma c) s = .next t ∧
              t.windows = s.windows ++ [⟨r, c.toNat, actTag req dma, false, none⟩] ∧ t.rings = s.rings ∧
              bitAt (regGet t (bkRes (reqBank req) r)).toNat 31 = true ∧ t.mem = s.mem ∧ t.sems = s.sems))))

/-- COMMIT publishes the slot at PUB with its reference count; RELEASE lowers the count of a FULL slot. With no tile-op, no
stream group, no core about to leave and no waiting acquire, on a declared ring: COMMIT by the holder of the producer
window removes that window and reports OK; when the slot is the one at PUB, the only one between TAIL and HEAD, not
speculative, and keeps references, it becomes FULL with the ring's reference count less one for LAST with AUTO_UP and
one for FIRST with AUTO_DOWN, and PUB advances. RELEASE by the holder of a consumer window removes that window and
reports OK; a FULL slot with more than one reference keeps one less. Without the window both report NO_WINDOW, count
in BK_r_ERR, log RING and leave the rings. Store and semaphores stay. (R302, R303, R304, R311, R314, R322,
05_baskets_streams.md) -/
def Obligations.RingCommitAndRelease : Prop :=
  ∀ (req : Req) (r : Fin 128) (dma : Bool) (c : BitVec 16) (s : State), Quiet s → NoWaits s r →
    mayAccess req (bkBase r + 0x20) true = true → (ringOf s r).declared = true →
    (∀ first last : Bool,
      (holdsWindow s r c.toNat (actTag req dma) true = false → ∃ t, exec (.commitSlot req r dma c first last) s = .next t ∧
        regBits t (bkRes (reqBank req) r) 24 5 = 4 ∧ bitAt (regGet t (bkRes (reqBank req) r)).toNat 31 = false ∧
        Counted (bkBase r + 0x88) s t ∧ t.rings = s.rings ∧ t.windows = s.windows ∧ t.mem = s.mem ∧ t.sems = s.sems) ∧
      (holdsWindow s r c.toNat (actTag req dma) true = true →
        ∃ t, exec (.commitSlot req r dma c first last) s = .next t ∧ t.mem = s.mem ∧ t.sems = s.sems ∧
        t.windows = (dropWindow r c.toNat (actTag req dma) true s).windows ∧
        bitAt (regGet t (bkRes (reqBank req) r)).toNat 31 = true ∧
        ((ringOf s r).pub = c.toNat → (ringOf s r).tail = c.toNat → 1 < (ringOf s r).slots →
          (ringOf s r).head = (c.toNat + 1) % wrapOf (ringOf s r) → (ringOf s r).head ≠ c.toNat →
          slotAt (ringOf s r) c.toNat = { state := .filling } →
          0 < (ringOf s r).refs - b2n ((ringOf s r).autoUp && last) - b2n ((ringOf s r).autoDown && first) →
          (ringOf t r).pub = (ringOf s r).head ∧ slotAt (ringOf t r) c.toNat = ⟨.full,
            (ringOf s r).refs - b2n ((ringOf s r).autoUp && last) - b2n ((ringOf s r).autoDown && first),
            false, first, last, none, false, 0⟩))) ∧
    (holdsWindow s r c.toNat (actTag req dma) false = false → ∃ t, exec (.releaseSlot req r dma c) s = .next t ∧
      regBits t (bkRes (reqBank req) r) 24 5 = 4 ∧ bitAt (regGet t (bkRes (reqBank req) r)).toNat 31 = false ∧
      Counted (bkBase r + 0x88) s t ∧ t.rings = s.rings ∧ t.windows = s.windows ∧ t.mem = s.mem ∧ t.sems = s.sems) ∧
    (holdsWindow s r c.toNat (actTag req dma) false = true →
      ∃ t, exec (.releaseSlot req r dma c) s = .next t ∧ t.mem = s.mem ∧ t.sems = s.sems ∧
        t.windows = (dropWindow r c.toNat (actTag req dma) false s).windows ∧
        bitAt (regGet t (bkRes (reqBank req) r)).toNat 31 = true ∧
        (fromTail (ringOf s r) c.toNat < occOf (ringOf s r) → (slotAt (ringOf s r) c.toNat).state = .full →
          1 < (slotAt (ringOf s r) c.toNat).rc → slotAt (ringOf t r) c.toNat =
            { slotAt (ringOf s r) c.toNat with rc := (slotAt (ringOf s r) c.toNat).rc - 1, state := .full }))

/-- PROD_ARM, CONS_ARM, ARM_CANCEL and RING_ACQUIRE_GRANT. With no tile-op, no stream group and no core about to leave, on
a declared ring: PROD_ARM by its producer while the slot at HEAD is not ready, and CONS_ARM of a counter in range
that is not ready, join the ring's queue and set ARMED; where the requester's acquire is armed already, both are
refused with ERR ARMED_ALREADY. ARM_CANCEL of the requester's armed acquire, when no other acquire waits, empties the queues
and clears ARMED. On a ring with every slot free, the only waiting acquire, a producer's, is served: the slot at HEAD
is taken, a window is given and GRANTED set. The store stays. (R302, R312, R313, R316, R319, R320, R1008,
05_baskets_streams.md) -/
def Obligations.ArmedAcquiresWaitAndAreServed : Prop :=
  ∀ (r : Fin 128) (s : State), Quiet s → (ringOf s r).declared = true →
    (∀ (req : Req) (dma : Bool), mayAccess req (bkBase r + 0x20) true = true →
      (bkArmed s (reqBank req) r = true →
        ((ringOf s r).producer = actTag req dma →
          exec (.prodArm req r dma) s = .next (settle (bkResult (reqBank req) r false 6 s))) ∧
        ∀ c : BitVec 16, exec (.consArm req r dma c) s = .next (settle (bkResult (reqBank req) r false 6 s))) ∧
      (bkArmed s (reqBank req) r = false →
        ((ringOf s r).producer = actTag req dma → prodReady (ringOf s r) none = false →
          ∃ t, exec (.prodArm req r dma) s = .next t ∧
            (ringOf t r).waitP = (ringOf s r).waitP ++ [⟨.bank (reqBank req), actTag req dma, none, none, false⟩] ∧
            bitAt (regGet t (bkRes (reqBank req) r)).toNat 30 = true ∧ t.windows = s.windows ∧ t.mem = s.mem) ∧
        ∀ c : BitVec 16, fromTail (ringOf s r) c.toNat < (ringOf s r).slots → consReady (ringOf s r) c.toNat none = false →
          ∃ t, exec (.consArm req r dma c) s = .next t ∧
            (ringOf t r).waitC = (ringOf s r).waitC ++ [⟨.bank (reqBank req), actTag req dma, some c.toNat, none, false⟩] ∧
            bitAt (regGet t (bkRes (reqBank req) r)).toNat 30 = true ∧ t.windows = s.windows ∧ t.mem = s.mem)) ∧
    (∀ req : Req, mayAccess req (bkBase r + 0x20) true = true → bkArmed s (reqBank req) r = true →
      (∀ a ∈ (ringOf s r).waitP ++ (ringOf s r).waitC, a.who = .bank (reqBank req)) →
      ∃ t, exec (.armCancel req r) s = .next t ∧ NoWaits t r ∧ bkArmed t (reqBank req) r = false ∧
        bitAt (regGet t (bkRes (reqBank req) r)).toNat 31 = true ∧ t.mem = s.mem) ∧
    ∀ (a : Acquire) (b : Nat), (ringOf s r).waitP = [a] → (ringOf s r).waitC = [] → a.who = .bank b → b ≤ 12 →
      prodReady (ringOf s r) a.epoch = true → windowFree s = true → (ringOf s r).pub = (ringOf s r).head →
      (ringOf s r).tail = (ringOf s r).head → ∃ t, exec (.ringAcquireGrant r) s = .next t ∧
        t.windows = s.windows ++ [⟨r, (ringOf s r).head, a.tag, true, a.epoch⟩] ∧ (ringOf t r).waitP = [] ∧
        (ringOf t r).head = ((ringOf s r).head + 1) % wrapOf (ringOf s r) ∧ regBits t (bkRes b r) 29 2 = 1 ∧ t.mem = s.mem

/-- ENCODER_EDGE counts a held transition in its direction, and refuses what R73, R77 and R78 refuse. With u the state at
the edge's instant and no backup set: an edge that does not hold FILT steps of 5 ns changes nothing; on a disabled
encoder the levels alone change. A change of A and B together on an enabled one adds no count, counts in ILLEGAL (at
most 255) and raises the encoder's event. A single change counts in DECODE 4, in DECODE 2 when A changes, and in
DECODE 1 when A changes while B is 0; without DIR_INVERT it is forward when A changes while A = B or B while they
differ. Within MAX_STEP the encoder's count moves by one; on the master, at the latest instant, with an empty calendar
and scheduler and the boundary further than SCALE, LX moves by SCALE (not below 0). Beyond MAX_STEP neither count nor
LX moves, REJECT counts, and on the master POS_SUSPECT is set for 64 counts. Memory stays. (R73, R74, R76, R77, R78,
R79, R80, R90, 02_line_time.md) -/
def Obligations.EncoderTransitionsCountOrAreRefused : Prop :=
  ∀ (n : Fin 4) (a b : Bool) (t held : Nat) (s u : State), timeTo t s = u → u.lt.backup = none →
    (held < 5 * (encOf u n).filt → exec (.encoderEdge n a b ⟨t, held⟩) s = .next (settle u)) ∧
    (5 * (encOf u n).filt ≤ held →
      ((encOf u n).en = false → ∃ v, exec (.encoderEdge n a b ⟨t, held⟩) s = .next v ∧
        v.lt = (encMod n (fun e => { e with a := a, b := b }) u).lt ∧
        v.mem = u.mem ∧ v.regs = u.regs ∧ v.cal = u.cal ∧ v.ports = u.ports ∧ v.rings = u.rings) ∧
      ((encOf u n).en = true → a ≠ (encOf u n).a → b ≠ (encOf u n).b → ∃ v, exec (.encoderEdge n a b ⟨t, held⟩) s = .next v ∧
        (encOf v n).illegal = min 255 ((encOf u n).illegal + 1) ∧ (encOf v n).count = (encOf u n).count ∧
        bitAt (regGet v 0x3034).toNat n = true ∧ v.lt.pos = u.lt.pos ∧ v.mem = u.mem ∧ v.cal = u.cal) ∧
      ∀ up : Bool, (encOf u n).en = true → ((a != (encOf u n).a) != (b != (encOf u n).b)) = true →
        ((encOf u n).decode = 4 ∨ (encOf u n).decode = 2 ∧ a ≠ (encOf u n).a ∨
          (encOf u n).decode = 1 ∧ a ≠ (encOf u n).a ∧ (encOf u n).b = false) →
        up = (((a != (encOf u n).a) == ((encOf u n).a == (encOf u n).b)) != (encOf u n).inv) →
        (n.val ≠ u.lt.master → 0 < (encOf u n).maxStep →
          ((encOf u n).win = t / 1000 → (encOf u n).winCount < (encOf u n).maxStep) →
          ∃ v, exec (.encoderEdge n a b ⟨t, held⟩) s = .next v ∧
            (encOf v n).count = (if up then (encOf u n).count + 1 else (encOf u n).count - 1) ∧ v.lt.pos = u.lt.pos ∧
            v.mem = u.mem ∧ v.regs = u.regs ∧ v.cal = u.cal) ∧
        (n.val = u.lt.master → 0 < (encOf u n).maxStep →
          ((encOf u n).win = t / 1000 → (encOf u n).winCount < (encOf u n).maxStep) →
          s.ts ≤ t → Quiet u → u.cal = [] → (u.lt.pos + (encOf u n).scale) / 256 < u.lt.boundary →
          ∃ v, exec (.encoderEdge n a b ⟨t, held⟩) s = .next v ∧
            (encOf v n).count = (if up then (encOf u n).count + 1 else (encOf u n).count - 1) ∧
            v.lt.pos = (if up then u.lt.pos + (encOf u n).scale else u.lt.pos - (encOf u n).scale) ∧ v.mem = u.mem) ∧
        ((encOf u n).win = t / 1000 → (encOf u n).maxStep ≤ (encOf u n).winCount →
          ∃ v, exec (.encoderEdge n a b ⟨t, held⟩) s = .next v ∧ (encOf v n).count = (encOf u n).count ∧ v.lt.pos = u.lt.pos ∧
            (encOf v n).reject = min 65535 ((encOf u n).reject + 1) ∧ (n.val = u.lt.master → v.lt.suspect = 64) ∧
            v.mem = u.mem ∧ v.cal = u.cal))

/-- ENCODER_Z_EDGE, MASTER_FAILOVER, PRESS_STOPPED, REPEAT_BOUNDARY. With u the state at the event's instant: a rising Z
edge of the enabled master, held FILT steps of 5 ns, latches LX and starts a new Z interval, LX unchanged; a held edge
that falls, does not rise, or is of another or a disabled encoder only changes the level, one not held does nothing.
With a backup set, the failover takes place on four illegal transitions of the master within 1 ms, or on 16 counts of
the backup within 1 ms while the master has none for 1 ms: it names the backup master, LX keeps its value, BACKUP
becomes none and FAILOVER 1; otherwise nothing changes. A press below STOP_SPEED for STOP_HOLD becomes STOPPED and
EV_164 pulses. When LX, not behind, has reached the pending boundary and not the next, with no tile-op, no stream group
and no stream set up, the repeat counter increments, EV_163 pulses and the boundary advances by REPEAT_LEN; before that
nothing occurs. (R73, R85, R86, R87, R97, R107, R108, R1009, 02_line_time.md) -/
def Obligations.LineMasterPressAndRepeat : Prop :=
  ∀ (t : Nat) (s u : State), timeTo t s = u →
    (∀ (n : Fin 4) (held : Nat) (level : Bool),
      (held < 5 * (encOf u n).filt → exec (.encoderZEdge n level ⟨t, held⟩) s = .next (settle u)) ∧
      (5 * (encOf u n).filt ≤ held →
        (level = true → (encOf u n).en = true → n.val = u.lt.master → (encOf u n).z = false →
          ∃ v, exec (.encoderZEdge n level ⟨t, held⟩) s = .next v ∧ v.lt.zLatch = lxNow u ∧ v.lt.zRef = some (0, false, false) ∧
            (encOf v n).z = true ∧ v.lt.pos = u.lt.pos ∧ v.lt.edges = u.lt.edges ∧ v.mem = u.mem ∧ v.cal = u.cal) ∧
        (level = false ∨ (encOf u n).z = true ∨ (encOf u n).en = false ∨ n.val ≠ u.lt.master →
          ∃ v, exec (.encoderZEdge n level ⟨t, held⟩) s = .next v ∧ v.lt = (encMod n (fun e => { e with z := level }) u).lt ∧
            v.mem = u.mem ∧ v.regs = u.regs ∧ v.cal = u.cal))) ∧
    (∀ b : Nat, u.lt.backup = some b →
      ((∃ i, (encOf u u.lt.master).illegals[3]? = some i ∧ u.ts ≤ i + 1000000) ∨
        (max u.lt.masterSince (u.lt.lastCount.getD 0) + 1000000 ≤ u.ts ∧
          ∃ i, (encOf u b).recent[15]? = some i ∧ u.ts ≤ i + 1000000) →
        ∃ v, exec (.masterFailover t) s = .next v ∧ v.lt.master = b ∧ v.lt.backup = none ∧ v.lt.failover = true ∧
          lxNow v = lxNow u ∧ bitAt (regGet v 0x3034).toNat 13 = true ∧ v.mem = u.mem ∧ v.cal = u.cal)) ∧
    (failoverDue u = false → exec (.masterFailover t) s = .next (settle u)) ∧
    (∀ w : Nat, u.lt.press ≠ .stopped → slowFrom u = some w →
      (u.lt.stopHold * 100000 ≤ u.ts - w → ∃ v, exec (.pressStopped t) s = .next v ∧ v.lt.press = .stopped ∧
        v.lt.stoppedAt = u.ts ∧ v.lt.pos = u.lt.pos ∧ Emit.event 164 ∈ v.emitted ∧ v.mem = u.mem ∧ v.ports = u.ports) ∧
      (u.ts - w < u.lt.stopHold * 100000 → exec (.pressStopped t) s = .next (settle u))) ∧
    (u.lt.behind = false → u.lt.boundary ≤ lxNow u → lxNow u < u.lt.boundary + 256 * u.lt.repeatLen → Quiet u → u.streams = [] →
      ∃ v, exec (.repeatBoundary t) s = .next v ∧ v.lt.repeatCount = u.lt.repeatCount + 1 ∧
        v.lt.lastBoundary = some u.lt.boundary ∧ v.lt.boundary = u.lt.boundary + 256 * u.lt.repeatLen ∧
        v.lt.pos = u.lt.pos ∧ Emit.event 163 ∈ v.emitted) ∧
    (lxNow u < u.lt.boundary → exec (.repeatBoundary t) s = .next (settle u))

/-- INSTANT_COMMIT, CALENDAR_LX_FIRING, CALENDAR_TS_FIRING, DEFERRED_FIRING, PULSE_END. With u the state at the event's
instant: an LX-timed occurrence whose interpolated instant lies at most 200 ns ahead is committed with that instant,
its target and the entry's content; other entries stay; one further ahead is left. A committed occurrence whose instant
has come leaves its entry: ungated, with nothing deferred before it, its action takes place (a STROBE SET makes its
output active); with SKIP, locked mains and the gate closed it is dropped, and LT_CAL_SKIP counts; while behind it
becomes the entry's next one again, where the content is unchanged and the target above the high-water mark. An ungated
occurrence with CLOCK TS fires at its point likewise. The deferred occurrences whose instant has come leave the list:
a single one's action takes place; a falling TRIGGER goes to a device that is up. The trailing edge of a pulse makes its
output inactive, unless a higher entry drove it in that LT cycle. (R95, R103, R125, R129, R131, R132, R138, R139, R161,
02_line_time.md) -/
def Obligations.CalendarFires : Prop :=
  ∀ (n : Fin 2048) (t : Nat) (s u : State), timeTo t s = u →
    (∀ g i : Nat, (calOf u n).nextLx = some g → (calOf u n).committed = none → u.lt.behind = false →
      lxTimed u (calOf u n).f = true → instantOf u g = some i →
      (i ≤ u.ts + 200 → ∃ v, exec (.instantCommit n t) s = .next v ∧
        (calOf v n).committed = some ⟨i, g, (calOf u n).f, 0⟩ ∧ (∀ m, m ≠ n.val → calOf v m = calOf u m) ∧
        v.lt = u.lt ∧ v.mem = u.mem ∧ v.strobes = u.strobes ∧ v.regs = u.regs) ∧
      (u.ts + 200 < i → exec (.instantCommit n t) s = .next (settle u))) ∧
    (∀ o : Occurrence, (calOf u n).committed = some o → o.instant ≤ t →
      (u.lt.behind = false → o.fields.gate = .none → (calOf u n).deferred = [] →
        exec (.calendarLxFiring n t) s = .next (settle (calAction n o.target o.instant o.fields.action
          (calPut n { calOf u n with committed := none } u))) ∧
        ∀ out : Nat, o.fields.action = .strobe out .set →
          ((tabGet {} u.strobes out).lastOp.1 = o.instant / 2 → (tabGet {} u.strobes out).lastOp.2 ≤ n) →
          ∃ v, exec (.calendarLxFiring n t) s = .next v ∧ (calOf v n).committed = none ∧
            (tabGet {} v.strobes out).active = true ∧ (∀ m, m ≠ out → tabGet {} v.strobes m = tabGet {} u.strobes m) ∧
            ((tabGet {} u.strobes out).active = false → Emit.strobe out true o.instant ∈ v.emitted) ∧
            v.lt = u.lt ∧ v.mem = u.mem ∧ v.regs = u.regs) ∧
      (u.lt.behind = false → o.fields.gate = .skip → u.lt.mLock = true →
        inGate o.fields.gateStart o.fields.gateEnd (mainsPhase u.lt o.instant) = false →
        ∃ v, exec (.calendarLxFiring n t) s = .next v ∧ (calOf v n).committed = none ∧ Counted 0x30A0 u v ∧
          v.strobes = u.strobes ∧ v.lt = u.lt ∧ v.mem = u.mem ∧ v.streams = u.streams) ∧
      (u.lt.behind = true → (calOf u n).f = o.fields → u.lt.hwm < o.target →
        ∃ v, exec (.calendarLxFiring n t) s = .next v ∧ (calOf v n).committed = none ∧ (calOf v n).nextLx = some o.target ∧
          v.strobes = u.strobes ∧ v.lt = u.lt ∧ v.mem = u.mem ∧ v.regs = u.regs)) ∧
    ((calOf u n).tsOn = true → (calOf u n).f.mode ≠ .off → (calOf u n).f.clock = .ts → (calOf u n).f.gate = .none →
      (calOf u n).deferred = [] →
      ∀ i : Nat, (calOf u n).tsPast.getD (tsPoint u (calOf u n) (calOf u n).tsIdx) = i →
        (t < i → exec (.calendarTsFiring n t) s = .next (settle u)) ∧
        (i ≤ t → ∀ out : Nat, (calOf u n).f.action = .strobe out .set →
          ((tabGet {} u.strobes out).lastOp.1 = i / 2 → (tabGet {} u.strobes out).lastOp.2 ≤ n) →
          ∃ v, exec (.calendarTsFiring n t) s = .next v ∧ (calOf v n).tsIdx = (calOf u n).tsIdx + 1 ∧
            (tabGet {} v.strobes out).active = true ∧ (∀ m, m ≠ out → tabGet {} v.strobes m = tabGet {} u.strobes m) ∧
            ((tabGet {} u.strobes out).active = false → Emit.strobe out true i ∈ v.emitted) ∧
            v.lt = u.lt ∧ v.mem = u.mem ∧ v.regs = u.regs)) ∧
    (∀ o : Occurrence, (calOf u n).deferred = [o] →
      (t < o.instant → ∃ v, exec (.deferredFiring n t) s = .next v ∧ calOf v n = calOf u n ∧ v.strobes = u.strobes ∧
        v.lt = u.lt ∧ v.regs = u.regs ∧ v.mem = u.mem) ∧
      (o.instant ≤ t →
        exec (.deferredFiring n t) s = .next (settle (calAction n o.target o.instant o.fields.action
          (calPut n { calOf u n with deferred := [] } u))) ∧
        ∀ port conn : Nat, o.fields.action = .trigger port conn false → devUp (portOf u port) conn = true →
          ∃ v, exec (.deferredFiring n t) s = .next v ∧ (calOf v n).deferred = [] ∧
            Emit.trigger port conn false o.instant n ∈ v.emitted ∧ v.strobes = u.strobes ∧ v.lt = u.lt ∧ v.mem = u.mem ∧
            ((portOf u port).ctrl = none → v.regs = u.regs))) ∧
    ∀ (out : Fin 16) (e i : Nat), (tabGet {} u.strobes out).ends = [(e, i)] → i ≤ t →
      ((tabGet {} u.strobes out).lastOp.1 = i / 2 → (tabGet {} u.strobes out).lastOp.2 ≤ e) →
      ∃ v, exec (.pulseEnd out t) s = .next v ∧ (tabGet {} v.strobes out).active = false ∧
        (tabGet {} v.strobes out).ends = [] ∧ (∀ m, m ≠ out.val → tabGet {} v.strobes m = tabGet {} u.strobes m) ∧
        v.lt = u.lt ∧ v.mem = u.mem ∧ v.regs = u.regs ∧ v.cal = u.cal

/-- MAINS_EDGE and MAINS_DISTURBED_CYCLE. With u the state at the event's instant: a level that does not hold MAINS_FILT
microseconds changes nothing. A held edge of the kind that marks phase 0 (falling in mode falling, else rising),
locked and within MAINS_WIN percent of a period of the expected instant, realigns the phase there and ends holdover;
outside it only the level changes. While acquiring, the eighth edge or a later one of a run, whose interval is from 45
Hz to 65 Hz and agrees with those before it within 2 percent, locks the tracker. The other edge only changes the
level, but in mode both, locked and near half a period past phase 0, realigns the phase. A locked tracker whose window
has passed without an accepted edge counts a disturbed cycle, and after the fifth loses lock and raises its event.
Calendar, LX and memory stay. (R113, R115, R116, R117, R118, R119, R121, 02_line_time.md) -/
def Obligations.MainsTrackerFollowsItsEdges : Prop :=
  ∀ (t : Nat) (s u : State), timeTo t s = u →
    (∀ (held : Nat) (level : Bool),
      (held < 1000 * u.lt.mainsFilt → exec (.mainsEdge level ⟨t, held⟩) s = .next (settle u)) ∧
      (1000 * u.lt.mainsFilt ≤ held → u.lt.mLevel = !level →
        ((u.lt.mainsEdge = .falling ∧ level = false ∨ (u.lt.mainsEdge = .rising ∨ u.lt.mainsEdge = .both) ∧ level = true) →
          (u.lt.mLock = true →
            (mainsNear u.lt t (u.lt.mRef + (u.lt.mHold + 1) * u.lt.mPeriod) = true →
              ∃ v, exec (.mainsEdge level ⟨t, held⟩) s = .next v ∧ v.lt.mRef = t ∧ v.lt.mHold = 0 ∧ v.lt.mLock = true ∧
                v.lt.mLevel = level ∧ v.lt.pos = u.lt.pos ∧ v.cal = u.cal ∧ v.mem = u.mem ∧ v.regs = u.regs) ∧
            (mainsNear u.lt t (u.lt.mRef + (u.lt.mHold + 1) * u.lt.mPeriod) = false →
              exec (.mainsEdge level ⟨t, held⟩) s = .next (settle (ltMod (fun l => { l with mLevel := level }) u)))) ∧
          ∀ e : Nat, u.lt.mLock = false → u.lt.mLast = some e → 7 ≤ u.lt.mRun → 1000000000 ≤ 65 * (t - e) →
            45 * (t - e) ≤ 1000000000 → mainsAgree (((t - e) :: u.lt.mPeriods).take 7) = true →
            ∃ v, exec (.mainsEdge level ⟨t, held⟩) s = .next v ∧ v.lt.mLock = true ∧ v.lt.mRef = t ∧ v.lt.pos = u.lt.pos ∧
              v.cal = u.cal ∧ v.mem = u.mem ∧ v.regs = u.regs) ∧
        (u.lt.mainsEdge = .off ∨ u.lt.mainsEdge = .falling ∧ level = true ∨ u.lt.mainsEdge = .rising ∧ level = false →
          exec (.mainsEdge level ⟨t, held⟩) s = .next (settle (ltMod (fun l => { l with mLevel := level }) u))) ∧
        (u.lt.mainsEdge = .both → level = false → u.lt.mLock = true →
          mainsNear u.lt t (u.lt.mRef + u.lt.mHold * u.lt.mPeriod + u.lt.mPeriod / 2) = true →
          ∃ v, exec (.mainsEdge level ⟨t, held⟩) s = .next v ∧ v.lt.mRef = t - u.lt.mPeriod / 2 ∧ v.lt.mHold = 0 ∧
            v.lt.mLock = true ∧ v.lt.pos = u.lt.pos ∧ v.cal = u.cal ∧ v.mem = u.mem ∧ v.regs = u.regs))) ∧
    (u.lt.mLock = true →
      (100 * (t - (u.lt.mRef + (u.lt.mHold + 1) * u.lt.mPeriod)) ≤ u.lt.mainsWin * u.lt.mPeriod →
        exec (.mainsDisturbedCycle t) s = .next (settle u)) ∧
      (u.lt.mainsWin * u.lt.mPeriod < 100 * (t - (u.lt.mRef + (u.lt.mHold + 1) * u.lt.mPeriod)) → u.lt.mFall = false →
        (u.lt.mHold ≠ 4 → ∃ v, exec (.mainsDisturbedCycle t) s = .next v ∧ v.lt = { u.lt with mHold := u.lt.mHold + 1 } ∧
          v.cal = u.cal ∧ v.mem = u.mem ∧ (u.lt.mHold = 0 → bitAt (regGet v 0x3034).toNat 16 = true)) ∧
        (u.lt.mHold = 4 → ∃ v, exec (.mainsDisturbedCycle t) s = .next v ∧ v.lt.mLock = false ∧
          bitAt (regGet v 0x3034).toNat 17 = true ∧ v.cal = u.cal ∧ v.mem = u.mem ∧ v.lt.pos = u.lt.pos)))

/-- DISCOVERY_DONE, CONNECTION_LOST, RECONNECT_ATTEMPT. With u the state at the event's instant. Discovery whose answers on
enabled connections, one a connection, hold one of the master sets the link UP and pulses EV_24+n: the camera is
configured with n connections, the fewer of its count and the answers, and the port's speed; an answering connection is
up when its device ID is below n (log entry 29). Without the master's answer the port goes DOWN. The loss of a
connection that is up marks it lost since now and raises its event: a configured slave's makes an UP link DEGRADED, the
master's, with no tile-op, no stream group and no stream receiving, makes it DOWN. After 100 ms a lost connection of an
enabled port with AUTO_RECONNECT is tried again: without an answer the time starts anew; a slave's answer brings it up
and completes a DEGRADED link whose connections are all up, the master's, or any where no master is known, begins
discovery; earlier nothing changes. Other ports and streams stay. (R149, R150, R151, R152, R153, R154, R155, R156,
03_sensor_ports.md) -/
def Obligations.PortLinksFollowTheirEvents : Prop :=
  ∀ (port : Fin 6) (t : Nat) (s u : State), timeTo t s = u →
    (∀ (answers : List CxpAnswer) (m : CxpAnswer), (portOf u port).link = .discovery → m ∈ answers → m.devId = 0 →
      (∀ a ∈ answers, bitAt (portOf u port).connEn a.conn = true ∧ (a.devId = 0 → a = m)) → (answers.map (·.conn)).Nodup →
      ∃ v, exec (.discoveryDone port answers t) s = .next v ∧ (portOf v port).link = .up ∧
        (portOf v port).speed = min m.speed (portOf u port).maxSpeed ∧
        (∀ a ∈ answers, tabGet {} (portOf v port).conns a.conn =
          { up := decide (a.devId.val < min m.count answers.length), master := a.devId == 0, devId := a.devId.val,
            used := decide (a.devId.val < min m.count answers.length) }) ∧
        Emit.cxpConfig port (min m.count answers.length) (min m.speed (portOf u port).maxSpeed) ∈ v.emitted ∧
        Emit.event (24 + port) ∈ v.emitted ∧
        (∀ q, q ≠ port.val → portOf v q = portOf u q) ∧ v.streams = u.streams ∧ v.mem = u.mem) ∧
    (∀ answers : List CxpAnswer, (portOf u port).link = .discovery →
      (∀ a ∈ answers, bitAt (portOf u port).connEn a.conn = true → a.devId ≠ 0) →
      ∃ v, exec (.discoveryDone port answers t) s = .next v ∧ (portOf v port).link = .down ∧
        (portOf v port).speed = 0 ∧ (∀ q, q ≠ port.val → portOf v q = portOf u q) ∧ v.streams = u.streams ∧ v.mem = u.mem) ∧
    ∀ conn : Fin 4,
      ((tabGet {} (portOf u port).conns conn).up = true →
        ((tabGet {} (portOf u port).conns conn).master = false →
          ∃ v, exec (.connectionLost port conn t) s = .next v ∧
            (portOf v port).link = (if (tabGet {} (portOf u port).conns conn).used ∧ (portOf u port).link = .up then .degraded
              else (portOf u port).link) ∧
            (tabGet {} (portOf v port).conns conn).up = false ∧
            (tabGet {} (portOf v port).conns conn).lostAt = some u.ts ∧
            bitAt (regGet v (0xA008 + 0x400 * port)).toNat conn = true ∧
            (∀ q, q ≠ port.val → portOf v q = portOf u q) ∧ v.streams = u.streams ∧ v.mem = u.mem) ∧
        ((tabGet {} (portOf u port).conns conn).master = true → Quiet u →
          (∀ j, j < 4 → streamTakes (streamOf u (4 * port + j)) = false) →
          ∃ v, exec (.connectionLost port conn t) s = .next v ∧ (portOf v port).link = .down ∧
            (tabGet {} (portOf v port).conns conn).lostAt = some u.ts ∧
            bitAt (regGet v (0xA008 + 0x400 * port)).toNat conn = true ∧
            (∀ q, q ≠ port.val → portOf v q = portOf u q) ∧ v.streams = u.streams ∧ v.mem = u.mem)) ∧
      ∀ w : Nat, (tabGet {} (portOf u port).conns conn).lostAt = some w → (portOf u port).autoReconnect = true →
        (portOf u port).en = true →
        (u.ts < w + 100000000 → ∀ b, exec (.reconnectAttempt port conn b t) s = .next (settle u)) ∧
        (w + 100000000 ≤ u.ts →
          (∃ v, exec (.reconnectAttempt port conn false t) s = .next v ∧
            (tabGet {} (portOf v port).conns conn).lostAt = some u.ts ∧ (portOf v port).link = (portOf u port).link ∧
            (∀ q, q ≠ port.val → portOf v q = portOf u q) ∧ v.streams = u.streams ∧ v.regs = u.regs) ∧
          ((tabGet {} (portOf u port).conns conn).master = true ∨ (∀ e ∈ (portOf u port).conns, e.2.master = false) →
            ∃ v, exec (.reconnectAttempt port conn true t) s = .next v ∧ (portOf v port).link = .discovery ∧
              (∀ q, q ≠ port.val → portOf v q = portOf u q) ∧ v.streams = u.streams ∧ v.mem = u.mem) ∧
          ((tabGet {} (portOf u port).conns conn).master = false → (∃ e ∈ (portOf u port).conns, e.2.master = true) →
            ∃ v, exec (.reconnectAttempt port conn true t) s = .next v ∧
              (tabGet {} (portOf v port).conns conn).up = true ∧ (tabGet {} (portOf v port).conns conn).lostAt = none ∧
              (portOf v port).link = (if (portOf u port).link = .degraded ∧ connsUp (portOf v port) then .up
                else (portOf u port).link) ∧
              (∀ q, q ≠ port.val → portOf v q = portOf u q) ∧ v.streams = u.streams ∧ v.mem = u.mem))

/-- CONTROL_ACKNOWLEDGE, CTRL_TIMEOUT, CAMERA_EVENT_PACKET, COLUMN_TABLE_SWITCH. The acknowledge of the outstanding control
transaction of a port ends it and finishes its command with OK: a write with the acknowledge word, a read with the word
and its first 16 data bytes, its data also written where a buffer is named. When CTRL_TIMEOUT ms have passed since a
control packet left, the transaction ends, its command finishes with FAULT and bit 6 of the port's event register is
set; before that nothing changes. A camera event packet of a port that is UP is acknowledged and posts a CAMERA_EVENT
notice; a full queue drops it, sets OVERFLOW and counts. With no line of the port in reception, a pending column table
becomes the active bank once its boundaries have come, or, with no trigger queued, LX has reached its position; otherwise
nothing changes. (R158, R159, R160, R183, R706, R707, R709, 03_sensor_ports.md, 12_supervisor_mailboxes.md) -/
def Obligations.CameraControlAndColumnTables : Prop :=
  ∀ (port : Fin 6) (s : State),
    (∀ (c : CtrlTxn) (l : LongCmd) (ack : Word) (data : List Byte), (portOf s port).ctrl = some c →
      tabGet? s.sup.longs c.cmd = some l →
      (l.opcode ≠ 0x0205 → ∃ v, exec (.controlAcknowledge port ack data) s = .next v ∧
        (portOf v port).ctrl = none ∧ Finished c.cmd 0 0 (leBytes 4 ack.toNat) v ∧ v.mem = s.mem ∧ v.regs = s.regs ∧
        v.streams = s.streams ∧ ∀ q, q ≠ port.val → portOf v q = portOf s q) ∧
      (l.opcode = 0x0205 →
        (leAt l.payload 8 2 = 0 → ∃ v, exec (.controlAcknowledge port ack data) s = .next v ∧
          (portOf v port).ctrl = none ∧ Finished c.cmd 0 0 (leBytes 4 ack.toNat ++ padTo 16 (data.take 16)) v ∧
          v.mem = s.mem ∧ v.regs = s.regs ∧ v.streams = s.streams ∧ ∀ q, q ≠ port.val → portOf v q = portOf s q) ∧
        (leAt l.payload 8 2 ≠ 0 → exec (.controlAcknowledge port ack data) s =
          .next (settle (longDoneAt c.cmd 0 0 (leBytes 4 ack.toNat ++ padTo 16 (data.take 16))
            (supWrite ((handleOf s (leAt l.payload 8 2 % 256)).base + leAt l.payload 12 4) (data.take (leAt l.payload 2 2))
              (portMod port (fun p => { p with ctrl := none }) s)).1))))) ∧
    (∀ (c : CtrlTxn) (l : LongCmd) (t : Nat) (u : State), timeTo t s = u → (portOf u port).ctrl = some c →
      tabGet? u.sup.longs c.cmd = some l →
      (c.sent + 1000000 * (portOf u port).ctrlTimeout ≤ u.ts → ∃ v, exec (.ctrlTimeout port t) s = .next v ∧
        (portOf v port).ctrl = none ∧ Finished c.cmd 0x40 0 [] v ∧ bitAt (regGet v (0xA008 + 0x400 * port)).toNat 6 = true ∧
        v.mem = u.mem ∧ v.streams = u.streams ∧ ∀ q, q ≠ port.val → portOf v q = portOf u q) ∧
      (u.ts < c.sent + 1000000 * (portOf u port).ctrlTimeout → exec (.ctrlTimeout port t) s = .next (settle u))) ∧
    (∀ data : List Byte, portUp (portOf s port) = true →
      (noticeOcc s < 128 → exec (.cameraEventPacket port data) s =
          .next (settle (notice 2 port (b2n (decide (24 < data.length))) 0 (data.take 24) (emit (.eventAck port) s))) ∧
        ∃ v, exec (.cameraEventPacket port data) s = .next v ∧ Emit.eventAck port ∈ v.emitted ∧
          regGet v 0x2204 = w32 (((regGet s 0x2204).toNat + 1) % 256) ∧ bitAt (regGet v 0x220C).toNat 0 = true ∧
          v.ports = s.ports) ∧
      (128 ≤ noticeOcc s → ∃ v, exec (.cameraEventPacket port data) s = .next v ∧ Emit.eventAck port ∈ v.emitted ∧
        bitAt (regGet v 0x220C).toNat 1 = true ∧ Counted 0x2210 s v ∧ v.mem = s.mem ∧ v.ports = s.ports)) ∧
    ((∃ j, j < 4 ∧ (streamOf s (4 * port + j)).rx ≠ none) → exec (.columnTableSwitch port) s = .next (settle s)) ∧
    ((∀ j, j < 4 → (streamOf s (4 * port + j)).rx = none) →
      ((portOf s port).pendSwitch = some (.repeatBoundary 0) ∨
        (∃ x, (portOf s port).pendSwitch = some (.position x) ∧ x ≤ lxNow s ∧
          ∀ j, j < 4 → (streamOf s (4 * port + j)).trigQ = []) →
        ∃ v, exec (.columnTableSwitch port) s = .next v ∧
          (portOf v port).bank = 1 - (portOf s port).bank ∧ (portOf v port).pendSwitch = none ∧ v.cols = s.cols ∧
          v.streams = s.streams ∧ v.mem = s.mem ∧ v.regs = s.regs ∧ ∀ q, q ≠ port.val → portOf v q = portOf s q) ∧
      ((portOf s port).pendSwitch = none ∨ (∃ n, (portOf s port).pendSwitch = some (.repeatBoundary (n + 1))) ∨
        (∃ x, (portOf s port).pendSwitch = some (.position x) ∧ lxNow s < x) →
        exec (.columnTableSwitch port) s = .next (settle s)))

/-- STREAM_PACKET, FIFO_LINE_WRITE, STREAM_DRAINED, TRIGGER_ENTRY_TIMEOUT. With no tile-op, no stream group and no core
about to leave, u the state at the event's instant. A packet with a wrong CRC, or above 16 KiB, counts, raises bit 5 of
the port's event, and changes no stream that has not its ID, and none where it continues a line (log entry 27). A good
one with no stream's ID counts. A first one opens a line stamped, under STAMP ARRIVAL, with LX; one that goes on adds
its bytes; the last of a whole line within a repeat (no area frame, no slot, an empty queue) records it: OK, counted,
corrected, queued. A queued line of a stream with an open stripe that has room and a unit (no arrival counter bound)
goes to the stripe with its descriptor. A draining stream with an empty queue becomes STOPPED. A trigger entry whose time
has run out becomes a missing line: of a running stream with no ring, no repeat begun and an empty queue LOST, zeros,
queued, counted; while a line is received it waits. Before its time nothing changes. (R145, R147, R148, R187, R190,
R193, R194, R203, R204, R211, 03_sensor_ports.md) -/
def Obligations.IngestRowsRecordLines : Prop :=
  ∀ (t : Nat) (s u : State), timeTo t s = u → Quiet u →
    (∀ (port : Fin 6) (conn : Fin 4) (pkt : StreamPkt), portUp (portOf u port) = true →
      (tabGet {} (portOf u port).conns conn).up = true →
      ((∀ j, j < 4 → streamTakes (streamOf u (4 * port + j)) = true → (streamOf u (4 * port + j)).cxpId ≠ pkt.id) →
        (pkt.crcOk = false ∨ 16384 < pkt.payload.length →
          ∃ v, exec (.streamPacket port conn pkt t) s = .next v ∧ Counted (0xA010 + 0x400 * port) u v ∧
            bitAt (regGet v (0xA008 + 0x400 * port)).toNat 5 = true ∧ v.streams = u.streams ∧ v.mem = u.mem ∧
            v.ports = u.ports) ∧
        (pkt.crcOk = true → pkt.payload.length ≤ 16384 →
          ∃ v, exec (.streamPacket port conn pkt t) s = .next v ∧ Counted (0xA014 + 0x400 * port) u v ∧
            v.streams = u.streams ∧ v.mem = u.mem ∧ v.ports = u.ports)) ∧
      ∀ k : Nat, 4 * port.val ≤ k → k < 4 * port.val + 4 → streamTakes (streamOf u k) = true → (streamOf u k).cxpId = pkt.id →
        (∀ j, 4 * port.val ≤ j → j < k → streamTakes (streamOf u j) = true → (streamOf u j).cxpId ≠ pkt.id) →
        (∀ x : RxLine, (streamOf u k).rx = some x → newLine pkt x = false →
          (pkt.crcOk = false ∨ 16384 < pkt.payload.length → pkt.ends = false →
            ∃ v, exec (.streamPacket port conn pkt t) s = .next v ∧ Counted (0xA010 + 0x400 * port) u v ∧
              bitAt (regGet v (0xA008 + 0x400 * port)).toNat 5 = true ∧ (∀ j, streamOf v j = streamOf u j) ∧ v.mem = u.mem ∧
              v.ports = u.ports) ∧
          (pkt.crcOk = true → pkt.payload.length ≤ 16384 → x.head.drop = .keep →
            (pkt.ends = false → ∃ v, exec (.streamPacket port conn pkt t) s = .next v ∧
              streamOf v k = { streamOf u k with rx := some { x with bytes := addBytes pkt.first pkt.payload x.bytes } } ∧
              (∀ j, j ≠ k → streamOf v j = streamOf u j) ∧ v.mem = u.mem ∧ v.regs = u.regs ∧ v.ports = u.ports) ∧
            (pkt.ends = true → lostColumns (streamOf u k) (addBytes pkt.first pkt.payload x.bytes) = [] →
              (streamOf u k).areaLines = 0 → (streamOf u k).frame = none → (streamOf u k).missed = [] →
              (streamOf u k).ring = none → (streamOf u k).open_ = none → (streamOf u k).fifo = [] →
              (streamOf u k).rowRep = some x.head.rep → repAfter u.lt.repeatCount.toNat x.head.rep = false →
              (streamOf u k).state = .running →
              ∃ v, exec (.streamPacket port conn pkt t) s = .next v ∧ (streamOf v k).rx = none ∧
                (streamOf v k).row = (streamOf u k).row + 1 ∧ (streamOf v k).recorded = (streamOf u k).recorded + 1 ∧
                (streamOf v k).fifo = [.line ⟨x.head, 0, (streamOf u k).row, (streamOf u k).opensNext, true,
                  (streamOf u k).dropped, false, [], some 0⟩] ∧
                (streamOf v k).prev = lineData u k x.head.bank (addBytes pkt.first pkt.payload x.bytes) ∧
                (regGet v (strBase k + 8)).toNat + 2 ^ 32 * (regGet v (strBase k + 12)).toNat =
                  ((regGet u (strBase k + 8)).toNat + 2 ^ 32 * (regGet u (strBase k + 12)).toNat + 1) % 2 ^ 64 ∧
                (∀ j, j ≠ k → streamOf v j = streamOf u j) ∧ v.ports = u.ports))) ∧
        ((streamOf u k).rx = none → (streamOf u k).frame = none → (streamOf u k).areaLines = 0 →
          (streamOf u k).stampTrigger = false → (streamOf u k).state = .running → (portOf u port).pendSwitch = none →
          port.val = k / 4 → pkt.crcOk = true → pkt.payload.length ≤ 16384 → pkt.ends = false → u.lt.behind = false →
          ∃ v, exec (.streamPacket port conn pkt t) s = .next v ∧ (streamOf v k).rx = some ⟨⟨lxNow u, u.ts,
              decide (0 < u.lt.suspect), false, (portOf u port).bank, repOf u (lxNow u), .keep⟩,
              addBytes pkt.first pkt.payload []⟩ ∧ (streamOf v k).fifo = (streamOf u k).fifo ∧
            (∀ j, j ≠ k → streamOf v j = streamOf u j) ∧ v.mem = u.mem ∧ v.regs = u.regs ∧ v.ports = u.ports)) ∧
    (∀ (k : Fin 24) (l : Line) (o : Stripe), Quiet s → s.arrivals = [] → (streamOf s k).fifo = [.line l] →
      (streamOf s k).open_ = some o → l.opens = false → o.rows < (streamOf s k).stripeH →
      (l.more = false ∨ o.rows + 1 < (streamOf s k).stripeH) → bwReady s 0 = true →
      ∃ v, exec (.fifoLineWrite k) s = .next v ∧ (streamOf v k).fifo = [] ∧
        (∃ o', (streamOf v k).open_ = some o' ∧ o'.rows = o.rows + 1 ∧ o'.descs = o.descs ++ lineDesc l ∧
          o'.counter = o.counter ∧ o'.stamp1 = l.head.stamp) ∧
        (∀ j, j ≠ k.val → streamOf v j = streamOf s j) ∧ v.rings = s.rings ∧ v.ports = s.ports) ∧
    (∀ k : Fin 24, (streamOf s k).state = .draining → (streamOf s k).fifo = [] →
      ∃ v, exec (.streamDrained k) s = .next v ∧ (streamOf v k).state = .stopped ∧ (streamOf v k).fifoIdx = none ∧
        (streamOf v k).prev = [] ∧ (∀ j, j ≠ k.val → streamOf v j = streamOf s j) ∧ v.mem = s.mem ∧ v.rings = s.rings ∧
        v.regs = s.regs) ∧
    ∀ (k : Fin 24) (e : TrigEntry) (q : List TrigEntry), (streamOf u k).trigQ = e :: q →
      (u.ts < e.ts + 1000 * (streamOf u k).lineTimeout → exec (.triggerEntryTimeout k t) s = .next (settle u)) ∧
      (e.ts + 1000 * (streamOf u k).lineTimeout ≤ u.ts → (streamOf u k).state = .running →
        ((streamOf u k).rx ≠ none → ∃ v, exec (.triggerEntryTimeout k t) s = .next v ∧ (streamOf v k).trigQ = q ∧
          (streamOf v k).late = (streamOf u k).late + 1 ∧ (streamOf v k).missed = (streamOf u k).missed ++ [e]) ∧
        (e.behind = false → (streamOf u k).rx = none → (streamOf u k).frame = none → (streamOf u k).missed = [] →
          (streamOf u k).ring = none → (streamOf u k).open_ = none → (streamOf u k).fifo = [] → (streamOf u k).rowRep = none →
          (streamOf u k).areaLines = 0 → repAfter u.lt.repeatCount.toNat e.rep = false →
          ∃ v, exec (.triggerEntryTimeout k t) s = .next v ∧ (streamOf v k).trigQ = q ∧
            (streamOf v k).late = (streamOf u k).late + 1 ∧ Counted (strBase k + 0x10) u v ∧
            (streamOf v k).fifo = [.line ⟨⟨e.target, e.ts, e.suspect, false, (portOf u (k.val / 4)).bank, e.rep, .keep⟩, 1, 0,
              true, false, false, false, zeroLine (streamOf u k), none⟩] ∧ v.mem = u.mem ∧ v.rings = u.rings))

/-- NOP, SEM_WAIT, SEM_SIGNAL, BARRIER, FENCE and EPOCH_CONFIRM tile-ops. A tile-op is ready when it may issue and names no
ring, the scheduler is calm, and classes FETCH and STORE have a unit. A ready one without WAIT_SEM issues with these
effects. NOP: nothing else; with WAIT_SEM, on a core without cached lines, it takes the units if they are there, else
joins the queue and stays. SEM_WAIT on such a core does the same after its issue. SEM_SIGNAL on such a core adds its
units, at most 65,535, to a semaphore nobody waits on; with SIG_SEM none it adds nothing. FENCE.R drops the core's clean
lines that are neither keep nor reduction lines. FENCE.W writes back a dirty line whose access passes; a core without
dirty or reduction lines changes nothing. FENCE.SC is FENCE.W then FENCE.R, here on such a core. BARRIER on a core
without cached lines is recorded before the last arrival; the last one, with no tile cache in use, completes all.
EPOCH_CONFIRM of an OPEN epoch of a model without rings confirms it and counts; of a CANCELLED one sets bit 2 of the
event register. (R250, R509, R510, R512, R524, R525, R532, R544, R582, R584, 08_tile_ops.md, 09_caches_ordering.md) -/
def Obligations.ControlTileOpsHaveTheirEffect : Prop :=
  ∀ (s : State) (id : Nat) (c : OpCtx),
    (Ready 0x00 s id c → opWaitSem c.o.w0 = 0xFFF → exec (.nopTileOp id) s = .next (settle (issuedOp s id c true))) ∧
    (∀ sem : Bool, Ready (if sem then 0x41 else 0x00) s id c → opWaitSem c.o.w0 ≠ 0xFFF → c.o.waitQueued = false →
      (sem = false → c.o.waitServed = false) → NoLines s c.o.core →
      (semCan s (imgSem c.md (opWaitSem c.o.w0)) (opWaitN c.o.w0) = true →
        ∃ v, exec (if sem then .semWait id else .nopTileOp id) s = .next v ∧
          (∃ o, tabGet? v.ops id = some o ∧ o.issued = true ∧ o.waitServed = true) ∧ SameStores s v ∧
          (semOf v (imgSem c.md (opWaitSem c.o.w0))).value =
            (semOf s (imgSem c.md (opWaitSem c.o.w0))).value - opWaitN c.o.w0) ∧
      (semCan s (imgSem c.md (opWaitSem c.o.w0)) (opWaitN c.o.w0) = false →
        ∃ v, exec (if sem then .semWait id else .nopTileOp id) s = .next v ∧
          (∃ o, tabGet? v.ops id = some o ∧ o.issued = sem ∧ o.waitServed = false) ∧ SameStores s v ∧
          (semOf v (imgSem c.md (opWaitSem c.o.w0))).queue =
            (semOf s (imgSem c.md (opWaitSem c.o.w0))).queue ++ [⟨.op id, c.x.cs, opWaitN c.o.w0⟩])) ∧
    (Ready 0x42 s id c → opWaitSem c.o.w0 = 0xFFF →
      (opSigSem c.o.w0 = 0xFFF → exec (.semSignal id) s = .next (settle (issuedOp s id c true))) ∧
      (opSigSem c.o.w0 ≠ 0xFFF → NoLines s c.o.core → (semOf s (imgSem c.md (opSigSem c.o.w0))).queue = [] →
        ∃ v, exec (.semSignal id) s = .next v ∧ SameStores s v ∧ (∃ o, tabGet? v.ops id = some o ∧ o.issued = true) ∧
          (semOf v (imgSem c.md (opSigSem c.o.w0))).value =
            min ((semOf s (imgSem c.md (opSigSem c.o.w0))).value + opWaitN c.o.w0) 65535)) ∧
    (Ready 0x43 s id c → opWaitSem c.o.w0 = 0xFFF → (s.tcache.map (·.1)).Nodup →
      (opParam c.o.w1 = 0 → ∃ v, exec (.fenceR id) s = .next v ∧ SameStores s v ∧
        v.tcache = s.tcache.filter fun e =>
          !(decide (tcCore e.1 = c.o.core) && e.2.hint != .keep && e.2.dirty.isEmpty && e.2.red.isNone)) ∧
      (opParam c.o.w1 = 1 → (∀ e ∈ s.tcache, tcCore e.1 = c.o.core → e.2.dirty = [] ∧ e.2.red = none ∧ e.2.ecc = []) →
        exec (.fenceW id) s = .next (settle (issuedOp s id c true))) ∧
      (opParam c.o.w1 = 1 → ∀ (n : Nat) (l : TcLine), n < 2 ^ 24 → s.tcache = [(tcKey c.o.core n, l)] → l.red = none →
        l.filled = true → l.ecc = [] → l.dirty ≠ [] → (∀ e ∈ l.dirty, e.1 < 64) → tabSortedFrom 0 l.dirty = true →
        s.arrivals = [] → Passes s (wbReq s c.o.core n (overlay l.data l.dirty)) →
        ∃ v, exec (.fenceW id) s = .next v ∧
          v.tcache = [(tcKey c.o.core n, { l with dirty := [], data := overlay l.data l.dirty })] ∧
          (∀ i, i < 64 → memByte v (64 * n + i) = (tabGet? l.dirty i).getD (memByte s (64 * n + i))) ∧
          (∀ a, a < 64 * n ∨ 64 * n + 64 ≤ a → memByte v a = memByte s a) ∧ v.near = s.near ∧ v.rings = s.rings) ∧
      (opParam c.o.w1 = 2 → (∀ e ∈ s.tcache, tcCore e.1 = c.o.core → e.2.dirty = [] ∧ e.2.red = none ∧ e.2.ecc = []) →
        ∃ v, exec (.fenceSc id) s = .next v ∧ SameStores s v ∧
          v.tcache = s.tcache.filter fun e => !(decide (tcCore e.1 = c.o.core) && e.2.hint != .keep))) ∧
    (Ready 0x40 s id c → opWaitSem c.o.w0 = 0xFFF → NoLines s c.o.core →
      ((tabGet [] c.t.arrivals (barrierKey c)).length + 1 ≠ (barrierMembers s c).length → ∃ v, exec (.barrier id) s = .next v ∧
        SameStores s v ∧ (∃ o, tabGet? v.ops id = some o ∧ o.issued = true ∧ o.ready = false) ∧
        (taskOf v c.o.group).map (fun q => tabGet [] q.2.arrivals (barrierKey c)) =
          some (tabGet [] c.t.arrivals (barrierKey c) ++ [id])) ∧
      ((tabGet [] c.t.arrivals (barrierKey c)).length + 1 = (barrierMembers s c).length → s.tcache = [] →
        (∀ i ∈ tabGet [] c.t.arrivals (barrierKey c), (tabGet? s.ops i).isSome = true) →
        ∃ v, exec (.barrier id) s = .next v ∧ SameStores s v ∧
          (∀ i ∈ tabGet [] c.t.arrivals (barrierKey c) ++ [id], (tabGet? v.ops i).map (·.ready) = some true) ∧
          (taskOf v c.o.group).map (fun q => tabGet [] q.2.arrivals (barrierKey c)) = some [])) ∧
    (Ready 0x44 s id c → opWaitSem c.o.w0 = 0xFFF →
      (epochState c.t (opEpoch c.o.w0) = .open_ → c.md.rings = [] → ∃ v, exec (.epochConfirm id) s = .next v ∧ SameStores s v ∧
        Counted 0x784 s v ∧
        (taskOf v c.o.group).map (fun q => epochState q.2 (opEpoch c.o.w0)) = some .confirmed) ∧
      (epochState c.t (opEpoch c.o.w0) = .cancelled → ∃ v, exec (.epochConfirm id) s = .next v ∧ SameStores s v ∧
        bitAt (regGet v 0x704).toNat 2 = true ∧ v.sgroups = s.sgroups))

/-- CONV, MATMUL, POOL_MAX, POOL_AVG, VEC, SFU, REDUCE and NORM_APPLY write their destination. A tile-op of these that is
ready (it may issue, names no ring, the scheduler is calm, classes FETCH and STORE have a unit) and has no WAIT_SEM,
whose operands are read without an error, in near stores without marked check bits, writes to its destination's
elements in the near stores exactly the results that its unit computes from the parameter block and the sources as
read, and changes no other byte of a near store or the Deep Store, no buffer and no ring. CONV and MATMUL start from
what a chain kept for the same destination, and with CHAIN keep the accumulators instead of writing. A REDUCE to one
element in the Deep Store writes it through the tile cache, or adds it to a reduction line, INT32 or FP32. (R383,
R384, R404, R410, R459, R475, R487, R508, R565, 06_pixel_cores.md, 07_special_functions.md) -/
def Obligations.ComputeTileOpsWriteTheirResults : Prop :=
  ∀ (s : State) (id : Nat) (c : OpCtx) (p : List Byte) (ta td : Tensor) (j : State), opWaitSem c.o.w0 = 0xFFF → Calm j →
    j.nearEcc = [] →
    (∀ (mat : Bool) (tb : Tensor) (kept : List Nat), Ready (if mat then 0x11 else 0x10) s id c →
      Reads c (ctxB c) (issuedOp s id c true) p ta (some tb) td j →
      ((∀ k, tabGet? j.accs c.o.core = some k → k.key ≠ tKey td [] + 1) ∧ kept = [] ∨
        ∃ bf, tabGet? j.accs c.o.core = some ⟨tKey td [] + 1, bf, kept⟩) →
      ∃ v, exec (if mat then .matmul id else .conv id) s = .next v ∧ v.mem = j.mem ∧ v.handles = j.handles ∧
        v.rings = j.rings ∧ v.ops = j.ops ∧
        (opChain c.o.w0 = true → v.near = j.near ∧ tabGet? v.accs c.o.core =
          some ⟨tKey td [] + 1, ta.o.format == 1, accumulate (nearLe j) mat ta tb p kept⟩) ∧
        (opChain c.o.w0 = false → tabGet? v.accs c.o.core = none ∧ v.near = stored (matrixOut (ta.o.format == 1)
          (opEpi c.o.w0) mat (userTable c.md.image) p td (accumulate (nearLe j) mat ta tb p kept)).data j.near)) ∧
    (∀ avg : Bool, Ready (if avg then 0x13 else 0x12) s id c → Reads c none (issuedOp s id c true) p ta none td j →
      ∃ v, exec (if avg then .poolAvg id else .poolMax id) s = .next v ∧ v.mem = j.mem ∧ v.handles = j.handles ∧
        v.rings = j.rings ∧ v.ops = j.ops ∧ v.near = stored (writeRaw td fun ix =>
          if avg then poolAvgAt (nearLe j) ta p (freeNow j).toNat ix
          else poolMaxAt (nearLe j) ta p (freeNow j).toNat ix).data j.near) ∧
    (∀ tb : Option Tensor, Ready 0x20 s id c → Reads c (ctxB c) (issuedOp s id c true) p ta tb td j →
      ∃ v, exec (.vec id) s = .next v ∧ v.mem = j.mem ∧ v.handles = j.handles ∧ v.rings = j.rings ∧ v.ops = j.ops ∧
        v.near = stored (vecOut (nearLe j) ta tb td p fun i => (Config.freeValue (j.free + i)).toNat).data j.near) ∧
    (Ready 0x21 s id c → Reads c none (issuedOp s id c true) p ta none td j →
      ∃ v, exec (.sfu id) s = .next v ∧ v.mem = j.mem ∧ v.handles = j.handles ∧ v.rings = j.rings ∧ v.ops = j.ops ∧
        v.near = stored (sfuOut (nearLe j) ta td (userTable c.md.image) p).data j.near) ∧
    (∀ (a d : Opd) (q : State), Ready 0x22 s id c → ctxA c = some a → ctxDst c = some d →
      readParam c (issuedOp s id c true) = (q, some p) → tensorOf c a true q = (j, some ta) →
      (∀ b : Nat, d.kind = 3 → nearBase j c d = some b →
        nearCode j c d (opdSpan d).1 (opdSpan d).2 (opdAligned d (fmtBytes d.format)) = 0 →
        ∃ v, exec (.reduce id) s = .next v ∧ v.mem = j.mem ∧ v.handles = j.handles ∧ v.rings = j.rings ∧ v.ops = j.ops ∧
          v.near = stored ((opdIndices d).map fun ix => (((b : Int) + opdOffset d ix).toNat,
            leBytes (fmtBytes d.format) (laneStore (a.format == 1 || a.format == 3) false d.format
              (reduceAt (nearLe j) ta d (leAt p 0 1) ix) one32 (freeNow j).toNat).1)) j.near) ∧
      ∀ (ix : List Nat) (v : Nat) (fp : Bool) (k : State), d.kind ≠ 3 → opdIndices d = [ix] →
        fp = (a.format == 1 || a.format == 3) → placeCode (opdPlace j c.t c.md c.o.stripe d) (opdOffset d ix) 4 = 0 →
        v = reduceAt (nearLe j) ta d (leAt p 0 1) ix → Calm k →
        (leAt p 1 1 = 0 → k = (tcWrite c.o.core (hintOf (opHint c.o.w0)) 9
            (placeAt (opdPlace j c.t c.md c.o.stripe d) (opdOffset d ix))
            (leBytes (fmtBytes d.format) (laneStore fp false d.format v one32 (freeNow j).toNat).1) (freeStep j)).1 →
          exec (.reduce id) s = .next (settle k)) ∧
        (leAt p 1 1 = 1 → k = tcAdd c.o.core false (hintOf (opHint c.o.w0)) 2
            (placeAt (opdPlace j c.t c.md c.o.stripe d) (opdOffset d ix))
            [if fp then unsgn 32 (fToInt (-2147483648) 2147483647 v) else v] (freeStep j) →
          exec (.reduce id) s = .next (settle k)) ∧
        (leAt p 1 1 = 2 → k = tcAdd c.o.core true (hintOf (opHint c.o.w0)) 2
            (placeAt (opdPlace j c.t c.md c.o.stripe d) (opdOffset d ix))
            [if fp then v else fOfInt (sgn 32 v)] (freeStep j) →
          exec (.reduce id) s = .next (settle k))) ∧
    ∀ (st : Opd) (gs bs ks : List Nat) (co : List (Nat × Nat)) (g b k l : State), Ready 0x39 s id c →
      Reads c none (issuedOp s id c true) p ta none td j → ctxOpd c (leAt p 2 2) = some st →
      readTable c (leAt p 8 2) (leAt p 0 2) j = (g, some gs) → readTable c (leAt p 0xA 2) (leAt p 0 2) g = (b, some bs) →
      readTable c (leAt p 0xC 2) (leAt p 0 2) b = (k, some ks) →
      normChannels c st (leAt p 4 4) gs bs ks (natsFrom 0 (leAt p 0 2)) k = (l, some co) → Calm l → l.nearEcc = [] →
      ∃ v, exec (.normApply id) s = .next v ∧ v.mem = l.mem ∧ v.handles = l.handles ∧ v.rings = l.rings ∧ v.ops = l.ops ∧
        v.near = stored (writeF32 td fun ix => fma32 (tF32 (nearLe j) ta ix) (co.getD (chanOf ix) (0, 0)).1
          (co.getD (chanOf ix) (0, 0)).2).data l.near

/-- SMAX_PASS1 to SMAX_PASS3 and NORM_STATS on one row or channel. A tile-op of these that may issue, names no ring and
waits on no semaphore, whose operands are read without an error. On one row, pass 1 writes the row's largest element
and its element count into the part's record; pass 2 writes the exponentials of the row's elements against the largest
MAX of the parts, and their sum into the record, and sets SMAX_NAN_ROW where that MAX is a NaN; pass 3 multiplies the
row's elements by the reciprocal of the sum of the parts' sums. Where pass 2 or 3 reads a record that has not been
written for the row, it completes all the same and writes its own operands only, with values that are open (how the
model tells such a record is log entry 73, DEDUCED). NORM_STATS on one channel adds the channel's record of count, sum
and sum of squares of the differences from the channel's pivot to its line. Each write of a record goes through the
core's tile cache. (R462, R463, R464, R465, R466, R468, R470, R471, 07_special_functions.md) -/
def Obligations.StatisticsTileOpsWriteTheirRecords : Prop :=
  ∀ (s : State) (id : Nat) (c : OpCtx) (p : List Byte) (ta td : Tensor) (j k : State) (st : Opd),
    opWaitSem c.o.w0 = 0xFFF →
    (Ready 0x30 s id c → ReadsSource c (issuedOp s id c true) p ta j → ctxOpd c (smStats p) = some st → smRows p = 1 →
      k = smMark c st (smPart p * 16) 1 (statWrite c st (smPart p * 16 + 8) (leBytes 4 (opdCount ta.o 0) ++ leBytes 4 0)
        (statWrite c st (smPart p * 16) (leBytes 4 (smMax (nearLe j) ta 0)) j)) →
      Calm k → exec (.smaxPass1 id) s = .next (settle k)) ∧
    (∀ (ms es : List Nat) (m : Nat) (x : State), Ready 0x31 s id c → Reads c none (issuedOp s id c true) p ta none td j →
      ctxOpd c (smStats p) = some st → smRows p = 1 →
      statReads c st 0 (natsFrom 0 (smParts p)) j = (k, some ms) → smFresh k c st 0 (smParts p) 1 = true →
      m = ms.foldl fMax ninf32 →
      es = (natsFrom 0 (opdCount ta.o 0)).map (fun e => smExp p m (tF32 (nearLe j) ta [e, 0])) →
      x = smMark c st (smPart p * 16) 3 (statWrite c st (smPart p * 16 + 4) (leBytes 4 (laneSum (es.map bfWiden)))
        (putWritten c ⟨((natsFrom 0 (opdCount ta.o 0)).zip es).map fun e => (tKey td [e.1, 0], leBytes 2 e.2), 0⟩
          (if fIsNan m then regOr 0x600 2 k else k))) →
      Calm x → exec (.smaxPass2 id) s = .next (settle x)) ∧
    (∀ ms : List Nat, Ready 0x31 s id c → Reads c none (issuedOp s id c true) p ta none td j →
      ctxOpd c (smStats p) = some st → smRows p = 1 → statReads c st 0 (natsFrom 0 (smParts p)) j = (k, some ms) →
      smFresh k c st 0 (smParts p) 1 = false → ∃ (m sum free : Nat) (es : List Nat) (x : State),
        es.length = opdCount ta.o 0 ∧ x = smRow2 c p st td 0 m sum es { k with free := free } ∧
        (Calm x → exec (.smaxPass2 id) s = .next (settle x))) ∧
    (∀ (v : Nat) (vs : List Nat), Ready 0x32 s id c → Reads c none (issuedOp s id c true) p ta none td j →
      ctxOpd c (smStats p) = some st → smRows p = 1 → statReads c st 4 (natsFrom 0 (smParts p)) j = (k, some (v :: vs)) →
      smFresh k c st 0 (smParts p) 3 = false → Calm k → k.nearEcc = [] → ∃ (w : State) (ds : List (List Byte)),
        exec (.smaxPass3 id) s = .next w ∧ ds.length = opdCount ta.o 0 ∧ (∀ d ∈ ds, d.length = fmtBytes td.o.format) ∧
        w.mem = k.mem ∧ w.handles = k.handles ∧ w.rings = k.rings ∧ w.ops = k.ops ∧
        w.near = stored (((natsFrom 0 (opdCount ta.o 0)).map fun e => tKey td [e, 0]).zip ds) k.near) ∧
    (∀ (v : Nat) (vs : List Nat), Ready 0x32 s id c → Reads c none (issuedOp s id c true) p ta none td j →
      ctxOpd c (smStats p) = some st → smRows p = 1 → statReads c st 4 (natsFrom 0 (smParts p)) j = (k, some (v :: vs)) →
      smFresh k c st 0 (smParts p) 3 = true → Calm k → k.nearEcc = [] → ∃ w, exec (.smaxPass3 id) s = .next w ∧ w.mem = k.mem ∧ w.handles = k.handles ∧
        w.rings = k.rings ∧ w.ops = k.ops ∧ w.near = stored ((natsFrom 0 (opdCount ta.o 0)).map fun e => (tKey td [e, 0],
          leBytes (fmtBytes td.o.format) (outOf td.o.format (fMul (tF32 (nearLe j) ta [e, 0])
            (sfuBuiltin 2 (vs.foldl fAdd v)))).1)) k.near) ∧
    ∀ (ks : List Nat) (ad : Nat), Ready 0x38 s id c → ReadsSource c (issuedOp s id c true) p ta j → leAt p 0 2 = 1 →
      ctxOpd c (leAt p 2 2) = some st → readTable c (leAt p 4 2) 1 j = (k, some ks) → statAddr k c st 0 16 = some ad →
      Calm (tcAdd c.o.core true (hintOf (opHint c.o.w0)) 3 ad (normRecord (nearLe j) ta (ks.getD 0 0) 0) k) →
      exec (.normStats id) s = .next (settle
        (tcAdd c.o.core true (hintOf (opHint c.o.w0)) 3 ad (normRecord (nearLe j) ta (ks.getD 0 0) 0) k))

/-- LOAD, GATHER, STORE, COLLECTIVE and TILEOP_COMPLETE. A tile-op that is ready (it may issue, names no ring, the scheduler
is calm, classes FETCH and STORE have a unit) and has no WAIT_SEM: LOAD and GATHER whose accesses all pass hold their
bytes for the destination's elements, no store changed yet. So a LOAD without hint keep of one element inside a line, on
a core without cached lines and with no access left to any tile-op, holds the bytes of the Deep Store there; a later
member of a weight chain holds the block that came along it. STORE of one 64 B element likewise writes the source's
bytes there and nothing else. COLLECTIVE, the first of at least two participants, puts its contribution, its destination
and itself into the reduction lines of its collective, or, without ways for them, waits. A tile-op that may complete and
names no ring, with those units, leaves the scoreboard; a squashed one has no other effect, another's held bytes reach
the near stores, and its SIG_SEM, if it has one and is no SEM_SIGNAL, its core no cached line and the semaphore no
queue, grows by 1. (R336,
R338, R339, R343, R347, R355, R510, R514, R571, R572, 05_baskets_streams.md, 08_tile_ops.md) -/
def Obligations.DataTileOpsMoveBytesAndComplete : Prop :=
  ∀ (s : State) (id : Nat) (c : OpCtx),
    (∀ (g : Bool) (a d : Opd) (ps : List Piece) (bytes : List Byte) (q j : State) (c' : OpCtx),
      Ready (if g then 0x03 else 0x01) s id c → opWaitSem c.o.w0 = 0xFFF → ctxA c = some a → ctxDst c = some d →
      nearCode (issuedOp s id c true) c d (opdSpan d).1 (opdSpan d).2 true = 0 →
      (onChain (issuedOp s id c true) c && !chainFirst c) = false → loadPieces c a (issuedOp s id c true) = (q, some ps) →
      (∀ x ∈ ps, x ≠ .index) → opCtx (opMod id (fun o => { o with todo := ps, got := [] }) q) id = some c' →
      piecesRun c' ps [] (opMod id (fun o => { o with todo := ps, got := [] }) q) = (j, [], bytes) → Calm j →
      (tabGet? j.ops id).isSome = true → ∃ v, exec (if g then .gather id else .loadOp id) s = .next v ∧ SameStores j v ∧
        (tabGet? v.ops id).map (·.writes) = some (spread (loadBase j c' d) d (opdIndices d) bytes)) ∧
    (∀ (a d : Opd) (ix : List Nat) (ad b : Nat), Ready 0x01 s id c → opWaitSem c.o.w0 = 0xFFF → ctxA c = some a →
      ctxDst c = some d → nearCode s c d (opdSpan d).1 (opdSpan d).2 true = 0 → nearBase s c d = some b →
      onChain s c = false → a.kind ≠ 4 → haloWithheld s c a = false → opHint c.o.w0 ≠ 1 → opdIndices a = [ix] →
      placeCode (opdPlace s c.t c.md c.o.stripe a) (opdOffset a ix) a.elem = 0 →
      ad = placeAt (opdPlace s c.t c.md c.o.stripe a) (opdOffset a ix) → 0 < a.elem → ad % 64 + a.elem ≤ 64 →
      NoLines s c.o.core → (∀ e ∈ s.ops, e.2.todo = []) →
      Passes s ⟨c.x.cs, coreDetail s c.o.core, .addr (ad / 64 * 64), true, false, 64, []⟩ →
      ∃ v, exec (.loadOp id) s = .next v ∧ SameStores s v ∧
        (tabGet? v.ops id).map (·.writes) = some (spread b d (opdIndices d) (memBytes s ad a.elem))) ∧
    (∀ a d : Opd, Ready 0x01 s id c → opWaitSem c.o.w0 = 0xFFF → ctxA c = some a → ctxDst c = some d →
      nearCode s c d (opdSpan d).1 (opdSpan d).2 true = 0 → onChain s c = true → chainFirst c = false →
      ∃ v, exec (.loadOp id) s = .next v ∧ SameStores s v ∧ v.regs = s.regs ∧
        (tabGet? v.ops id).map (·.writes) =
          some (spread (loadBase s c d) d (opdIndices d) (tabGet [] c.t.blocks (chainKey c)))) ∧
    (∀ (a d : Opd) (ta : Tensor) (ix : List Nat) (bytes : List Byte) (j : State) (ad : Nat),
      Ready 0x02 s id c → opWaitSem c.o.w0 = 0xFFF → ctxA c = some a → ctxDst c = some d → d.elem = 64 →
      opdIndices d = [ix] → opdOffset d ix % 64 = 0 → opHint c.o.w0 ≠ 1 →
      tensorOf c { a with format := 1 } true (issuedOp s id c true) = (j, some ta) → Calm j → j.arrivals = [] →
      placeCode (opdPlace j c.t c.md c.o.stripe d) (opdOffset d ix) 64 = 0 →
      ad = placeAt (opdPlace j c.t c.md c.o.stripe d) (opdOffset d ix) → bytes = nearBytesOf j ta.base a →
      bytes.length = 64 → NoLines j c.o.core → (∀ e ∈ j.ops, e.2.todo = []) → (tabGet? j.ops id).isSome = true →
      opCtx j id = some { c with o := { c.o with waitServed := true, acquired := true, haloAsked := true, issued := true,
                                                 issuedAt := s.ts, ready := true } } →
      OpUnits j → Passes j ⟨c.x.cs, coreDetail j c.o.core, .addr ad, true, true, 64, bytes⟩ →
      ∃ v, exec (.storeOp id) s = .next v ∧ memBytes v ad 64 = bytes ∧
        (∀ x, x < ad ∨ ad + 64 ≤ x → memByte v x = memByte j x) ∧ v.near = j.near ∧
        v.handles = j.handles ∧ v.rings = j.rings ∧ (tabGet? v.ops id).map (·.todo) = some []) ∧
    (∀ (a dst : Opd) (p d : List Byte) (q j : State), Ready 0x45 s id c → opWaitSem c.o.w0 = 0xFFF → ctxA c = some a →
      ctxDst c = some dst → readParam c (issuedOp s id c false) = (q, some p) → readOpd c a (leAt p 2 2) q = (j, some d) →
      Calm j → j.xk.colls = [] → j.xk.redWait = [] → s.xk.redWait = [] → 2 ≤ (barrierMembers j c).length →
      (redShort j (leAt c.md.image 0x18 8 * 256 + opBctx c.o.w0) (leAt p 2 2) = 0 →
        ∃ v, exec (.collective id) s = .next v ∧ SameStores j v ∧ ∃ l, v.xk.colls = [l] ∧ l.ops = [id] ∧
          l.dsts = [bufferAddr j c dst] ∧ l.out = false ∧ l.op = leAt p 0 1 ∧ l.bytes = leAt p 2 2 ∧
          (leAt p 0 1 ≠ 0 → l.data = d)) ∧
      (0 < redShort j (leAt c.md.image 0x18 8 * 256 + opBctx c.o.w0) (leAt p 2 2) →
        ∃ v, exec (.collective id) s = .next v ∧ SameStores j v ∧ v.xk.colls = [] ∧ v.xk.redWait = [id] ∧
          bitAt (regGet v 0x204).toNat 1 = true)) ∧
    (Calm s → OpUnits s → opCtx s id = some c → mayComplete s c = true →
      (c.o.dropped = true → ∃ v, exec (.tileopComplete id) s = .next v ∧ v.ops = tabDel s.ops id ∧ SameStores s v ∧
        v.sems = s.sems) ∧
      (c.o.dropped = false → ctxRings s c = [] → s.nearEcc = [] →
        (opSigSem c.o.w0 = 0xFFF ∨ opCode c.o.w0 = 0x42 → ∃ v, exec (.tileopComplete id) s = .next v ∧ tabGet? v.ops id = none ∧
          (∀ k, k ≠ id → tabGet? v.ops k = tabGet? s.ops k) ∧ v.near = stored c.o.writes s.near ∧ v.mem = s.mem ∧
          v.rings = s.rings ∧ v.windows = s.windows ∧ v.sems = s.sems) ∧
        (opSigSem c.o.w0 ≠ 0xFFF → opCode c.o.w0 ≠ 0x42 → NoLines s c.o.core →
          (semOf s (imgSem c.md (opSigSem c.o.w0))).queue = [] → ∃ v, exec (.tileopComplete id) s = .next v ∧
            tabGet? v.ops id = none ∧ v.near = stored c.o.writes s.near ∧ v.mem = s.mem ∧ v.rings = s.rings ∧
            (semOf v (imgSem c.md (opSigSem c.o.w0))).value =
              min ((semOf s (imgSem c.md (opSigSem c.o.w0))).value + 1) 65535)))

/-- TILEOP_DISPATCH, TASK_START, TASK_BOUNDARY, GLB_EPOCH_CANCEL, CORE_HANG. The next tile-op of a member's program enters
the queue under the next number, not issued, and the member's cursor moves on, when it is the member's turn and the
queues have room; a SPEC one opens its idle epoch, one of a cancelled epoch is squashed and counted, the scheduler calm;
an empty program only moves the cursor. A started group that waits for no drain, whose core set is ready, starts the task
of its oldest repeat. When every member has ended and no tile-op of the group is left (a model without rings, no epoch, no
core, stop or swap pending, no cache line, a calm scheduler with units), the boundary ends the task and pulses EV_128+cs.
GLB_EPOCH_CANCEL without GO does nothing; with GO, nothing queued, it cancels the open epoch it names of a model without
rings and epoch semaphores. A compute tile-op issued 50 ms ago, the only one queued, hangs: with no ring, semaphore or
disable, and at most its own group, it is dropped, the task stops running, its core is quarantined and a CORE_DISABLE
of it still running completes with DETAIL 1 (log entry 43); before that nothing changes. (R428, R505, R506, R519, R527,
R528, R530, R533, R535, R891, 08_tile_ops.md, 16_faults_repair.md) -/
def Obligations.TasksDispatchStartAndEnd : Prop :=
  ∀ (g : Fin 16) (s : State),
    (∀ (m : Fin 64) (x : Group) (t : Task) (md : Model) (cur : Cursor), taskOf s g = some (x, t) →
      modelOf s x.model = some md → x.phase = .running → m.val < (csMembers s x.cs).length →
      cur = cursorNow t (tabGet {} t.cursors m) → cur.phase < 3 →
      (∀ i, i < (csMembers s x.cs).length → cursorBefore (cursorNow t (tabGet {} t.cursors i)) cur = false) →
      (s.ops.filter fun e => decide (e.2.core = (csMembers s x.cs).getD m 64) && !e.2.issued).length < 64 →
      (s.ops.filter fun e => e.2.dst.isSome).length < 1024 →
      ((imgProg md.image cur.phase (m % imgG md.image)).count = 0 → ∃ v, exec (.tileopDispatch g m) s = .next v ∧
        SameStores s v ∧ v.ops = s.ops ∧ v.opNext = s.opNext ∧
        (taskOf v g).map (fun q => tabGet {} q.2.cursors m) =
          some (cursorNext cur 0 m (imgG md.image) (stripeGroups s x md) 0)) ∧
      ((imgProg md.image cur.phase (m % imgG md.image)).count ≠ 0 →
        ∀ w0 : Nat, w0 = progWord0 md.image (imgProg md.image cur.phase (m % imgG md.image)) cur.pc →
        (opSpec w0 = false ∨ epochState t (opEpoch w0) ≠ .cancelled →
          ∃ v, exec (.tileopDispatch g m) s = .next v ∧ SameStores s v ∧ v.opNext = s.opNext + 1 ∧
            (∃ o, tabGet? v.ops s.opNext = some o ∧ o.group = g ∧ o.member = m ∧ o.core = (csMembers s x.cs).getD m 64 ∧
              o.w0 = w0 ∧ o.w1 = progWord1 md.image (imgProg md.image cur.phase (m % imgG md.image)) cur.pc ∧
              o.stripe = cur.stripe ∧ o.issued = false) ∧
            (∀ k, k ≠ s.opNext → tabGet? v.ops k = tabGet? s.ops k) ∧
            (taskOf v g).map (fun q => tabGet {} q.2.cursors m) = some (cursorNext cur
              (imgProg md.image cur.phase (m % imgG md.image)).count m (imgG md.image) (stripeGroups s x md)
              (b2n (opHold w0))) ∧
            (opSpec w0 = true → epochState t (opEpoch w0) = .idle →
              (taskOf v g).map (fun q => epochState q.2 (opEpoch w0)) = some .open_)) ∧
        (opSpec w0 = true → epochState t (opEpoch w0) = .cancelled → Calm s →
          ∃ v, exec (.tileopDispatch g m) s = .next v ∧ SameStores s v ∧ v.ops = s.ops ∧ Counted 0x780 s v))) ∧
    (∀ (t : Nat) (x : Group) (md : Model) (n : Nat) (rest : List Nat), groupGet s g = some x →
      modelOf s x.model = some md → x.due = n :: rest → x.phase = .waiting → x.started = true → x.awaits = false →
      x.drains = [] → csReady s x.cs = true → ∃ v, exec (.taskStart g t) s = .next v ∧ v.rings = s.rings ∧
        v.windows = s.windows ∧ v.near = s.near ∧ ∃ x' k, groupGet v g = some x' ∧ x'.phase = .running ∧ x'.due = rest ∧
          x'.model = x.model ∧ x'.task = some k ∧ k.rep = n ∧ k.tsStart = max s.ts t ∧ k.qFirst = x.q ∧ k.cursors = [] ∧
          k.epochs = []) ∧
    (∀ (t : Nat) (x : Group) (k : Task) (md : Model), Calm s → OpUnits s → taskOf s g = some (x, k) →
      modelOf s x.model = some md → x.phase = .running → x.stopping = false → x.pendModel = none → md.rings = [] →
      md.ownRings = [] → k.epochs = [] → (∀ i, i < (csMembers s x.cs).length → (tabGet {} k.cursors i).phase = 3) →
      (∀ e ∈ s.ops, e.2.group ≠ g.val) → (∀ q, (tabGet {} s.cores q).state ≠ .pending) → s.tcache = [] → s.arrivals = [] →
      ∃ v, exec (.taskBoundary g t) s = .next v ∧ Emit.event (128 + x.cs) ∈ v.emitted ∧ v.rings = s.rings ∧
        v.cores = s.cores ∧ v.ops = s.ops ∧ ∃ x', groupGet v g = some x' ∧ x'.phase = .waiting ∧ x'.started = x.started ∧
          x'.due = x.due ∧ x'.model = x.model) ∧
    (∀ (req : Req) (v : Word), mayAccess req 0x710 true = true →
      (bitAt v.toNat 31 = false → exec (.glbEpochCancel req v) s = .next (settle s)) ∧
      (∀ (x : Group) (k : Task) (md : Model), bitAt v.toNat 31 = true → Calm s → s.ops = [] →
        groupsOfCs s (fieldOf v 16 4) = [g.val] → taskOf s g = some (x, k) → modelOf s x.model = some md → md.rings = [] →
        epochSems md.image (fieldOf v 0 8) = [] → fieldOf v 0 8 ≠ 0 → epochState k (fieldOf v 0 8) = .open_ →
        ∃ u, exec (.glbEpochCancel req v) s = .next u ∧ SameStores s u ∧ Counted 0x788 s u ∧
          bitAt (regGet u 0x704).toNat 1 = true ∧
          (taskOf u g).map (fun q => epochState q.2 (fieldOf v 0 8)) = some .cancelled)) ∧
    ∀ (id t : Nat) (o : TileOp) (u : State), tsTo t s = u → tabGet? s.ops id = some o → o.issued = true →
      o.unit = .matrix ∨ o.unit = .vector ∨ o.unit = .sfu →
      (u.ts < o.issuedAt + 50000000 → exec (.coreHang id t) s = .next (settle u)) ∧
      (o.issuedAt + 50000000 ≤ u.ts → s.ops = [(id, o)] → s.rings = [] → s.sems = [] →
        (∀ e ∈ s.cores, e.2.disable = none ∧ e.2.state ≠ .pending) →
        (s.sgroups = [] ∨ ∃ x k md, s.sgroups = [(g.val, x)] ∧ x.phase = .running ∧ x.task = some k ∧ k.stripes = [] ∧
          k.epochs = [] ∧ k.arrivals = [] ∧ modelOf s x.model = some md ∧ md.rings = [] ∧ md.ownRings = [] ∧
          csOfCore s o.core = some x.cs ∧ s.coreMap = [(o.core, coreDetail s o.core)]) →
        ∃ v, exec (.coreHang id t) s = .next v ∧ v.ops = [] ∧ v.near = s.near ∧
          (tabGet {} v.cores (coreDetail s o.core)).state = .quarantined ∧ (∀ e ∈ v.sgroups, e.2.phase = .waiting) ∧
          ∀ n l, tabGet? s.sup.longs n = some l → l.opcode = 0x0701 → l.obj = coreDetail s o.core → l.done = none →
            ∃ b, Finished n 0 1 b v)

/-- TC_PREFETCH, TC_FLUSH, TC_INVALIDATE, TC_FLUSH_INVALIDATE, CACHE_OP_DONE, PIN_PRESSURE_WINDOW. For a requester that may
write TC_OP_CTRL: while its operation is BUSY, GO is refused with REFUSED set and nothing else. Otherwise the operation
starts, BUSY, on the lines of the range in the caches of the cores named. INVALIDATE drops them with what they hold
dirty; FLUSH leaves clean lines as they are, FLUSH_INVALIDATE drops them; both write the dirty bytes of a filled line, the
only one cached, back, and no other byte; PREFETCH of one absent line that passes the checks, in empty caches, installs
it clean with the store's bytes. Completion clears BUSY, sets DONE and, for the host unless it was revoked, its interrupt
source. The end of a 1 ms window shows whether a demotion occurred in it. (R540, R543, R544, R552, R573, R574, R576,
R577, 09_caches_ordering.md) -/
def Obligations.TileCacheRangeOperationsAct : Prop :=
  ∀ (req : Req) (s : State),
    (mayAccess req 0x120 true = true → bitAt (regGet s (bankKey (reqBank req) 0x124)).toNat 30 = true →
      (∀ h, exec (.tcPrefetch req h) s = .next (settle (rgRefuse (reqBank req) 0x124 s))) ∧
      exec (.tcFlush req) s = .next (settle (rgRefuse (reqBank req) 0x124 s)) ∧
      exec (.tcInvalidate req) s = .next (settle (rgRefuse (reqBank req) 0x124 s)) ∧
      exec (.tcFlushInvalidate req) s = .next (settle (rgRefuse (reqBank req) 0x124 s))) ∧
    (∀ (lo hi : Nat) (gone : Nat × TcLine → Bool), mayAccess req 0x120 true = true →
      bitAt (regGet s (bankKey (reqBank req) 0x124)).toNat 30 = false → (s.tcache.map (·.1)).Nodup →
      lo = 64 * rgLine s (reqBank req) → hi = lo + 64 * rgLen s (reqBank req) →
      (gone = fun e => (rgCores s (reqBank req)).contains (tcCore e.1) && lineIn lo hi (tcLineNo e.1)) →
      (∃ v, exec (.tcInvalidate req) s = .next v ∧ v.tcache = s.tcache.filter (fun e => !gone e) ∧ SameStores s v ∧
        bitAt (regGet v (bankKey (reqBank req) 0x124)).toNat 30 = true ∧
        (tabGet? v.rangeOps (2 * reqBank req)).isSome = true) ∧
      ((∀ e ∈ s.tcache, gone e = true → e.2.dirty = [] ∧ e.2.red = none ∧ e.2.ecc = []) →
        (∃ v, exec (.tcFlush req) s = .next v ∧ v.tcache = s.tcache ∧ SameStores s v ∧
          bitAt (regGet v (bankKey (reqBank req) 0x124)).toNat 30 = true) ∧
        ∃ v, exec (.tcFlushInvalidate req) s = .next v ∧ v.tcache = s.tcache.filter (fun e => !gone e) ∧ SameStores s v ∧
          bitAt (regGet v (bankKey (reqBank req) 0x124)).toNat 30 = true) ∧
      (∀ (core line : Nat) (l : TcLine) (inv : Bool), s.tcache = [(tcKey core line, l)] → core < 64 → line < 2 ^ 24 →
        gone (tcKey core line, l) = true → l.red = none → l.filled = true → l.ecc = [] → l.dirty ≠ [] →
        (∀ e ∈ l.dirty, e.1 < 64) → tabSortedFrom 0 l.dirty = true → s.arrivals = [] →
        Passes s (wbReq s core line (overlay l.data l.dirty)) →
        ∃ v, exec (if inv then .tcFlushInvalidate req else .tcFlush req) s = .next v ∧
          (∀ i, i < 64 → memByte v (64 * line + i) = (tabGet? l.dirty i).getD (memByte s (64 * line + i))) ∧
          (∀ a, a < 64 * line ∨ 64 * line + 64 ≤ a → memByte v a = memByte s a) ∧ v.near = s.near ∧ v.rings = s.rings ∧
          v.tcache = (if inv then [] else [(tcKey core line, { l with dirty := [], data := overlay l.data l.dirty })]) ∧
          bitAt (regGet v (bankKey (reqBank req) 0x124)).toNat 30 = true) ∧
      ∀ (h : Fin 3) (core line : Nat), rgCores s (reqBank req) = [core] → rgLine s (reqBank req) = line →
        rgLen s (reqBank req) = 1 → s.tcache = [] → (csOfCore s core).isSome = true →
        (∀ i, bufferAt s (64 * line) = some i → (handleOf s i).ring = false) → Passes s (fillReq s core line) →
        ∃ v, exec (.tcPrefetch req h) s = .next v ∧ SameStores s v ∧
          bitAt (regGet v (bankKey (reqBank req) 0x124)).toNat 30 = true ∧
          ∃ l, tabGet? v.tcache (tcKey core line) = some l ∧ l.filled = true ∧ l.dirty = [] ∧ l.hint = hintOf h ∧
            l.data = memBytes s (64 * line) 64) ∧
    (∀ (far : Bool) (o : RangeOp), tabGet? s.rangeOps (2 * reqBank req + b2n far) = some o → ∃ v,
      exec (.cacheOpDone req far) s = .next v ∧ tabGet? v.rangeOps (2 * reqBank req + b2n far) = none ∧ SameStores s v ∧
      v.tcache = s.tcache ∧ v.fcache = s.fcache ∧
      regBits v (bankKey (reqBank req) (if far then 0x230 else 0x124)) 30 2 = 2 ∧
      (reqBank req = 0 → o.quiet = false → bitAt (regGet v 0x2020).toNat (if far then 3 else 2) = true)) ∧
    ∀ t : Nat, ∃ v, exec (.pinPressureWindow t) s = .next v ∧ v.pinNow = (false, false) ∧ v.ts = max s.ts t ∧
      regBits v 0x108 0 1 = b2n s.pinNow.1 ∧ regBits v 0x20C 0 1 = b2n s.pinNow.2 ∧ SameStores s v ∧ v.tcache = s.tcache

/-- FAR_ACCESS, FC_PREFETCH, FC_FLUSH, FC_INVALIDATE, FC_FLUSH_INVALIDATE, FAR_REQUEST_TIMEOUT, COLL_LOCAL. With no tile-op,
no stream group and no core about to leave. An access of the host to no node's window, or a legal one to a node that is
not there, is answered DECERR; a read that hits the far cache, class FAR having a unit, is answered with the bytes its
buffer holds, where the accesses to it pass; a legal write to a present node, nothing cached, is answered at once and
waits under TAG 64 when none waits. A far range operation is refused while BUSY; with no range, or without reduction
lines and waits, FLUSH changes no line, INVALIDATE and FLUSH_INVALIDATE drop the lines of the range, and PREFETCH of one
absent line, class FAR having a unit, asks its node for it. A host read without a response for 8 cycles is answered
TIMEOUT, not before. A collective without a result in time completes with this station's contribution alone. (R37,
R69, R554, R557, R558, R574, R575, R578, R856, R857, R859, R863) -/
def Obligations.FarCacheAccessesAndCollectives : Prop :=
  ∀ s : State, Quiet s →
    (∀ r : DsReq, r.tag = 0x18 → ∀ a, r.target = .addr a →
      (farWindow a = none → ∃ v, exec (.farAccess r) s = .next v ∧ SameStores s v ∧
        (tabGet {} v.replies 0).resp = 1 ∧ v.xk = s.xk ∧ v.fcache = s.fcache) ∧
      ∀ n off, farWindow a = some (n, off) → viewOk r a = true →
        (xkReaches s n = false → (xkJoined s = false ∨ n ≠ s.xk.node) → ∃ v, exec (.farAccess r) s = .next v ∧
          SameStores s v ∧ (tabGet {} v.replies 0).resp = 1 ∧ v.xk.far = s.xk.far ∧ v.fcache = s.fcache) ∧
        (xkReaches s n = true →
          (∀ l ad, r.write = false → tabGet? s.fcache (fcKey n (off / 256)) = some l → fcFresh s l = true → Units s 3 1 →
            ad = fcAddr s (fcKey n (off / 256)) l.way + off % 256 →
            (∀ p ∈ pieces r.size ad r.size, Passes s ⟨0x1C, 0, .addr p.1, decide (p.2 = 64), false, p.2, []⟩) →
            ∃ v, exec (.farAccess r) s = .next v ∧ SameStores s v ∧ v.xk = s.xk ∧
              tabGet {} v.replies 0 = { data := memBytes s ad r.size }) ∧
          (r.write = true → s.xk.far = [] → s.fcache = [] → ∃ v, exec (.farAccess r) s = .next v ∧ SameStores s v ∧
            tabGet {} v.replies 0 = {} ∧ ∃ w, v.xk.far = [w] ∧ w.id = some 64 ∧ w.node = n ∧ w.offset = off ∧
              w.write = true ∧ w.data = r.data ∧
              v.xk.queue = s.xk.queue ++ [{ dest := n, kind := 4, seq := 0, body := farEntry w 64 }]))) ∧
    (∀ req : Req, mayAccess req 0x22C true = true →
      (bitAt (regGet s (bankKey (reqBank req) 0x230)).toNat 30 = true →
        (∀ h, exec (.fcPrefetch req h) s = .next (settle (rgRefuse (reqBank req) 0x230 s))) ∧
        exec (.fcFlush req) s = .next (settle (rgRefuse (reqBank req) 0x230 s)) ∧
        exec (.fcInvalidate req) s = .next (settle (rgRefuse (reqBank req) 0x230 s)) ∧
        exec (.fcFlushInvalidate req) s = .next (settle (rgRefuse (reqBank req) 0x230 s))) ∧
      (bitAt (regGet s (bankKey (reqBank req) 0x230)).toNat 30 = false → s.xk.colls = [] → s.xk.redWait = [] →
        (fcRange s (reqBank req) = none → ∀ (h : Fin 3) (c : Instr),
          c ∈ [.fcPrefetch req h, .fcFlush req, .fcInvalidate req, .fcFlushInvalidate req] →
          ∃ v, exec c s = .next v ∧ v.fcache = s.fcache ∧ v.xk = s.xk ∧ SameStores s v ∧
            bitAt (regGet v (bankKey (reqBank req) 0x230)).toNat 30 = true) ∧
        ∀ n l k, fcRange s (reqBank req) = some (n, l, k) →
          (∃ v, exec (.fcFlush req) s = .next v ∧ v.fcache = s.fcache ∧ v.xk = s.xk ∧ SameStores s v ∧
            bitAt (regGet v (bankKey (reqBank req) 0x230)).toNat 30 = true) ∧
          (∀ b : Bool, ∃ v, exec (if b then .fcInvalidate req else .fcFlushInvalidate req) s = .next v ∧
            v.fcache = s.fcache.filter (fun e =>
              !(decide (e.1 / 2 ^ 24 = n) && (decide (l ≤ e.1 % 2 ^ 24) && decide (e.1 % 2 ^ 24 < l + k)))) ∧ SameStores s v ∧
            bitAt (regGet v (bankKey (reqBank req) 0x230)).toNat 30 = true) ∧
          (∀ h : Fin 3, k = 1 → xkReaches s n = true → s.fcache = [] → s.xk.far = [] → s.xk.got = [] → bwReady s 3 = true →
            ∃ v, exec (.fcPrefetch req h) s = .next v ∧ SameStores s v ∧
              bitAt (regGet v (bankKey (reqBank req) 0x230)).toNat 30 = true ∧ ∃ w, v.xk.far = [w] ∧ w.id = some 0 ∧
                w.node = n ∧ w.offset = 256 * l ∧ w.write = false ∧ w.mode = .prefetch))) ∧
    (∀ (tag : Nat) (w : FarWait) (c : Nat), s.xk.far = [w] → w.id = some tag → w.cycle = some c → w.write = false →
      w.mode = .reply → w.tag = 0x18 →
      ((s.xk.cycle + 2 ^ 32 - c) % 2 ^ 32 < 8 → exec (.farRequestTimeout tag) s = .next (settle s)) ∧
      (8 ≤ (s.xk.cycle + 2 ^ 32 - c) % 2 ^ 32 → ∃ v,
        exec (.farRequestTimeout tag) s = .next v ∧ v.xk.far = [] ∧ (tabGet {} v.replies 0).resp = 7 ∧
        bitAt (regGet v 0x204).toNat 2 = true ∧ SameStores s v ∧ v.fcache = s.fcache)) ∧
    ∀ (key : Nat) (l : CollLocal) (c : Nat), s.xk.colls = [l] → l.key = key → l.out = true → l.sent = some c → s.xk.node < 16 →
      (5 ≤ (s.xk.cycle + 2 ^ 32 - c) % 2 ^ 32 → s.arrivals = [] → ∃ v, exec (.collLocal key) s = .next v ∧
        v.xk.colls = [] ∧ bitAt (regGet v 0x90B0).toNat 24 = true ∧ Emit.event 162 ∈ v.emitted ∧ v.handles = s.handles ∧
        v.rings = s.rings ∧ v.near = s.near) ∧
      ((s.xk.cycle + 2 ^ 32 - c) % 2 ^ 32 < 5 → exec (.collLocal key) s = .next (settle s))

/-- DMA_ARM, DMA_STOP_AT_BOUNDARY, DMA_DISABLE, DMA_DRAINED, DMA_REQ_SW, DMA_ERROR_STOP, ERROR_DRAIN_DONE. For a requester
that may write the channel's control register. ARM: on an armed channel nothing; with a parameter out of range CONFIG is
set; with an active set the shadow set is ARMED; without one, aligned, the shadow set becomes the active set, STATE WAIT,
PROGRESS 0; with a source that is not 8 B aligned it stops at once with ALIGN. STOP_AT_BOUNDARY of a working set leaves
STOP_PENDING and no ARMED, of an idle channel no ARMED. DISABLE of a working set with nothing outstanding makes the
channel IDLE and sets DISABLED; else it drains, and ends when nothing is outstanding; of an idle channel it takes ARMED
and STOP_PENDING away. A request on a line paced by one channel counts there, at most 255. An error on a working set
stops it, with its code, its address and ERROR: IDLE with nothing outstanding, else draining, which ends IDLE. The Deep
Store and the other channels stay. (R599, R600, R602, R616, R617, R618, R619, R620, R632, R633, R635, R638) -/
def Obligations.DmaCommandsAct : Prop :=
  ∀ (ch : Fin 16) (s : State),
    (∀ req : Req, mayAccess req (dmaBase ch + 0x80) true = true →
      (dmaArmed s ch = true → exec (.dmaArm req ch) s = .next (settle s)) ∧
      (dmaArmed s ch = false → (regGet s (dmaBase ch + 0x10)).toNat < 8 ∨ 16777216 < (regGet s (dmaBase ch + 0x10)).toNat ∨
          (regGet s (dmaBase ch + 0x14)).toNat = 0 ∨ 65536 < (regGet s (dmaBase ch + 0x14)).toNat ∨
          (regGet s (dmaBase ch + 0x24)).toNat = 0 ∨ 65536 < (regGet s (dmaBase ch + 0x24)).toNat →
        exec (.dmaArm req ch) s = .next (settle (regOr (dmaBase ch + 0x90) 4 s))) ∧
      (dmaArmed s ch = false → 8 ≤ (regGet s (dmaBase ch + 0x10)).toNat →
        (regGet s (dmaBase ch + 0x10)).toNat ≤ 16777216 → 1 ≤ (regGet s (dmaBase ch + 0x14)).toNat →
        (regGet s (dmaBase ch + 0x14)).toNat ≤ 65536 → 1 ≤ (regGet s (dmaBase ch + 0x24)).toNat →
        (regGet s (dmaBase ch + 0x24)).toNat ≤ 65536 → regBits s (dmaBase ch + 0x20) 14 2 ≠ 3 →
        bitAt (regGet s (dmaBase ch + 0x90)).toNat 1 = false → dmaState s ch < 4 →
        ((dmaOf s ch).active = true → exec (.dmaArm req ch) s = .next (settle (regField (dmaBase ch + 0x84) 3 1 1 s))) ∧
        ((dmaOf s ch).active = false → (∀ k ∈ [0, 2, 4, 6, 7, 10], (regGet s (dmaBase ch + 4 * k)).toNat % 8 = 0) →
          ∃ v, exec (.dmaArm req ch) s = .next v ∧ (dmaOf v ch).active = true ∧ (dmaOf v ch).line = 0 ∧
            (dmaOf v ch).outstanding = 0 ∧ regGet v (dmaBase ch + 0x84) = 1 ∧ regGet v (dmaBase ch + 0x88) = 0 ∧
            (∀ k, k < 12 → regGet v (dmaBase ch + 0x40 + 4 * k) = regGet s (dmaBase ch + 4 * k)) ∧
            (∀ j, j ≠ ch.val → dmaOf v j = dmaOf s j) ∧ SameStores s v) ∧
        ((dmaOf s ch).active = false → (regGet s (dmaBase ch)).toNat % 8 ≠ 0 →
          ∃ v, exec (.dmaArm req ch) s = .next v ∧ (dmaOf v ch).active = false ∧
            regGet v (dmaBase ch + 0x84) = w32 (256 * 5) ∧ bitAt (regGet v (dmaBase ch + 0x90)).toNat 1 = true ∧
            (∀ j, j ≠ ch.val → dmaOf v j = dmaOf s j) ∧ SameStores s v)) ∧
      ((dmaOf s ch).active = true → dmaState s ch < 4 →
        exec (.dmaStopAtBoundary req ch) s = .next (settle (regField (dmaBase ch + 0x84) 3 2 2 s))) ∧
      ((dmaOf s ch).active = false →
        exec (.dmaStopAtBoundary req ch) s = .next (settle (regField (dmaBase ch + 0x84) 3 1 0 s)) ∧
        exec (.dmaDisable req ch) s = .next (settle (regField (dmaBase ch + 0x84) 3 2 0 s))) ∧
      ((dmaOf s ch).active = true → dmaState s ch < 4 → ∃ v, exec (.dmaDisable req ch) s = .next v ∧ SameStores s v ∧
        (∀ j, j ≠ ch.val → dmaOf v j = dmaOf s j) ∧ v.dmaBusy ≠ some ch.val ∧ dmaArmed v ch = false ∧
        ((dmaOf s ch).outstanding = 0 → dmaState v ch = 0 ∧ (dmaOf v ch).active = false ∧
          bitAt (regGet v (dmaBase ch + 0x90)).toNat 5 = true) ∧
        ((dmaOf s ch).outstanding ≠ 0 → dmaState v ch = 4 ∧ (dmaOf v ch).active = true))) ∧
    (dmaState s ch = 4 → (dmaOf s ch).outstanding = 0 → ∃ v, exec (.dmaDrained ch) s = .next v ∧ dmaState v ch = 0 ∧
      (dmaOf v ch).active = false ∧ bitAt (regGet v (dmaBase ch + 0x90)).toNat 5 = true ∧ SameStores s v ∧
      ∀ j, j ≠ ch.val → dmaOf v j = dmaOf s j) ∧
    (∀ (req : Req) (j : Fin 32), mayAccess req 0x5010 true = true → dmaPaced s j ch = true →
      (∀ i, i < 16 → i ≠ ch.val → dmaPaced s j i = false) →
      (regBits s (dmaBase ch + 0xA0) 0 8 < 255 → exec (.dmaReqSw req (w32 (2 ^ j.val))) s = .next (settle
        (regField (dmaBase ch + 0xA0) 0 8 (regBits s (dmaBase ch + 0xA0) 0 8 + 1) s))) ∧
      (regBits s (dmaBase ch + 0xA0) 0 8 = 255 →
        exec (.dmaReqSw req (w32 (2 ^ j.val))) s = .next (settle (regOr (dmaBase ch + 0x90) 0x10 s)))) ∧
    (∀ (code : Fin 9) (a : BitVec 64), (dmaOf s ch).active = true → dmaState s ch < 4 → code ≠ 0 →
      ∃ v, exec (.dmaErrorStop ch code a) s = .next v ∧ (dmaOf v ch).active = decide ((dmaOf s ch).outstanding ≠ 0) ∧
        regGet v (dmaBase ch + 0x84) = w32 (256 * code + (if (dmaOf s ch).outstanding = 0 then 0 else 5)) ∧
        regGet v (dmaBase ch + 0x98) = w32 a.toNat ∧
        regGet v (dmaBase ch + 0x9C) = w32 (a.toNat / 2 ^ 32) ∧ bitAt (regGet v (dmaBase ch + 0x90)).toNat 1 = true ∧
        SameStores s v ∧ ∀ j, j ≠ ch.val → dmaOf v j = dmaOf s j) ∧
    (dmaState s ch = 5 → (dmaOf s ch).outstanding = 0 → ∃ v, exec (.errorDrainDone ch) s = .next v ∧ dmaState v ch = 0 ∧
      (dmaOf v ch).active = false ∧ SameStores s v ∧ ∀ j, j ≠ ch.val → dmaOf v j = dmaOf s j)

/-- DMA_SERVICE_UNIT, DMA_BURST_ANSWERED, DMA_SET_COMPLETE. With no tile-op, no stream group and no core about to leave, a
service unit with nothing pending and none under way changes nothing. The lowest-numbered pending channel, not paced,
whose one 64 B line goes from one place of the local Deep Store to another that does not overlap it, both accesses
passing the checks, class HOST having two units and no arrival counter bound, copies exactly those bytes, counts the
line in PROGRESS and drains. When a burst before the last one of a set with EV_MODE per burst has been answered, EV_96+n
pulses once; with none, nothing changes. A drained set with nothing outstanding completes: DONE is set, with EV_MODE per
set EV_96+n pulses, and the channel is IDLE when no set is armed; an armed one, aligned and without STOP_PENDING, becomes
the active set. (R594, R595, R596, R608, R610, R615, R623, R627, R628, R629, R630, R631) -/
def Obligations.DmaMovesLinesAndCompletes : Prop :=
  ∀ s : State,
    (∀ d, Quiet s → s.dmaBusy = none → (∀ n, n < 16 → dmaPending s n = false) →
      exec (.dmaServiceUnit d) s = .next (settle s)) ∧
    (∀ (d : List Byte) (n : Fin 16) (a b : Nat), Quiet s → s.arrivals = [] → s.dmaBusy = none → dmaPending s n = true →
      (∀ i, i < n.val → dmaPending s i = false) → actBit s n 5 = false → actBit s n 0 = false → actBit s n 1 = false →
      actBit s n 3 = false → actLines s n = 1 → actLen s n = 64 → (dmaOf s n).line = 0 → 1 ≤ actBurst s n →
      actAddr s n 0 = a → actAddr s n 8 = b → a < 0x40000000 → b < 0x40000000 → a % 64 = 0 → b % 64 = 0 → a ≠ b →
      Units s 4 2 → Passes s ⟨0x19, n, .addr a, true, false, 64, []⟩ →
      Passes s ⟨0x19, n, .addr b, true, true, 64, memBytes s a 64⟩ →
      ∃ v, exec (.dmaServiceUnit d) s = .next v ∧ memBytes v b 64 = memBytes s a 64 ∧
        (∀ x, x < b ∨ b + 64 ≤ x → memByte v x = memByte s x) ∧ regGet v (dmaBase n + 0x88) = 1 ∧ dmaState v n = 3 ∧
        v.dmaBusy = none ∧ (dmaOf v n).line = 1 ∧ (∀ i, i ≠ n.val → dmaOf v i = dmaOf s i) ∧ v.handles = s.handles ∧
        v.rings = s.rings ∧ v.near = s.near) ∧
    (∀ ch : Fin 16,
      ((dmaOf s ch).active = true → 0 < dmaEarly s ch → dmaAnswered s ch = true → dmaEvMode s ch = 2 →
        ∃ v, exec (.dmaBurstAnswered ch) s = .next v ∧ (dmaOf v ch).bursts = (dmaOf s ch).bursts - 1 ∧
          Emit.event (96 + ch) ∈ v.emitted ∧ SameStores s v ∧ ∀ j, j ≠ ch.val → dmaOf v j = dmaOf s j) ∧
      (dmaEarly s ch = 0 → exec (.dmaBurstAnswered ch) s = .next (settle s))) ∧
    ∀ ch : Fin 16, (dmaOf s ch).active = true → dmaState s ch = 3 → (dmaOf s ch).outstanding = 0 →
      (dmaArmed s ch = false → ∃ v, exec (.dmaSetComplete ch) s = .next v ∧ (dmaOf v ch).active = false ∧
        dmaState v ch = 0 ∧ bitAt (regGet v (dmaBase ch + 0x90)).toNat 0 = true ∧
        regGet v (dmaBase ch + 0x8C) = w32 ((dmaOf s ch).crc ^^^ 0xFFFFFFFF) ∧
        (dmaEvMode s ch = 1 → Emit.event (96 + ch) ∈ v.emitted) ∧ SameStores s v ∧
        ∀ j, j ≠ ch.val → dmaOf v j = dmaOf s j) ∧
      (dmaArmed s ch = true → bitAt (regGet s (dmaBase ch + 0x84)).toNat 4 = false →
        (∀ k ∈ [0, 2, 4, 6, 7, 10], (regGet s (dmaBase ch + 4 * k)).toNat % 8 = 0) →
        ∃ v, exec (.dmaSetComplete ch) s = .next v ∧ (dmaOf v ch).active = true ∧ dmaState v ch = 1 ∧
          (dmaOf v ch).line = 0 ∧ bitAt (regGet v (dmaBase ch + 0x90)).toNat 0 = true ∧
          (dmaEvMode s ch = 1 → Emit.event (96 + ch) ∈ v.emitted) ∧ SameStores s v ∧
          ∀ j, j ≠ ch.val → dmaOf v j = dmaOf s j)

/-- TIC_CLAIM, TIC_COMPLETE, TR_HALT_ACK, HALT_TIMEOUT, TR_EV_PULSE, TIMER_INTERRUPT. A claim returns an enabled pending
source above the threshold such that no other has a higher priority, nor the same with a lower number; it is then
claimed and not pending. Without one it returns 0 and changes nothing. Completion of a claimed source ends the claim,
and a pulse kept meanwhile makes it pending. A requested halt is acknowledged; when the time runs out first, a running
core that holds nothing is stopped by force, which its event bit tells. A software event of its owner pulses EV_144+k,
of another core it is counted as an error. When TS reaches the compare value a core in WFI wakes. Memory stays. (R653,
R654, R655, R656, R658, R659, R660, R668, R669, R670, R673, 11_trestle_cluster.md) -/
def Obligations.TrestleInterruptControllerAndHalts : Prop :=
  ∀ (c : Fin 8) (s : State),
    (∀ (m : Bool) (n : Nat), ticBest s c m = some n → n < 256 ∧ ticPending s n = true ∧ ticEnabled s c m n = true ∧
      fieldOf (clReg s (ticThr c m)) 0 3 < ticPrio s n ∧
      (∀ j, j < 256 → ticPending s j = true → ticEnabled s c m j = true → fieldOf (clReg s (ticThr c m)) 0 3 < ticPrio s j →
        ticPrio s j < ticPrio s n ∨ ticPrio s j = ticPrio s n ∧ n ≤ j) ∧
      ∃ v, exec (.ticClaim c m) s = .next v ∧ tabGet {} v.replies (1 + c.val) = { data := leBytes 4 (0x80000000 + n) } ∧
        v.tic.claimed = n :: s.tic.claimed ∧ n ∉ v.tic.pend ∧ (∀ j, j ≠ n → (j ∈ v.tic.pend ↔ j ∈ s.tic.pend)) ∧
        v.regs = s.regs ∧ v.harts = s.harts ∧ SameStores s v) ∧
    (∀ m : Bool, ticBest s c m = none → ∃ v, exec (.ticClaim c m) s = .next v ∧
      tabGet {} v.replies (1 + c.val) = { data := leBytes 4 0 } ∧ v.tic = s.tic ∧ v.regs = s.regs ∧ SameStores s v) ∧
    (∀ n : Fin 256, (n.val ∈ s.tic.claimed → ∃ v, exec (.ticComplete c n) s = .next v ∧ n.val ∉ v.tic.claimed ∧
        n.val ∉ v.tic.kept ∧ (n.val ∈ s.tic.kept → n.val ∈ v.tic.pend) ∧ (∀ j, j ∈ s.tic.pend → j ∈ v.tic.pend) ∧
        v.regs = s.regs ∧ SameStores s v) ∧
      (n.val ∉ s.tic.claimed → exec (.ticComplete c n) s = .next (settle s))) ∧
    ((hartOf s c).state = .haltRequested → ∃ v, exec (.trHaltAck c) s = .next v ∧
      hartOf v c = { hartOf s c with haltAck := true } ∧ (∀ j, j ≠ c.val → hartOf v j = hartOf s j) ∧ v.regs = s.regs ∧
      SameStores s v) ∧
    ((hartOf s c).state ≠ .haltRequested → exec (.trHaltAck c) s = .next (settle s)) ∧
    (∀ (t d k : Nat) (u : State), timeTo t s = u → (hartOf u c).haltBy = some (d, k) →
      (u.ts < d → exec (.haltTimeout c t) s = .next (settle u)) ∧
      (d ≤ u.ts → trRuns u c = true → Quiet u → u.rings = [] → u.sems = [] → ∃ v, exec (.haltTimeout c t) s = .next v ∧
        (hartOf v c).state = .stopped ∧ (hartOf v c).haltBy = none ∧ bitAt (regGet v 0x304).toNat (8 + c) = true ∧
        (∀ j, j ≠ c.val → hartOf v j = hartOf u j) ∧ v.mem = u.mem ∧ v.near = u.near)) ∧
    (∀ k : Fin 16, Quiet s →
      (tabGet? s.evOwner k = some c.val → ∃ v, exec (.trEvPulse c k) s = .next v ∧ Emit.event (144 + k) ∈ v.emitted ∧
        v.harts = s.harts ∧ SameStores s v) ∧
      (tabGet? s.evOwner k ≠ some c.val → ∃ v, exec (.trEvPulse c k) s = .next v ∧ Counted 0x30C s v ∧
        bitAt (regGet v 0x304).toNat 18 = true ∧ v.harts = s.harts ∧ SameStores s v)) ∧
    ∀ (m : Bool) (t : Nat) (u : State), timeTo t s = u →
      ((if m then hcsr (hartOf u c) 0x14D else mtimecmp u c) ≤ u.ts → ∃ v, exec (.timerInterrupt c m t) s = .next v ∧
        hartOf v c = { hartOf u c with wfi := false } ∧ (∀ j, j ≠ c.val → hartOf v j = hartOf u j) ∧ v.regs = u.regs ∧
        SameStores u v) ∧
      (u.ts < (if m then hcsr (hartOf u c) 0x14D else mtimecmp u c) →
        exec (.timerInterrupt c m t) s = .next (settle u))

/-- TRESTLE_INSTRUCTION: integer operations, branches, a system call, its return, an interrupt (model's choice, log entry
31). That the standards R641 names give these effects is PRESUMED (log entry 31). With no tile-op, no stream group and no
core about to leave, a core that does not run, is in Debug Mode, or waits in WFI with no enabled interrupt pending,
changes nothing. A fetched ADDI or ADD writes the sum modulo 2^64 to its destination, nothing to x0, no other integer
register, and the pc advances by 4; a branch goes to its target when its condition holds and to the next instruction
otherwise. In M-mode ECALL saves the pc and cause 11, clears MIE keeping it in MPIE, and goes to the trap vector; MRET
returns to the saved pc and mode; an interrupt that is to be taken saves its cause and the pc, clears MIE and goes to its
vector. Memory stays, and in all but ECALL and MRET every other core. (R640, R641, R654, R658, 11_trestle_cluster.md) -/
def Obligations.TrestleCoreExecutesAnInstruction : Prop :=
  ∀ (c : Fin 8) (s : State),
    (Quiet s → trRuns s c = false ∨ (hartOf s c).dbg = true ∨ Executes c s ∧ (hartOf s c).wfi = true ∧
        mipOf c (hartOf s c) s &&& hcsr (hartOf s c) 0x304 = 0 →
      exec (.trestleInstruction c) s = .next (settle s)) ∧
    (∀ (i : Nat) (r : State), Fetched c s i r → Quiet r →
      (i % 128 = 0x13 ∧ fF3 i = 0 ∨ i % 128 = 0x33 ∧ fF3 i = 0 ∧ fF7 i = 0 → ∃ v, exec (.trestleInstruction c) s = .next v ∧
        xGet (hartOf v c) (fRd i) = (if fRd i = 0 then 0 else
          (xGet (hartOf s c) (fRs1 i) + (if i % 128 = 0x13 then immI i else xGet (hartOf s c) (fRs2 i))) % 2 ^ 64) ∧
        (∀ k, k ≠ fRd i → xGet (hartOf v c) k = xGet (hartOf s c) k) ∧ (hartOf v c).pc = (hartOf s c).pc + 4 ∧
        (hartOf v c).priv = (hartOf s c).priv ∧ (∀ j, j ≠ c.val → hartOf v j = hartOf r j) ∧ SameStores r v) ∧
      (∀ b : Bool, i % 128 = 0x63 → branchTaken (fF3 i) (xGet (hartOf s c) (fRs1 i)) (xGet (hartOf s c) (fRs2 i)) = some b →
        ∃ v, exec (.trestleInstruction c) s = .next v ∧
          (hartOf v c).pc = (hartOf s c).pc + (if b then BitVec.ofNat 64 (immB i) else 4) ∧
          (∀ k, xGet (hartOf v c) k = xGet (hartOf s c) k) ∧ (∀ j, j ≠ c.val → hartOf v j = hartOf r j) ∧ SameStores r v) ∧
      (i = 0x00000073 → (hartOf s c).priv = 3 → ∃ v, exec (.trestleInstruction c) s = .next v ∧
        hcsr (hartOf v c) 0x341 = (hartOf s c).pc.toNat ∧ hcsr (hartOf v c) 0x342 = 11 ∧ (hartOf v c).priv = 3 ∧
        (hartOf v c).pc = BitVec.ofNat 64 (hcsr (hartOf s c) 0x305 / 4 * 4) ∧
        bitAt (hcsr (hartOf v c) 0x300) 3 = false ∧
        bitAt (hcsr (hartOf v c) 0x300) 7 = bitAt (hcsr (hartOf s c) 0x300) 3 ∧ bitsOf (hcsr (hartOf v c) 0x300) 11 2 = 3 ∧
        (∀ k, xGet (hartOf v c) k = xGet (hartOf s c) k) ∧ SameStores r v) ∧
      (i = 0x30200073 → (hartOf s c).priv = 3 → ∃ v, exec (.trestleInstruction c) s = .next v ∧
        (hartOf v c).pc = BitVec.ofNat 64 (hcsr (hartOf s c) 0x341) ∧
        (hartOf v c).priv = bitsOf (hcsr (hartOf s c) 0x300) 11 2 ∧
        bitAt (hcsr (hartOf v c) 0x300) 3 = bitAt (hcsr (hartOf s c) 0x300) 7 ∧
        (∀ k, xGet (hartOf v c) k = xGet (hartOf s c) k) ∧ SameStores r v)) ∧
    ∀ n : Nat, Quiet s → Executes c s → (hartOf s c).wfi = false → (hartOf s c).priv = 3 →
      trIrq c (hartOf s c) s = some n → ∃ v, exec (.trestleInstruction c) s = .next v ∧
        hcsr (hartOf v c) 0x342 = n + 2 ^ 63 ∧ hcsr (hartOf v c) 0x341 = (hartOf s c).pc.toNat ∧
        (hartOf v c).pc = BitVec.ofNat 64
          (hcsr (hartOf s c) 0x305 / 4 * 4 + if hcsr (hartOf s c) 0x305 % 4 = 1 then 4 * n else 0) ∧
        bitAt (hcsr (hartOf v c) 0x300) 3 = false ∧ (∀ k, xGet (hartOf v c) k = xGet (hartOf s c) k) ∧ v.mem = s.mem ∧
        ∀ j, j ≠ c.val → hartOf v j = hartOf s j

/-- DOORBELL, IRQ_NQ_TAIL, IRQ_EOI, MSIX_UNMASK, FLT_LOG_SEL, FLT_LOG_TAIL. For a requester that may make the write; one
that may not is denied. GO at a mailbox that is IDLE or DONE makes it PENDING, clears RSP_NEW and puts its doorbell last;
else it only sets DB_IGNORED. A notice tail within the entries held moves, another sets its error bit; so for the log's
tail. IRQ_EOI arms the source again: masked or not asserted it stays armed; unmasked and asserted it sends its message at
once. Unmasking a vector clears its mask bit and no other; its pending message is sent, and stays pending while the
function is masked or in D3hot. FLT_LOG_SEL of an entry held puts its 32 bytes into the window with VALID, of another one
clears VALID. The Deep Store, near stores, handles, rings stay. (R692, R693, R695, R708, R720, R721, R722, R879, R880) -/
def Obligations.HostRegisterRowsAct : Prop :=
  ∀ (req : Req) (s : State),
    (∀ mb : Fin 8,
      (mayAccess req (mbBase mb + 0x100) true = false →
        exec (.doorbell req mb) s = .next (settle (regDeny req (mbBase mb + 0x100) s))) ∧
      (mayAccess req (mbBase mb + 0x100) true = true →
        (mbFree s mb = true → ∃ v, exec (.doorbell req mb) s = .next v ∧ mbState v mb = 1 ∧
          bitAt (regGet v (mbBase mb + 0x104)).toNat 3 = false ∧ (mbOf v mb).order = s.sup.bells + 1 ∧
          (mbOf v mb).req = (mbOf s mb).req ∧ (∀ j, j ≠ mb.val → mbOf v j = mbOf s j) ∧ SameStores s v) ∧
        (mbFree s mb = false → exec (.doorbell req mb) s = .next (settle (regOr (mbBase mb + 0x104) 0x10 s))))) ∧
    (∀ w : Word,
      (mayAccess req 0x2208 true = false → exec (.irqNqTail req w) s = .next (settle (regDeny req 0x2208 s))) ∧
      (mayAccess req 0x2208 true = true →
        ((w.toNat % 256 + 256 - (regGet s 0x2208).toNat) % 256 ≤ noticeOcc s →
          exec (.irqNqTail req w) s = .next (settle (regSet 0x2208 (w32 (w.toNat % 256)) s))) ∧
        (noticeOcc s < (w.toNat % 256 + 256 - (regGet s 0x2208).toNat) % 256 →
          exec (.irqNqTail req w) s = .next (settle (regOr 0x220C 4 s))))) ∧
    (∀ i : Fin 64,
      (mayAccess req 0x2010 true = false → exec (.irqEoi req i) s = .next (settle (regDeny req 0x2010 s))) ∧
      (mayAccess req 0x2010 true = true → ∃ v, exec (.irqEoi req i) s = .next v ∧ v.regs = s.regs ∧
        SameStores s v ∧ (irqMasked s i = true ∨ irqAsserted s i = false → bitAt v.irqArmed i = true) ∧
        (irqMasked s i = false → irqAsserted s i = true → bitAt v.irqArmed i = false ∧
          (msixMasked s (regBits s (0x2100 + 4 * i) 0 6) = false →
            Emit.msix (regBits s (0x2100 + 4 * i) 0 6) ∈ v.emitted)))) ∧
    (∀ n : Fin 64, ∃ v, exec (.msixUnmask n) s = .next v ∧ v.regs = s.regs ∧ SameStores s v ∧
      bitAt (msixWord v (4 * n + 3)).toNat 0 = false ∧ (∀ k, k ≠ 4 * n.val + 3 → msixWord v k = msixWord s k) ∧
      (bitAt s.pba n = true →
        (s.funcMask = false → s.pwr.d3hot = false → Emit.msix n ∈ v.emitted ∧ bitAt v.pba n = false) ∧
        (s.funcMask = true ∨ s.pwr.d3hot = true → bitAt v.pba n = true))) ∧
    (∀ w : Word,
      (mayAccess req 0x6004 true = false → exec (.fltLogTail req w) s = .next (settle (regDeny req 0x6004 s))) ∧
      (mayAccess req 0x6004 true = true →
        ((w.toNat + 2 ^ 32 - (regGet s 0x6004).toNat) % 2 ^ 32 ≤
            ((regGet s 0x6000).toNat + 2 ^ 32 - (regGet s 0x6004).toNat) % 2 ^ 32 →
          exec (.fltLogTail req w) s = .next (settle (regSet 0x6004 w s))) ∧
        (((regGet s 0x6000).toNat + 2 ^ 32 - (regGet s 0x6004).toNat) % 2 ^ 32 <
            (w.toNat + 2 ^ 32 - (regGet s 0x6004).toNat) % 2 ^ 32 →
          exec (.fltLogTail req w) s = .next (settle (regOr 0x6010 0x400 s))))) ∧
    ∀ (c : Word) (d : Nat), d = ((regGet s 0x6000).toNat + 2 ^ 32 - c.toNat) % 2 ^ 32 →
      (mayAccess req 0x6100 true = false → exec (.fltLogSel req c) s = .next (settle (regDeny req 0x6100 s))) ∧
      (mayAccess req 0x6100 true = true →
        (∀ e, tabGet? s.log (c.toNat % 256) = some e → 1 ≤ d → d ≤ 256 → ∃ v, exec (.fltLogSel req c) s = .next v ∧
          (∀ k, k < 8 → regGet v (bankKey (reqBank req) (0x6120 + 4 * k)) = w32 (leAt (logBytes e) (4 * k) 4)) ∧
          bitAt (regGet v (bankKey (reqBank req) 0x6104)).toNat 31 = true ∧ v.log = s.log ∧ SameStores s v) ∧
        (d = 0 ∨ 256 < d ∨ tabGet? s.log (c.toNat % 256) = none → ∃ v, exec (.fltLogSel req c) s = .next v ∧
          bitAt (regGet v (bankKey (reqBank req) 0x6104)).toNat 31 = false ∧ v.log = s.log ∧ SameStores s v))

/-- MAILBOX_SERVE, LONG_COMMAND_COMPLETE, SUP_HEARTBEAT, HEARTBEAT_TIMEOUT, SUP_FATAL_FAULT, SUP_TAKEOVER,
HANDOVER_COMPLETE. The mailbox whose doorbell came first is served as RequestsAreCheckedInOrder says; with none, or no
supervisor serving, nothing happens. A NOP in it, next in its sequence, is answered OK with its payload: the record and LAST
follow, STATE is DONE (nothing scheduled). A long command with its final status posts MB_n_NOTE and NOTE_NEW; the flash
commands and SUP_RELEASE's timeout end here; a command still at work, and one whose flash step a warning holds, waits
(nothing scheduled, no arrival counter). A heartbeat counts; a standby that does not answer is no longer STANDBY_OK, one
that answers again is, unless it is held. Without a heartbeat for 3 ms, or at a fatal fault, the active supervisor is
failed; how far it was with a request is a free value. Takeover makes the other active and holds the failed one; BUSY
mailboxes are answered. A hand-over that ends makes the other active, with the staged firmware, and finishes its command.
(R678, R680, R681, R682, R685, R686, R692, R695, R698, R703, R733, 12_supervisor_mailboxes.md) -/
def Obligations.MailboxesAndSupervisorsWork : Prop :=
  ∀ s : State,
    (∀ (n : Nat) (h : Hdr) (op len : Nat), mbHead s n = (h, op, len) → mbFirst s = some n → serves s = true →
      (n < 8 ∧ mbState s n = 1 ∧ ∀ j, j < 8 → mbState s j = 1 → (mbOf s n).order ≤ (mbOf s j).order) ∧
      exec .mailboxServe s = .next (settle (schedTick (serveOne h op len ((mbReq s n (8 + min len 248)).drop 8) (cmdOf op)
        (regField (mbBase n + 0x104) 0 3 2 s)))) ∧
      (op = 0x0100 → len ≤ 248 → (h.seq.toNat + 65536 - regBits s (mbBase n + 0x108) 0 16) % 65536 = 1 →
        h.flags.toNat ≤ 1 → Quiet s → s.xk.relayBusy = none → ∃ v, exec .mailboxServe s = .next v ∧ mbState v n = 3 ∧
          (mbOf v n).rsp = msgBytes 0x0100 h.seq.toNat 0 ((mbReq s n (8 + len)).drop 8) ∧ (mbOf v n).record = (mbOf v n).rsp ∧
          regBits v (mbBase n + 0x108) 0 16 = h.seq.toNat ∧ (∀ j, j ≠ n → mbOf v j = mbOf s j) ∧ SameStores s v)) ∧
    (mbFirst s = none ∨ serves s = false → exec .mailboxServe s = .next (settle s)) ∧
    (∀ (key : Nat) (l : LongCmd), Quiet s → s.arrivals = [] → s.sup.failed = false → tabGet? s.sup.longs key = some l →
      (∀ (st d : Nat) (res : List Byte), l.done = some (st, d, res) →
        ((records l = true ∧ st = 0 ∧ flashHeld s = true) ∨ (l.opcode = 0x0602 ∧ ∃ x, l.deadline = some x ∧ s.ts < x) →
          exec (.longCommandComplete key) s = .next (settle s)) ∧
        ((records l = true → st = 0 → flashHeld s = false) →
          (l.opcode = 0x0602 → s.xk.leaving = false ∧ ∀ x ∈ l.deadline, x ≤ s.ts) →
          (l.opcode = 0x0203 → l.aux ≠ 9 ∧ ∀ e ∈ s.sup.longs, e.2.opcode = 0x0203 → e.1 = key) →
          ∃ v, exec (.longCommandComplete key) s = .next v ∧ Posted key st l s v)) ∧
      (l.done = none →
        (l.opcode ≠ 0x0706 → l.opcode ≠ 0x0707 → l.opcode ≠ 0x0902 → l.opcode ≠ 0x0904 →
          exec (.longCommandComplete key) s = .next (settle s)) ∧
        (l.opcode ≠ 0x0707 → flashHeld s = true → exec (.longCommandComplete key) s = .next (settle s)) ∧
        (l.opcode = 0x0707 → ((∀ x ∈ l.deadline, s.ts < x) → exec (.longCommandComplete key) s = .next (settle s)) ∧
          ∀ x, l.deadline = some x → x ≤ s.ts → ∃ v, exec (.longCommandComplete key) s = .next v ∧ Posted key 0x40 l s v) ∧
        (flashHeld s = false →
          (l.opcode = 0x0706 → ∃ v, exec (.longCommandComplete key) s = .next v ∧ Posted key 0 l s v ∧
            v.flash = (cfgRecord s).1.flash) ∧
          (l.opcode = 0x0902 → ∃ v, exec (.longCommandComplete key) s = .next v ∧ Posted key 0 l s v ∧
            v.flash = (cfgCommit s).1.flash ∧ v.sup.cfgStaged = []) ∧
          (l.opcode = 0x0904 → rangeIn s (leAt l.payload 0 2) (leAt l.payload 4 4) (leAt l.payload 8 4) = true →
            ∀ (q : State) (d : List Byte),
              bufRead (leAt l.payload 0 2) (leAt l.payload 4 4) (leAt l.payload 8 4) s = (q, some d) →
              ∃ v, exec (.longCommandComplete key) s = .next v ∧
                (fwRefusal d = none ∧ Posted key 0 l s v ∧ v.flash = (fwStage d q).flash ∧
                  v.sup.staged = some (1 - q.sup.fwSlot, leAt d 4 4) ∨
                fwRefusal d ≠ none ∧ Posted key 0x12 l s v))))) ∧
    (∀ key, Quiet s → s.sup.failed = true ∨ tabGet? s.sup.longs key = none →
      exec (.longCommandComplete key) s = .next (settle s)) ∧
    ∀ (t : Nat) (u b : State), timeTo t s = u → b = supMod (fun x => { x with failed := true }) (freeStep u) →
      (u.sup.failed = true ∨ regBits u 0x20 8 4 = 0 ∨ t < u.sup.lastHb + 1000000 →
        ∀ a, exec (.supHeartbeat a t) s = .next (settle u)) ∧
      (u.sup.failed = false → regBits u 0x20 8 4 ≠ 0 → u.sup.lastHb + 1000000 ≤ t → ∀ a : Bool,
        ∃ v, exec (.supHeartbeat a t) s = .next v ∧ regGet v 0x50 = regGet u 0x50 + 1 ∧ v.sup.lastHb = t ∧
          standbyOk v = (a && (standbyOk u || u.sup.held.isNone || supReleased u)) ∧
          (standbyOk u = true → a = false → bitAt (regGet v 0x54).toNat 2 = true) ∧
          (standbyOk u = false → standbyOk v = true → bitAt (regGet v 0x54).toNat 3 = true ∧ v.sup.held = none) ∧
          SameStores u v ∧ v.mboxes = u.mboxes) ∧
      (u.sup.failed = true ∨ standbyOk u = false ∨ regBits u 0x20 8 4 = 0 ∨ t < u.sup.lastHb + 3000000 →
        exec (.heartbeatTimeout t) s = .next (settle u)) ∧
      (u.sup.failed = true ∨ regBits u 0x20 8 4 = 0 → exec (.supFatalFault t) s = .next (settle u)) ∧
      (u.sup.failed = false → regBits u 0x20 8 4 ≠ 0 → ∃ w : State, exec (.supFatalFault t) s = .next (settle w) ∧
        (standbyOk u = true → u.sup.lastHb + 3000000 ≤ t → exec (.heartbeatTimeout t) s = .next (settle w)) ∧
        (w = b ∨ ∃ n, serves u = true ∧ mbFirst u = some n ∧ (w = regField (mbBase n + 0x104) 0 3 2 b ∨
          w = schedTick (mbRun n (regField (mbBase n + 0x104) 0 3 2 b)).1))) ∧
      (u.sup.failed = false ∨ standbyOk u = false → exec (.supTakeover t) s = .next (settle u)) ∧
      (u.sup.failed = true → standbyOk u = true →
        ∃ v, exec (.supTakeover t) s = .next v ∧ v.sup.failed = false ∧ v.sup.held = some (activeSup u) ∧
          activeSup v = 1 - activeSup u ∧ standbyOk v = false ∧ bitAt (regGet v 0x54).toNat 0 = true ∧
          (∀ n, n < 8 → mbState u n = 2 → n ≠ 7 ∨ u.xk.relayBusy = none ∧ u.xk.relayIn = [] → mbState v n = 3) ∧
          v.sup.handover = none ∧ v.handles = u.handles ∧ v.rings = u.rings) ∧
      (u.sup.handover = none ∨ u.sup.failed = true → exec (.handoverComplete t) s = .next (settle u)) ∧
      ∀ (k : Nat) (l : LongCmd), u.sup.handover = some k → u.sup.failed = false → tabGet? u.sup.longs k = some l →
        ∃ v, exec (.handoverComplete t) s = .next v ∧ activeSup v = 1 - activeSup u ∧ v.sup.handover = none ∧
          (∀ slot ver : Nat, u.sup.staged = some (slot, ver) → v.sup.fwSlot = slot ∧ regGet v 8 = w32 ver ∧ v.sup.staged = none) ∧
          (u.sup.staged = none → v.sup.fwSlot = u.sup.fwSlot ∧ regGet v 8 = regGet u 8) ∧
          Finished k 0 0 [b8 (1 - activeSup u), 0, 0, 0] v ∧ v.handles = u.handles ∧ v.rings = u.rings

/-- I2C_WRITE, I2C_READ, UART_FRAME. Words written over I²C from a pointer on that is a multiple of 4, into the request
buffer of mailbox 6 while it takes requests, go there in order, a partial last word is discarded; bit 0 at 0x100 makes the
mailbox PENDING as the I²C's; from 0x200 on, and at any other pointer, nothing is written (nothing scheduled). A read
returns, from a pointer that is a multiple of 4 on, the response of mailbox 6 while it is DONE, the mailbox's registers,
the identity registers, low byte first, and zeros from 0x240 on; it changes nothing else but the free values drawn. A good
UART frame fills the request of mailbox 6, marks it as the UART's and makes it PENDING; while the mailbox is taken the
frame is answered BUSY; a bad frame has no effect. (R689, R694, R711, R712, R714, R715, R716, 12_supervisor_mailboxes.md) -/
def Obligations.ManagementPortMovesMailboxSix : Prop :=
  ∀ s : State,
    (∀ (hi lo : Byte) (d : List Byte) (p n : Nat), Quiet s → p = hi.toNat * 256 + lo.toNat → n = d.length / 4 * 4 →
      (p % 4 = 0 → p + d.length ≤ 0x100 → mbFree s 6 = true → ∃ v, exec (.i2cWrite (hi :: lo :: d)) s = .next v ∧
        (natsFrom p n).map (tabGet 0 (mbOf v 6).req) = d.take n ∧
        (∀ k, k < p ∨ p + n ≤ k → tabGet 0 (mbOf v 6).req k = tabGet 0 (mbOf s 6).req k) ∧ v.regs = s.regs ∧
        (∀ j, j ≠ 6 → mbOf v j = mbOf s j) ∧ SameStores s v) ∧
      (p = 0x100 → d.length = 4 → bitAt (leAt d 0 4) 0 = true → mbFree s 6 = true →
        ∃ v, exec (.i2cWrite (hi :: lo :: d)) s = .next v ∧ mbState v 6 = 1 ∧ bitAt (regGet v 0x1D04).toNat 8 = false ∧
          (mbOf v 6).req = (mbOf s 6).req ∧ (mbOf v 6).order = s.sup.bells + 1 ∧ SameStores s v) ∧
      (0x200 ≤ p → p + d.length ≤ 65536 → exec (.i2cWrite (hi :: lo :: d)) s = .next (settle s)) ∧
      (p % 4 ≠ 0 → exec (.i2cWrite (hi :: lo :: d)) s = .next (settle s))) ∧
    (∀ (p : BitVec 16) (len k : Nat), k = cdiv len 4 * 4 →
      (p.toNat % 4 = 0 → p.toNat + k ≤ 0x100 → mbState s 6 = 3 → ∃ v, exec (.i2cRead p len) s = .next v ∧
        Emit.i2c (((natsFrom p.toNat k).map fun i => (mbOf s 6).rsp.getD i 0).take len) ∈ v.emitted ∧ v.regs = s.regs ∧
        v.mboxes = s.mboxes ∧ SameStores s v) ∧
      (p.toNat % 4 = 0 → 0x100 ≤ p.toNat → p.toNat + k ≤ 0x200 → exec (.i2cRead p len) s = .next (settle (emit (.i2c
        (((natsFrom 0 (cdiv len 4)).flatMap fun i => leBytes 4 (regRead32 9 (0x1C00 + p.toNat + 4 * i) s).toNat).take len)) s))) ∧
      (p.toNat % 4 = 0 → 0x200 ≤ p.toNat → p.toNat + k ≤ 0x240 → exec (.i2cRead p len) s = .next (settle (emit (.i2c
        (((natsFrom 0 (cdiv len 4)).flatMap fun i => leBytes 4 (regRead32 9 (p.toNat - 0x200 + 4 * i) s).toNat).take len)) s))) ∧
      (p.toNat % 4 = 0 → 0x240 ≤ p.toNat → p.toNat + k ≤ 65536 →
        exec (.i2cRead p len) s = .next (settle (emit (.i2c (List.replicate len 0)) s))) ∧
      (p.toNat % 4 ≠ 0 → exec (.i2cRead p len) s = .next (settle s))) ∧
    ∀ (d : List Byte) (gap : Bool),
      (uartGood d gap = true → mbFree s 6 = true → ∃ v, exec (.uartFrame d gap) s = .next v ∧ mbState v 6 = 1 ∧
        bitAt (regGet v 0x1D04).toNat 8 = true ∧
        mbReq v 6 (8 + leAt d 6 2) = (d.drop 2).take (8 + leAt d 6 2) ∧ (∀ j, j ≠ 6 → mbOf v j = mbOf s j) ∧ SameStores s v) ∧
      (uartGood d gap = true → mbFree s 6 = false → exec (.uartFrame d gap) s = .next (settle
        (emit (.uart (uartBytes (msgBytes (leAt d 2 2) (leAt d 4 2) 0x20 []))) s))) ∧
      (uartGood d gap = false → exec (.uartFrame d gap) s = .next (settle s))

/-- A request is checked for its sequence, opcode and rights, in that order, before the command. For a request of LENGTH
at most 248, whatever command f the opcode names: d = 0 returns the recorded response of LAST and commits nothing (before
any request, a free value); any other d but 1 is answered SEQ, not committed; with d = 1 it is committed with BAD_OPCODE
where no command is named, with DENIED where the right lacks, else with the command's own status; LAST becomes its sequence,
record and response are the answer. A status other than OK and ACCEPTED moves nothing else but the posting. LENGTH above 248
is BAD_LENGTH, not committed. (R676, R697, R698) -/
def Obligations.RequestsAreCheckedInOrder : Prop :=
  ∀ (h : Hdr) (op len : Nat) (p : List Byte) (f : Option (Option Nat × CmdFun)) (s : State) (d : Nat),
    d = (h.seq.toNat + 65536 - regBits s (mbBase h.mb + 0x108) 0 16) % 65536 →
    (248 < len → serveOne h op len p f s = mbPost h.mb (bitAt h.flags.toNat 0) (msgBytes op h.seq.toNat 0x11 []) s) ∧
    (len ≤ 248 → d = 0 → ((mbOf s h.mb).record ≠ [] →
        serveOne h op len p f s = mbPost h.mb (bitAt h.flags.toNat 0) (mbOf s h.mb).record s) ∧
      ((mbOf s h.mb).record = [] →
        serveOne h op len p f s = mbPost h.mb (bitAt h.flags.toNat 0) (leBytes 8 (freeNow s).toNat) (freeStep s))) ∧
    (len ≤ 248 → d ≠ 0 → d ≠ 1 →
      serveOne h op len p f s = mbPost h.mb (bitAt h.flags.toNat 0) (msgBytes op h.seq.toNat 0x70 []) s) ∧
    (len ≤ 248 → d = 1 →
      (f = none → serveOne h op len p f s = answerWith op 0x10 [] h s) ∧
      ∀ (r : Option Nat) (g : CmdFun), f = some (r, g) →
        (hasRight s h.mb r = false → serveOne h op len p f s = answerWith op 0x60 [] h s) ∧
        (hasRight s h.mb r = true →
          (∀ (st : Nat) (data : List Byte), g h p s = .stop st data → serveOne h op len p f s = answerWith op st data h s) ∧
          (∀ (u : State) (data : List Byte), g h p s = .ok u data → serveOne h op len p f s = answerWith op 0 data h u) ∧
          ∀ u : State, g h p s = .accepted u → serveOne h op len p f s = answerWith op 1 [] h u)) ∧
    ∀ (st : Nat) (data : List Byte), regBits (answerWith op st data h s) (mbBase h.mb + 0x108) 0 16 = h.seq.toNat ∧
      AnsweredOnly h s (answerWith op st data h s) ∧ Answered op st data h (answerWith op st data h s)

/-- NOP, GET_INFO, SYS_RESET, TIME_MAP. For requests that pass the checks: NOP is answered OK with its payload. GET_INFO
is answered with 28 bytes: STEP and METAL, grade, limp mode, firmware version, UID, copy and sequence of the configuration
in force, mapped cores, Deep Store groups ON, free spares. SYS_RESET with its CONFIRM value is answered OK and the reset is
due 1 ms later; with another value BAD_PARAM, and none is due. TIME_MAP is answered with LX, TS, REPEAT, VEL and PRESS of
one instant. Nothing else changes but the answer and its posting. (R733, R734, R735, R699, 13_command_set.md) -/
def Obligations.SystemCommandsAnswer : Prop :=
  ∀ (h : Hdr) (p : List Byte) (s : State),
    (∀ n : Nat, n ≤ 248 → Request 0x0100 none n h p s →
      ∃ t, exec (.nopCmd h p) s = .next t ∧ Answered 0x0100 0 p h t ∧ AnsweredOnly h s t) ∧
    (Request 0x0101 none 0 h p s →
      ∃ t d, exec (.getInfo h p) s = .next t ∧ Answered 0x0101 0 d h t ∧ AnsweredOnly h s t ∧ d.length = 28 ∧
        leAt d 0 2 = (regGet s 4).toNat % 65536 ∧ leAt d 2 1 = (if Config.commercial then 2 else 1) ∧
        leAt d 3 1 = b2n s.limp.isSome ∧ leAt d 4 1 = (regGet s 8).toNat / 2 ^ 24 ∧
        leAt d 5 1 = (regGet s 8).toNat / 2 ^ 16 % 256 ∧ leAt d 6 2 = (regGet s 8).toNat % 65536 ∧
        leAt d 8 8 = Config.uid.toNat ∧ leAt d 16 4 = s.sup.cfgCopy % 256 ∧ leAt d 20 4 = (s.sup.cfgSeq.getD 0) % 2 ^ 32 ∧
        leAt d 24 1 = s.coreMap.length % 256 ∧ leAt d 25 1 = ((natsFrom 0 17).filter fun g => groupOf s g == .on).length ∧
        leAt d 26 1 = spareCores s ∧ leAt d 27 1 = spareBanks s) ∧
    (Request 0x0102 (some 6) 4 h p s →
      (leAt p 0 4 = 0x52534554 → ∃ t, exec (.sysReset h p) s = .next t ∧ Answered 0x0102 0 [] h t ∧
        AnsweredOnly h { s with pwr := { s.pwr with sysResetAt := some (s.ts + 1000000) } } t) ∧
      (leAt p 0 4 ≠ 0x52534554 → ∃ t, exec (.sysReset h p) s = .next t ∧ Answered 0x0102 0x12 [] h t ∧ AnsweredOnly h s t)) ∧
    (Request 0x0103 none 0 h p s →
      ∃ t d, exec (.timeMap h p) s = .next t ∧ Answered 0x0103 0 d h t ∧ AnsweredOnly h s t ∧ d.length = 28 ∧
        leAt d 0 8 = lxNow s % 2 ^ 56 ∧ leAt d 8 8 = s.ts % 2 ^ 64 ∧ leAt d 16 4 = s.lt.repeatCount.toNat ∧
        leAt d 20 4 = (velReg s).toNat ∧
        leAt d 24 4 = (match s.lt.press with | .stopped => 0 | .forward => 1 | .reverse => 2))

/-- PORT_SET, STREAM_SET, STREAM_START, STREAM_STOP, COL_UPLOAD. PORT_SET in range stores its settings: enabling a port
begins discovery; a change of CONN_EN or MAX_SPEED on an enabled one begins it anew; disabling one with no stream receiving
makes the link DISABLED; other ports stay. STREAM_SET entries in range, no two alike, each on a stopped stream or of a
setting that may change while it runs, set those streams, and nothing else. STREAM_START of a stopped stream whose ring and
columns fit allocates the FIFO buffer, answers its base and makes the stream RUNNING. STREAM_STOP AT_REPEAT waits for the
end of the repeat, that of a DRAINING stream for its end; NOW, with no line or stripe in work, stops the stream. COL_UPLOAD
of good entries writes exactly those of the pending bank and sets the switch point; with a bad entry it completes with
BAD_PARAM, with a failed read with FAULT, and writes none (nothing scheduled). (R170, R180, R182, R183, R209, R210, R731,
R732, R737, R738, R739, R740) -/
def Obligations.StreamCommandsSetPortsAndStreams : Prop :=
  ∀ (h : Hdr) (p : List Byte) (s : State),
    (∀ (n en ce ms ar ct : Nat), Request 0x0200 (some 0) 8 h p s → leAt p 0 1 = n → n ≤ 5 → leAt p 1 1 = en → en ≤ 1 →
      leAt p 2 1 = ce → ce ≤ 15 → leAt p 3 1 = ms → 1 ≤ ms → ms ≤ 7 → leAt p 4 1 = ar → ar ≤ 1 → leAt p 5 1 = 0 →
      leAt p 6 2 = ct → 1 ≤ ct → ct ≤ 2000 → (en = 1 → domOn s (85 + n) = true) →
      (en = 0 → ∀ j, j < 4 → streamTakes (streamOf s (4 * n + j)) = false) →
      ∃ t, exec (.portSet h p) s = .next t ∧ Answered 0x0200 0 [] h t ∧ (portOf t n).en = (en == 1) ∧
        (portOf t n).connEn = ce ∧ (portOf t n).maxSpeed = ms ∧ (portOf t n).autoReconnect = (ar == 1) ∧
        (portOf t n).ctrlTimeout = ct ∧ (portOf t n).bank = (portOf s n).bank ∧
        (portOf t n).link = (if en = 0 then (if (portOf s n).en then .disabled else (portOf s n).link)
          else if (portOf s n).en = true ∧ (portOf s n).connEn = ce ∧ (portOf s n).maxSpeed = ms then (portOf s n).link
          else .discovery) ∧
        (∀ q, q ≠ n → portOf t q = portOf s q) ∧ SameStores s t ∧ t.streams = s.streams) ∧
    (∀ n : Nat, 1 ≤ n → n ≤ 20 → Request 0x0201 (some 0) (12 * n) h p s → settingsTwice (settings p) = false →
      (∀ e ∈ settings p, e.2.1 ≤ 23 ∧ (streamSetting e.1 e.2.2 {}).isSome = true ∧
        (streamLive e.1 = true ∨ (streamOf s e.2.1).state = .stopped)) →
      ∃ t, exec (.streamSet h p) s = .next t ∧ Answered 0x0201 0 [] h t ∧ AnsweredOnly h
        ((settings p).foldl (fun u e => streamMod e.2.1 (fun m => (streamSetting e.1 e.2.2 m).getD m) u) s) t) ∧
    (∀ (k r i : Nat) (a : State), Request 0x0202 (some 0) 4 h p s → Quiet s → leAt p 0 1 = k → k ≤ 23 → leAt p 1 3 = 0 →
      (streamOf s k).state = .stopped → (streamOf s k).ring = some r → (ringOf s r).declared = true →
      slotMisfit s k = false → colClash s k = false →
      (portOthers s k).foldl (fun n o => n + colSpan o) (colSpan (streamOf s k)) ≤ 131072 →
      allocate (cdiv (64 * planesOf (streamOf s k) * rowPitch (streamOf s k)) 4096) 3 (2 ^ 0x1A) .scratch false s = some (a, i) →
      ∃ t, exec (.streamStart h p) s = .next t ∧ Answered 0x0202 0 (leBytes 4 (handleOf a i).base) h t ∧
        (streamOf t k).state = .running ∧ (streamOf t k).fifoIdx = some i ∧ (streamOf t k).fifo = [] ∧
        (∀ j, j ≠ k → streamOf t j = streamOf s j) ∧ t.handles = a.handles ∧ t.mem = s.mem ∧ t.ports = s.ports) ∧
    (∀ k : Nat, Request 0x0203 (some 0) 4 h p s → leAt p 0 1 = k → k ≤ 23 → leAt p 2 2 = 0 →
      (leAt p 1 1 = 0 →
        ((streamOf s k).state = .draining → ∃ t, exec (.streamStop h p) s = .next t ∧ Accepted 0x0203 h p t ∧
          AnsweredOnly h (streamMod k id (accept h 0x0203 k p none 0 s).1) t) ∧
        ((streamOf s k).state = .running →
          (∀ n ∈ (streamOf s k).rowRep, (streamOf s k).areaLines = 0 → repeatOver s (streamOf s k) n = false) →
          ∃ t, exec (.streamStop h p) s = .next t ∧ Accepted 0x0203 h p t ∧
            AnsweredOnly h (streamMod k (fun m => { m with state := .atRepeat, stopRep := some s.lt.repeatCount.toNat })
              (accept h 0x0203 k p none 0 s).1) t)) ∧
      (leAt p 1 1 = 1 → streamTakes (streamOf s k) = true → (streamOf s k).rx = none → (streamOf s k).missed = [] →
        (streamOf s k).fifo = [] → (streamOf s k).open_ = none → h.mb.val ≠ 7 →
        ∃ t, exec (.streamStop h p) s = .next t ∧ Accepted 0x0203 h p t ∧ (streamOf t k).state = .stopped ∧
          Finished s.sup.nextCmd 0 0 (leBytes 4 (streamOf s k).recorded) t ∧
          ∀ j, j ≠ k → streamOf t j = streamOf s j)) ∧
    ∀ (n hv off first count sw lx : Nat) (r : State) (q : Option (List Byte)), Request 0x0204 (some 0) 24 h p s → Quiet s →
      leAt p 0 1 = n → n ≤ 5 → leAt p 1 1 = sw → sw ≤ 1 → leAt p 2 2 = hv → leAt p 4 4 = off → leAt p 8 4 = first →
      leAt p 12 4 = count → leAt p 16 8 = lx → first + count ≤ 131072 → lx < 2 ^ 56 → (sw = 0 → lx = 0) →
      rangeIn s hv off (8 * count) = true → (portOf s n).pendSwitch = none → bufRead hv off (8 * count) s = (r, q) →
      ∃ v t, exec (.colUpload h p) s = .next t ∧ Accepted 0x0204 h p t ∧ AnsweredOnly h v t ∧
        (q = none → Finished s.sup.nextCmd 0x40 0 [] v ∧ v.cols = s.cols ∧ v.ports = s.ports) ∧
        ∀ d, q = some d →
          ((∃ i, i < count ∧ (2 ^ 39 ≤ leAt d (8 * i) 8 ∨ 4 < bitsOf (leAt d (8 * i) 8) 36 3)) →
            Finished s.sup.nextCmd 0x12 0 [] v ∧ v.cols = s.cols ∧ v.ports = s.ports) ∧
          ((∀ i, i < count → leAt d (8 * i) 8 < 2 ^ 39 ∧ bitsOf (leAt d (8 * i) 8) 36 3 ≤ 4) →
            Finished s.sup.nextCmd 0 0 [] v ∧
            (∀ i, i < count →
              tabGet 0 v.cols (colKey n (1 - (portOf s n).bank) (first + i)) = BitVec.ofNat 64 (leAt d (8 * i) 8)) ∧
            (∀ k, (∀ i, i < count → k ≠ colKey n (1 - (portOf s n).bank) (first + i)) → tabGet 0 v.cols k = tabGet 0 s.cols k) ∧
            v.ports = (portMod n (fun q => { q with
              pendSwitch := some (if sw = 0 then .repeatBoundary 1 else .position lx) }) s).ports)

/-- CAM_READ, CAM_WRITE, MODEL_LOAD, MODEL_UNLOAD, MODEL_BIND_EXT, CORESET_FORM, CORESET_DISSOLVE. For requests that pass
the checks. CAM_READ and CAM_WRITE on a port that is UP or DEGRADED send the control packet on its master connection, which
stays outstanding. MODEL_LOAD (nothing scheduled) of a range whose image fails a check completes BAD_PARAM with the detail
code and INDEX, of one that cannot be read FAULT, else with what the load comes to; one that does not load leaves models,
handles and rings; one that loads completes OK with its slot and SEM_BASE. MODEL_UNLOAD of an image not bound, with no
buffer held and no ring in use, empties its slot, makes its rings undeclared and frees its buffers. MODEL_BIND_EXT binds an
EXTERNAL slot of an unbound image. CORESET_FORM of free mapped cores forms the set; CORESET_DISSOLVE of a set without a
group removes it. (R158, R159, R500, R501, R502, R741, R742, 03_sensor_ports.md, 08_tile_ops.md, 13_command_set.md) -/
def Obligations.CameraAndModelCommands : Prop :=
  ∀ (h : Hdr) (p : List Byte) (s : State),
    (∀ n len : Nat, leAt p 0 1 = n → n ≤ 5 → leAt p 2 2 = len → len % 4 = 0 → 4 ≤ len → portUp (portOf s n) = true →
      leAt p 1 1 = 0 →
      (∀ hv : Nat, Request 0x0205 (some 0) 16 h p s → len ≤ 240 → leAt p 8 2 = hv → leAt p 10 2 = 0 →
        (hv ≠ 0 → rangeIn s hv (leAt p 12 4) len = true) → ∃ t, exec (.camRead h p) s = .next t ∧ Accepted 0x0205 h p t ∧
          AnsweredOnly h (emit (.control n (masterConn (portOf s n)) false (leAt p 4 4) len [])
            (portMod n (fun q => { q with ctrl := some ⟨s.sup.nextCmd, s.ts, masterConn (portOf s n)⟩ })
              (accept h 0x0205 n p none 0 s).1)) t) ∧
      (Request 0x0206 (some 0) (8 + len) h p s → len ≤ 236 → ∃ t, exec (.camWrite h p) s = .next t ∧ Accepted 0x0206 h p t ∧
          AnsweredOnly h (emit (.control n (masterConn (portOf s n)) true (leAt p 4 4) len (p.drop 8))
            (portMod n (fun q => { q with ctrl := some ⟨s.sup.nextCmd, s.ts, masterConn (portOf s n)⟩ })
              (accept h 0x0206 n p none 0 s).1)) t)) ∧
    (∀ (hv off n : Nat) (q : Option (List Byte)) (r : State), Request 0x0300 (some 1) 12 h p s → Quiet s → leAt p 0 2 = hv →
      leAt p 2 2 = 0 → leAt p 4 4 = off → leAt p 8 4 = n → rangeIn s hv off n = true → s.models.length < 32 →
      bufRead hv off n s = (r, q) →
      (∀ st d : Nat, ∀ res : List Byte,
        (q = none ∧ st = 0x40 ∧ d = 0 ∧ res = [] ∨ (∃ raw, q = some raw ∧ st ≠ 0 ∧
          (loadImage raw r).status = st ∧ (loadImage raw r).detail = d ∧ (loadImage raw r).res = res)) →
        ∃ v t, exec (.modelLoad h p) s = .next t ∧ Accepted 0x0300 h p t ∧ AnsweredOnly h v t ∧
          Finished s.sup.nextCmd st d res v ∧ v.models = s.models ∧ v.handles = s.handles ∧ v.rings = s.rings) ∧
      (∀ raw, q = some raw → ∀ d i : Nat, loadRefusal raw (modelKey r (leAt raw 0x14 1)) (signedOnly r) = some (d, i) →
        (loadImage raw r).status = 0x12 ∧ (loadImage raw r).detail = d ∧ (loadImage raw r).res = leBytes 4 i) ∧
      ∀ (raw : List Byte) (a : State) (k b : Nat), q = some raw → k < 32 →
        loadImage raw r = ⟨a, 0, 0, [b8 k, 0] ++ leBytes 2 b⟩ →
        ∃ v t, exec (.modelLoad h p) s = .next t ∧ Accepted 0x0300 h p t ∧ AnsweredOnly h v t ∧
          Finished s.sup.nextCmd 0 0 ([b8 k, 0] ++ leBytes 2 b) v ∧ (modelOf v k).isSome = true ∧ v.handles = a.handles ∧
          v.rings = a.rings ∧ v.mem = a.mem ∧ ∀ j, j ≠ k → modelOf v j = modelOf a j) ∧
    (∀ (m : Nat) (md : Model), leAt p 0 1 = m → m ≤ 31 → modelOf s m = some md → modelBound s m = false →
      (Request 0x0301 (some 1) 4 h p s → leAt p 1 3 = 0 → modelLocked s m = false →
        ∃ t, exec (.modelUnload h p) s = .next t ∧ Answered 0x0301 0 [] h t ∧ modelOf t m = none ∧
          (∀ j, j ≠ m → modelOf t j = modelOf s j) ∧ (∀ r ∈ md.ownRings, (ringOf t r).declared = false) ∧
          (∀ r, r ∉ md.ownRings → ringOf t r = ringOf s r) ∧
          (∀ hv ∈ md.ownHandles, (handleOf t (hv % 256)).valid = false) ∧
          (∀ i, (∀ hv ∈ md.ownHandles, hv % 256 ≠ i) → handleOf t i = handleOf s i) ∧ t.mem = s.mem) ∧
      (Request 0x0302 (some 1) 6 h p s → leAt p 3 1 = 0 → slotExternal md (leAt p 1 1) (leAt p 2 1) = true →
        (leAt p 1 1 = 0 → handleOk s (leAt p 4 2) = true → ∃ t, exec (.modelBindExt h p) s = .next t ∧
          Answered 0x0302 0 [] h t ∧ AnsweredOnly h
            { s with models := tabSet s.models m { md with handles := tabSet md.handles (leAt p 2 1) (leAt p 4 2) } } t) ∧
        (leAt p 1 1 = 1 → leAt p 4 2 ≤ 127 → ∃ t, exec (.modelBindExt h p) s = .next t ∧
          Answered 0x0302 0 [] h t ∧ AnsweredOnly h
            { s with models := tabSet s.models m { md with rings := tabSet md.rings (leAt p 2 1) (leAt p 4 2) } } t))) ∧
    ∀ cs : Nat, leAt p 0 1 = cs → cs ≤ 15 →
      (Request 0x0303 (some 1) 16 h p s → leAt p 1 7 = 0 → leAt p 8 8 ≠ 0 → tabGet? s.coreSets cs = none →
        (∀ c ∈ coresOf (leAt p 8 8), (physCore s c).isSome = true ∧ ∀ o ∈ csOfCore s c, o = cs) →
        ∃ t, exec (.coresetForm h p) s = .next t ∧ Answered 0x0303 0 [] h t ∧
          AnsweredOnly h { s with coreSets := tabSet s.coreSets cs (leAt p 8 8) } t) ∧
      (Request 0x0304 (some 1) 4 h p s → leAt p 1 3 = 0 → (tabGet? s.coreSets cs).isSome = true → groupsOfCs s cs = [] →
        ∃ t, exec (.coresetDissolve h p) s = .next t ∧ Answered 0x0304 0 [] h t ∧
          AnsweredOnly h { s with coreSets := tabDel s.coreSets cs } t)

/-- GROUP_BIND, GROUP_START, GROUP_STOP, GROUP_SWAP, GROUP_UNBIND, TASK_ABORT, EPOCH_CANCEL. For requests that pass the
checks. GROUP_BIND of a free group to a formed core set and a complete, non-overlapping image makes the group, with a
journal buffer whose base it answers. GROUP_START starts a stopped group. GROUP_STOP at no task ends at once with the
last repeat; AT_TASK_END in a task leaves the group stopping; NOW in a task completes an AT_TASK_END stop with DETAIL 1
and is the task abort by command. GROUP_SWAP makes the image pending, GROUP_UNBIND of a stopped group whose journal is
not held removes it and frees the journal. TASK_ABORT answers the repeat and is the task abort by command; EPOCH_CANCEL
of a core set without a group is answered OK, of any core set it is the cancel of its groups' epochs. (R503, R504, R519, R531, R537, R743, 08_tile_ops.md, 13_command_set.md) -/
def Obligations.GroupCommandsBindAndStop : Prop :=
  ∀ (h : Hdr) (p : List Byte) (s : State) (g : Nat), leAt p 0 1 = g → g ≤ 15 →
    (∀ (cs m j i : Nat) (md : Model) (a : State), Request 0x0305 (some 1) 8 h p s → leAt p 1 1 = cs → cs ≤ 15 → leAt p 2 1 = m →
      m ≤ 31 → leAt p 3 1 = j → 10 ≤ j → j ≤ 16 → leAt p 4 4 < 2 ^ 24 → bindUneven s cs m = false → groupGet s g = none →
      (tabGet? s.coreSets cs).isSome = true → modelOf s m = some md → bindMissing md = false →
      (bindOthers s g cs).any (bindOverlap md) = false →
      allocate (cdiv (8 * 2 ^ j + 16384) 4096) 5 journalOwner .fixed false s = some (a, i) →
      ∃ v t, exec (.groupBind h p) s = .next t ∧ Answered 0x0305 0 (leBytes 4 (handleOf a i).base) h t ∧ AnsweredOnly h v t ∧
        groupGet v g = some { cs := cs, model := m, streams := leAt p 4 4, journal := i, jwords := 2 ^ j } ∧
        (∀ q, q ≠ g → groupGet v q = groupGet s q) ∧ (handleOf v i).valid = true ∧ (handleOf v i).base = (handleOf a i).base ∧
        (∀ hv ∈ md.ownHandles, bitAt (handleOf v (hv % 256)).owner cs = true) ∧ v.models = s.models ∧ v.mem = s.mem) ∧
    (∀ x : Group, Request 0x0306 (some 1) 4 h p s → leAt p 1 3 = 0 → groupGet s g = some x → x.started = false →
      ∃ t, exec (.groupStart h p) s = .next t ∧ Answered 0x0306 0 [] h t ∧
        AnsweredOnly h (groupPut g { x with started := true } s) t) ∧
    (∀ x : Group, Request 0x0307 (some 1) 4 h p s → leAt p 2 2 = 0 → groupGet s g = some x → x.started = true →
      (leAt p 1 1 ≤ 1 → x.phase = .waiting → ∃ v t, exec (.groupStop h p) s = .next t ∧ Accepted 0x0307 h p t ∧
        AnsweredOnly h v t ∧ Finished s.sup.nextCmd 0 0 (leBytes 4 (lastRepeat x)) v ∧
        groupGet v g = some { x with stopping := false, started := false, due := [] } ∧
        (∀ q, q ≠ g → groupGet v q = groupGet s q) ∧ SameStores s v) ∧
      (leAt p 1 1 = 0 → x.phase ≠ .waiting → ∃ t, exec (.groupStop h p) s = .next t ∧ Accepted 0x0307 h p t ∧
        AnsweredOnly h (groupPut g { x with stopping := true } (accept h 0x0307 g p none 0 s).1) t)) ∧
    (∀ (x : Group) (u : State), Served (some 1) h p s → h.flags.toNat ≤ 1 → p.length = 4 → leAt p 1 1 = 1 → leAt p 2 2 = 0 →
      groupGet s g = some x → x.started = true → x.phase ≠ .waiting →
      (busyBut s 0x0307 p fun l => l.opcode == 0x0307 && leAt l.payload 1 1 == 0) = false →
      u = (accept h 0x0307 g p none 1
        (longDone (fun l => l.opcode == 0x0307 && decide (l.obj = g)) 0 1 (leBytes 4 (lastRepeat x)) s)).1 →
      exec (.groupStop h p) s = .next (settle (schedTick (answerWith 0x0307 1 [] h
        (stopEnds g (abortTask g 5 0x1C (groupPut g { x with stopping := true } u))))))) ∧
    (∀ (x : Group) (m : Nat) (md : Model), Request 0x0308 (some 1) 4 h p s → leAt p 1 1 = m → m ≤ 31 → leAt p 2 2 = 0 →
      groupGet s g = some x → bindUneven s x.cs m = false → modelOf s m = some md → bindMissing md = false →
      (bindOthers s g x.cs).any (bindOverlap md) = false →
      ∃ v t, exec (.groupSwap h p) s = .next t ∧ Accepted 0x0308 h p t ∧ AnsweredOnly h v t ∧
        groupGet v g = some { x with pendModel := some m } ∧ (∀ q, q ≠ g → groupGet v q = groupGet s q) ∧
        (∀ hv ∈ md.ownHandles, bitAt (handleOf v (hv % 256)).owner x.cs = true) ∧ v.models = s.models ∧ v.mem = s.mem) ∧
    (∀ x : Group, Request 0x0309 (some 1) 4 h p s → leAt p 1 3 = 0 → groupGet s g = some x → x.started = false →
      handleKept s x.journal = false → ∃ v t, exec (.groupUnbind h p) s = .next t ∧ Answered 0x0309 0 [] h t ∧
        AnsweredOnly h v t ∧ groupGet v g = none ∧ (∀ q, q ≠ g → groupGet v q = groupGet s q) ∧
        (handleOf v x.journal).valid = false ∧ v.models = s.models ∧ v.mem = s.mem) ∧
    (∀ x : Group, Request 0x030A (some 1) 4 h p s → leAt p 1 3 = 0 → groupGet s g = some x →
      (x.phase = .running ∨ x.phase = .boundary) → exec (.taskAbort h p) s = .next (settle (schedTick
        (answerWith 0x030A 0 (leBytes 4 (lastRepeat x)) h (abortTask g 5 0x1C s))))) ∧
    (Request 0x030B (some 1) 4 h p s → leAt p 2 2 = 0 → (tabGet? s.coreSets g).isSome = true →
      (groupsOfCs s g = [] → ∃ t, exec (.epochCancel h p) s = .next t ∧ Answered 0x030B 0 [] h t ∧ AnsweredOnly h s t) ∧
      exec (.epochCancel h p) s = .next (settle (schedTick (answerWith 0x030B 0 [] h (epochCancelOp g (leAt p 1 1) s)))))

/-- HANDLE_ALLOC, HANDLE_FREE, HANDLE_QUERY, HANDLE_LOCK, HANDLE_SET, COMPACT, SEM_SET, SEM_QUERY, ARRIVAL_BIND,
ARRIVAL_UNBIND. For requests that pass the checks. HANDLE_ALLOC with room makes a valid entry of the given units,
rights, owner and class and answers its handle and base; HANDLE_FREE of an unlocked, unnamed buffer clears VALID and
advances GEN, and ends a relocation of it; HANDLE_LOCK sets or clears the lock, HANDLE_SET rights and owner, of that entry
only; HANDLE_QUERY answers an entry. COMPACT is accepted; with no other running it ends OK at once where the largest free
range is large enough, else it starts a relocation or, with none possible, ends with FAULT. SEM_SET of semaphores with no
waiter sets value and TRACKED and empties the owner places; SEM_QUERY answers value, queue length, TRACKED. ARRIVAL_BIND
binds a free counter from 0, ARRIVAL_UNBIND frees it and answers its count. (R238, R244, R245, R246, R248, R256, R263,
R744, 04_deep_store.md, 13_command_set.md) -/
def Obligations.HandleAndSemaphoreCommands : Prop :=
  ∀ (h : Hdr) (p : List Byte) (s : State),
    (∀ (i : Nat) (a : State), Request 0x0400 (some 2) 12 h p s → 1 ≤ leAt p 0 4 → leAt p 0 4 ≤ 262144 → leAt p 4 4 < 2 ^ 29 →
      leAt p 8 1 ≤ 15 → leAt p 9 1 ≤ 2 → leAt p 10 1 ≤ 1 → leAt p 11 1 = 0 →
      allocate (leAt p 0 4) (leAt p 8 1) (leAt p 4 4) (classOf (leAt p 9 1)) (leAt p 10 1 == 1) s = some (a, i) →
      (handleOf a i).valid = true ∧ (handleOf a i).units = leAt p 0 4 ∧ (handleOf a i).rights = leAt p 8 1 ∧
        (handleOf a i).owner = leAt p 4 4 ∧ (handleOf a i).lock = none ∧ (handleOf a i).gen = (handleOf s i).gen ∧
        (handleOf s i).valid = false ∧ (∀ j, j ≠ i → handleOf a j = handleOf s j) ∧
      ∃ t, exec (.handleAlloc h p) s = .next t ∧ AnsweredOnly h a t ∧
        Answered 0x0400 0 (leBytes 2 (handleVal a i) ++ [0, 0] ++ leBytes 4 (handleOf a i).base) h t) ∧
    (∀ hv : Nat, leAt p 0 2 = hv → handleOk s hv = true →
      (Request 0x0401 (some 2) 4 h p s → leAt p 2 2 = 0 → (handleOf s (hv % 256)).lock = none → handleNamed s (hv % 256) = false →
        ∃ t, exec (.handleFree h p) s = .next t ∧ Answered 0x0401 0 [] h t ∧ (handleOf t (hv % 256)).valid = false ∧
          (handleOf t (hv % 256)).gen = (if (handleOf s (hv % 256)).gen = 255 then 1 else (handleOf s (hv % 256)).gen + 1) ∧
          (∀ j, j ≠ hv % 256 → handleOf t j = handleOf s j) ∧ relocating t (hv % 256) = false ∧
          (relocating s (hv % 256) = false → t.reloc = s.reloc) ∧
          AnsweredOnly h { s with handles := t.handles, reloc := t.reloc } t) ∧
      (∀ tag : Nat, Request 0x0403 (some 2) 4 h p s → leAt p 3 1 = tag → tag ≤ 0x1C →
        (leAt p 2 1 = 0 → (handleOf s (hv % 256)).lock = none ∨ (handleOf s (hv % 256)).lock = some tag →
          ∃ t, exec (.handleLock h p) s = .next t ∧ Answered 0x0403 0 [] h t ∧
            AnsweredOnly h (handlePut (hv % 256) { handleOf s (hv % 256) with lock := some tag } s) t) ∧
        (leAt p 2 1 = 1 → (handleOf s (hv % 256)).lock = some tag →
          ∃ t, exec (.handleLock h p) s = .next t ∧ Answered 0x0403 0 [] h t ∧
            AnsweredOnly h (handlePut (hv % 256) { handleOf s (hv % 256) with lock := none } s) t)) ∧
      (Request 0x0404 (some 2) 8 h p s → leAt p 2 1 ≤ 15 → leAt p 3 1 = 0 → leAt p 4 4 < 2 ^ 29 →
        (handleOf s (hv % 256)).lock = none → relocating s (hv % 256) = false →
        ∃ t, exec (.handleSet h p) s = .next t ∧ Answered 0x0404 0 [] h t ∧
          AnsweredOnly h (handlePut (hv % 256) { handleOf s (hv % 256) with rights := leAt p 2 1, owner := leAt p 4 4 } s) t)) ∧
    (∀ x : Handle, Request 0x0402 none 4 h p s → leAt p 1 3 = 0 → handleOf s (leAt p 0 1) = x →
      ∃ t d, exec (.handleQuery h p) s = .next t ∧ Answered 0x0402 0 d h t ∧ AnsweredOnly h s t ∧ leAt d 0 1 = b2n x.valid ∧
        leAt d 1 1 = x.gen % 256 ∧ d.length = 20 ∧ (x.valid = true → leAt d 2 1 = classNo x.cls ∧ leAt d 3 1 = b2n x.ring ∧
          leAt d 4 1 = x.rights % 256 ∧ leAt d 8 4 = x.base % 2 ^ 32 ∧ leAt d 12 4 = x.units % 2 ^ 32 ∧
          leAt d 16 4 = x.owner % 2 ^ 32 ∧ leAt d 5 1 = (x.lock.getD 0xFF) % 256)) ∧
    (Request 0x0405 (some 2) 4 h p s → leAt p 0 4 ≤ 262144 →
      ∃ v t, exec (.compact h p) s = .next t ∧ Accepted 0x0405 h p t ∧ AnsweredOnly h v t ∧ v.handles = s.handles ∧
        v.mem = s.mem ∧ ((∀ e ∈ s.sup.longs, e.2.opcode ≠ 0x0405) →
          (leAt p 0 4 ≤ largestFree s → Finished s.sup.nextCmd 0 0 (leBytes 4 (largestFree s) ++ [0, 0, 0, 0]) v ∧
            v.reloc = s.reloc) ∧
          (largestFree s < leAt p 0 4 → (∃ r, v.reloc = some r ∧ movable s r.idx = true) ∨
            Finished s.sup.nextCmd 0x40 0 (leBytes 4 (largestFree s) ++ [0, 0, 0, 0]) v ∧ v.reloc = s.reloc))) ∧
    (Request 0x0406 (some 2) 8 h p s → 1 ≤ leAt p 2 2 → leAt p 0 2 + leAt p 2 2 ≤ 4096 → leAt p 6 1 ≤ 1 → leAt p 7 1 = 0 →
      (∀ i, leAt p 0 2 ≤ i → i < leAt p 0 2 + leAt p 2 2 → (semOf s i).queue = []) →
      ∃ t, exec (.semSet h p) s = .next t ∧ Answered 0x0406 0 [] h t ∧ SameStores s t ∧
        (∀ i, leAt p 0 2 ≤ i → i < leAt p 0 2 + leAt p 2 2 →
          semOf t i = { value := leAt p 4 2, tracked := leAt p 6 1 == 1, holds := [], queue := [] }) ∧
        ∀ i, (i < leAt p 0 2 ∨ leAt p 0 2 + leAt p 2 2 ≤ i) → semOf t i = semOf s i) ∧
    (Request 0x0407 none 4 h p s → leAt p 0 2 ≤ 4095 → leAt p 2 2 = 0 →
      ∃ t d, exec (.semQuery h p) s = .next t ∧ Answered 0x0407 0 d h t ∧ AnsweredOnly h s t ∧
        leAt d 0 2 = (semOf s (leAt p 0 2)).value % 65536 ∧ leAt d 2 2 = (semOf s (leAt p 0 2)).queue.length % 65536 ∧
        leAt d 4 1 = b2n (semOf s (leAt p 0 2)).tracked) ∧
    ∀ k : Nat, leAt p 0 2 = k → k ≤ 1023 →
      (∀ (hv sem : Nat) (a : Arrival), Request 0x0408 (some 2) 12 h p s → leAt p 2 2 = hv → handleOk s hv = true →
        1 ≤ leAt p 4 4 → leAt p 8 2 = sem → (sem ≤ 4095 ∨ sem = 0xFFFF) → 1 ≤ leAt p 10 1 → leAt p 11 1 ≤ 1 →
        tabGet? s.arrivals k = none →
        a = ⟨hv % 256, 0, leAt p 4 4, if sem = 0xFFFF then none else some sem, leAt p 10 1, leAt p 11 1 == 1, false⟩ →
        ∃ t, exec (.arrivalBind h p) s = .next t ∧ Answered 0x0408 0 [] h t ∧
          AnsweredOnly h { s with arrivals := tabSet s.arrivals k a } t) ∧
      ∀ a : Arrival, Request 0x0409 (some 2) 4 h p s → leAt p 2 2 = 0 → tabGet? s.arrivals k = some a →
        ∃ t, exec (.arrivalUnbind h p) s = .next t ∧ Answered 0x0409 0 (leBytes 4 a.count) h t ∧
          AnsweredOnly h { s with arrivals := tabDel s.arrivals k } t

/-- RING_DECLARE, RING_UNDECLARE, RING_RESET, FC_SIZE, BWR_SET. For requests that pass the checks. RING_DECLARE of a ring
not in use over an unnamed ring buffer that holds its slots makes a declared ring with HEAD, TAIL and PUB 0 and every
slot EMPTY; RING_UNDECLARE of an unnamed ring not in use makes it undeclared; RING_RESET of a ring with no acquire
empties its slots and windows, TAIL and PUB becoming HEAD (each with no acquire waiting). FC_SIZE, with no reduction
line and the old buffer not held, drops every far line and the buffer, takes the new one and completes; where no range is
free it is answered NO_RESOURCE and nothing changes. BWR_SET is kept for the next refill. Other rings stay. (R297, R298, R334, R351, R554, R556, R744,
05_baskets_streams.md, 09_caches_ordering.md, 13_command_set.md) -/
def Obligations.RingAndRegulatorCommands : Prop :=
  ∀ (h : Hdr) (p : List Byte) (s : State) (r : Nat), leAt p 0 1 = r →
    (∀ slots units refs fl hv prod : Nat, Request 0x040A (some 2) 12 h p s → r ≤ 127 → leAt p 1 1 = slots → 3 ≤ slots →
      slots ≤ 64 → leAt p 2 1 = refs → refs ≤ 7 → leAt p 3 1 = fl → fl ≤ 7 → 1 + fl % 2 + fl / 2 % 2 ≤ refs →
      leAt p 4 2 = hv → leAt p 6 2 = units → 1 ≤ units → units ≤ 1024 → leAt p 8 1 = prod → prod ≤ 0x1C → leAt p 9 3 = 0 →
      handleOk s hv = true → (handleOf s (hv % 256)).ring = true → slots * units ≤ (handleOf s (hv % 256)).units →
      ringInUse s r = false → NoWaits s r → (∀ q ∈ ringOfHandle s (hv % 256), q = r) →
      ∃ t, exec (.ringDeclare h p) s = .next t ∧ Answered 0x040A 0 [] h t ∧
        AnsweredOnly h (ringPut r ⟨true, hv, slots, units, prod, refs, bitAt fl 0, bitAt fl 1, bitAt fl 2, 0, 0, 0, [], [], []⟩ s) t) ∧
    (Request 0x040B (some 2) 4 h p s → r ≤ 127 → leAt p 1 3 = 0 → (ringOf s r).declared = true → ringInUse s r = false →
      ringNamed s r = false → ∃ t, exec (.ringUndeclare h p) s = .next t ∧ Answered 0x040B 0 [] h t ∧
        (ringOf t r).declared = false ∧ (∀ q, q ≠ r → ringOf t q = ringOf s q) ∧ t.handles = s.handles ∧ t.mem = s.mem) ∧
    (Request 0x040C (some 2) 4 h p s → Quiet s → r ≤ 127 → leAt p 1 3 = 0 → (ringOf s r).declared = true → NoWaits s r →
      ∃ t, exec (.ringReset h p) s = .next t ∧ Answered 0x040C 0 [] h t ∧
        ringOf t r = { ringOf s r with tail := (ringOf s r).head, pub := (ringOf s r).head, tab := [] } ∧
        (∀ w ∈ t.windows, w.ring ≠ r) ∧ (∀ w ∈ s.windows, w.ring ≠ r → w ∈ t.windows) ∧
        (∀ q, q ≠ r → ringOf t q = ringOf s q) ∧ t.handles = s.handles ∧ t.mem = s.mem) ∧
    (Request 0x040D (some 2) 4 h p s → r ≤ 7 → leAt p 1 1 = 0 → s.xk.colls = [] → s.xk.redWait = [] →
      (∀ i ∈ s.fcBuffer, handleKept s i = false) →
      (∀ a : State, fcRebuffer r (fcDropAll s) = some a → ∃ v t, exec (.fcSize h p) s = .next t ∧ Accepted 0x040D h p t ∧
        AnsweredOnly h v t ∧ v.fcache = [] ∧ (∀ w ∈ v.xk.far, w.fill = false) ∧ v.fcBuffer = a.fcBuffer ∧
        v.handles = a.handles ∧ regGet v 0x200 = w32 (65536 * leAt p 2 2 + r) ∧ Finished s.sup.nextCmd 0 0 [] v ∧
        (r = 0 → v.fcBuffer = none ∧ (∀ i, s.fcBuffer ≠ some i → handleOf v i = handleOf s i)) ∧
        (r = 0 → ∀ i, s.fcBuffer = some i → (handleOf v i).valid = false) ∧ v.mem = s.mem) ∧
      (fcRebuffer r (fcDropAll s) = none → ∃ t, exec (.fcSize h p) s = .next t ∧ Answered 0x040D 0x30 [] h t ∧
        AnsweredOnly h s t)) ∧
    ∀ un rate depth : Nat, Request 0x040E (some 2) 8 h p s → r ≤ 4 → leAt p 1 1 = un → un ≤ 1 → leAt p 2 2 = rate →
      rate ≤ 16383 → leAt p 4 2 = depth → rate ≤ depth → leAt p 6 2 = 0 →
      ∃ t, exec (.bwrSet h p) s = .next t ∧ Answered 0x040E 0 [] h t ∧
        tabGet 0 t.tokens (32 + r) = 1 + rate + depth * 2 ^ 14 + un * 2 ^ 31 ∧ SameStores s t

/-- LT_SET, CAL_WRITE, CAL_READ, CAL_DISABLE, PHASE_ADJUST. For requests that pass the checks. LT_SET entries in range, no
two alike, allowed now and together consistent, take effect at once, REPEAT_PHASE last; a single entry but REPEAT_PHASE sets
its setting and no other, and only line-time state moves. CAL_WRITE of entries whose bytes decode stores them, keeps a
committed occurrence, and answers which were late; CAL_READ answers an entry's 48 bytes and its next LX and TS occurrence,
all ones where it has none; CAL_DISABLE makes the range OFF and keeps the rest of each entry. PHASE_ADJUST moves REPEAT_PHASE
and the pending boundary; a boundary that ends at or below LX occurs at once unless the unit is behind. (R70, R71, R103, R111,
R122, R127, R128, R732, R745, R746, R747, R749) -/
def Obligations.LineTimeCommandsSetAndArm : Prop :=
  ∀ (h : Hdr) (p : List Byte) (s : State),
    (∀ n : Nat, 1 ≤ n → n ≤ 20 → Request 0x0500 (some 3) (12 * n) h p s → settingsTwice (settings p) = false →
      (∀ e ∈ settings p, ltIndexOk e.1 e.2.1 = true ∧ ltValueOk e.1 e.2.2 = true ∧ ltAllowed s e.1 e.2.1 = true) →
      ltCross s (settings p) = false →
      exec (.ltSet h p) s = .next (settle (schedTick (answerWith 0x0500 0 [] h (ltSetAll (settings p) s)))) ∧
      ∀ id i v : Nat, settings p = [(id, i, v)] → id ≠ 0x11 →
        ∃ t, exec (.ltSet h p) s = .next t ∧ Answered 0x0500 0 [] h t ∧ AnsweredOnly h { s with lt := t.lt } t ∧
          (∀ j, (encOf t j).en = (if id = 1 ∧ j = i then v == 1 else (encOf s j).en) ∧
            (encOf t j).decode = (if id = 2 ∧ j = i then v else (encOf s j).decode) ∧
            (encOf t j).inv = (if id = 3 ∧ j = i then v == 1 else (encOf s j).inv) ∧
            (encOf t j).filt = (if id = 4 ∧ j = i then v else (encOf s j).filt) ∧
            (encOf t j).scale = (if id = 5 ∧ j = i then v else (encOf s j).scale) ∧
            (encOf t j).maxStep = (if id = 9 ∧ j = i then v else (encOf s j).maxStep)) ∧
          t.lt.master = (if id = 6 then v else s.lt.master) ∧
          t.lt.backup = (if id = 7 then (if v = 0xFF then none else some v) else s.lt.backup) ∧
          t.lt.checkTol = (if id = 8 then v else s.lt.checkTol) ∧ t.lt.countsPerZ = (if id = 0x0A then v else s.lt.countsPerZ) ∧
          t.lt.velWin = (if id = 0x0B then v else s.lt.velWin) ∧ t.lt.stopSpeed = (if id = 0x0C then v else s.lt.stopSpeed) ∧
          t.lt.stopHold = (if id = 0x0D then v else s.lt.stopHold) ∧ t.lt.revTol = (if id = 0x0E then v else s.lt.revTol) ∧
          t.lt.repeatLen = (if id = 0x10 then v else s.lt.repeatLen) ∧ t.lt.repeatPhase = s.lt.repeatPhase ∧
          t.lt.boundary = s.lt.boundary ∧ t.lt.mainsEdge = (if id = 0x18 then edgeOf v else s.lt.mainsEdge) ∧
          t.lt.mainsFilt = (if id = 0x19 then v else s.lt.mainsFilt) ∧
          t.lt.mainsOffset = (if id = 0x1A then v else s.lt.mainsOffset) ∧
          t.lt.mainsWin = (if id = 0x1B then v else s.lt.mainsWin)) ∧
    (∀ first n : Nat, Request 0x0501 (some 3) (8 + 48 * n) h p s → leAt p 0 2 = first → leAt p 2 1 = n → 1 ≤ n → n ≤ 5 →
      first + n ≤ 2048 → leAt p 3 5 = 0 →
      ∀ fs : List CalFields, (calEntries p).map calDecode = fs.map some →
        ∃ t late, exec (.calWrite h p) s = .next t ∧ Answered 0x0501 0 [b8 late] h t ∧
          (∀ i f, fs[i]? = some f → (calOf t (first + i)).f = f ∧ (calEntries p)[i]? = some (calOf t (first + i)).raw ∧
            (calOf t (first + i)).committed = (calOf s (first + i)).committed ∧ bitAt late i = calLate s f) ∧
          (∀ j, j < first ∨ first + n ≤ j → calOf t j = calOf s j) ∧ t.lt = s.lt ∧ SameStores s t) ∧
    (∀ e : CalEntry, Request 0x0502 none 4 h p s → leAt p 0 2 ≤ 2047 → leAt p 2 2 = 0 → calOf s (leAt p 0 2) = e →
      ∃ t d, exec (.calRead h p) s = .next t ∧ AnsweredOnly h s t ∧
        Answered 0x0502 0
          (d ++ leBytes 8 ((calNextLx s e).getD (2 ^ 64 - 1)) ++ leBytes 8 ((calNextTs s e).getD (2 ^ 64 - 1))) h t ∧
        (e.raw ≠ [] → d = e.raw) ∧ (e.raw = [] → d = List.replicate 48 0)) ∧
    (∀ first n : Nat, Request 0x0503 (some 3) 4 h p s → leAt p 0 2 = first → leAt p 2 2 = n → 1 ≤ n → first + n ≤ 2048 →
      ∃ t, exec (.calDisable h p) s = .next t ∧ Answered 0x0503 0 [] h t ∧
        (∀ i, first ≤ i → i < first + n → (calOf t i).f = { (calOf s i).f with mode := .off } ∧
          (calOf t i).committed = (calOf s i).committed) ∧
        (∀ i, (i < first ∨ first + n ≤ i) → calOf t i = calOf s i) ∧ t.lt = s.lt ∧ SameStores s t) ∧
    ∀ (d : Int) (l : LineTime), Request 0x0504 (some 3) 8 h p s → sgn 64 (leAt p 0 8) = d → d.natAbs < 256 * s.lt.repeatLen →
      l = { s.lt with boundary := ((s.lt.boundary : Int) + d).toNat,
                      repeatPhase := (((s.lt.repeatPhase : Int) + d) % ((256 * s.lt.repeatLen : Nat) : Int)).toNat } →
      (s.lt.behind = true ∨ lxNow s < l.boundary → ∃ t, exec (.phaseAdjust h p) s = .next t ∧
        Answered 0x0504 0 (leBytes 8 l.boundary) h t ∧ AnsweredOnly h { s with lt := l } t) ∧
      (s.lt.behind = false → l.boundary ≤ lxNow s → exec (.phaseAdjust h p) s = .next (settle (schedTick
        (answerWith 0x0504 0 (leBytes 8 (boundaryOccurs { s with lt := l }).lt.boundary) h (boundaryOccurs { s with lt := l })))))

/-- XK_CONFIG, XK_JOIN, XK_LEAVE, XK_SOUND, XK_RX_SET, XK_STATS, XK_RELAY, XK_MODEL_BCAST. For requests that pass the
checks. XK_CONFIG of a node not MEMBER or MASTER stores its settings. XK_JOIN with Xanik on starts to listen, XK_LEAVE
of a member asks to leave; both run on. XK_SOUND queues a SOUND frame and waits for the other present nodes it names; with
none it completes at once. XK_RX_SET sets the receiver registers and, while it searches, the gain. XK_STATS answers the
peer's counters and rate. XK_RELAY to a present node waits for its response and queues the embedded request, to another node
as RELAY_REQ, to this one for MB_7. XK_MODEL_BCAST (nothing scheduled) waits for the other present nodes of its mask, with
the image's bytes in fragments; with none it completes at once with the whole mask in FAILED. (R750, R751, R804, R850, R851,
R855, R864, R866, R867, R870, 13_command_set.md) -/
def Obligations.XanikCommandsStart : Prop :=
  ∀ (h : Hdr) (p : List Byte) (s : State),
    (Request 0x0600 (some 4) 12 h p s → leAt p 0 1 ≤ 15 → leAt p 1 1 ≤ 1 → leAt p 2 1 ≤ 1 → leAt p 3 1 = 0 → 1 ≤ leAt p 4 4 →
      200 ≤ leAt p 8 4 → leAt p 8 4 ≤ 10000 → xkJoined s = false →
      ∃ v t, exec (.xkConfig h p) s = .next t ∧ Answered 0x0600 0 [] h t ∧ AnsweredOnly h v t ∧ v = xkMod (fun x =>
        { x with node := leAt p 0 1, eligible := leAt p 1 1 == 1, cp := leAt p 2 1 == 1, cycleLines := leAt p 4 4,
                 stopPeriod := leAt p 8 4 }) s) ∧
    (Request 0x0601 (some 4) 4 h p s → 1 ≤ leAt p 0 2 → leAt p 0 2 ≤ 60000 → leAt p 2 2 = 0 → xkJoined s = false → xkOn s = true →
      ∃ v t, exec (.xkJoin h p) s = .next t ∧ Accepted 0x0601 h p t ∧ AnsweredOnly h v t ∧ v.xk.net = .listen ∧
        v.xk.listenEnd = s.ts + listenNs s (leAt p 0 2 * 1000000) ∧ v.xk.lfsr = joinSeed s.xk.node ∧ v.xk.node = s.xk.node ∧
        v.regs = s.regs ∧ SameStores s v ∧ ∃ l, tabGet? v.sup.longs s.sup.nextCmd = some l ∧
          l.deadline = some (s.ts + leAt p 0 2 * 1000000)) ∧
    (Request 0x0602 (some 4) 0 h p s → xkJoined s = true →
      ∃ v t, exec (.xkLeave h p) s = .next t ∧ Accepted 0x0602 h p t ∧ AnsweredOnly h v t ∧
        v = xkMod (fun x => { x with leaving := true }) (accept h 0x0602 0 p none 0 s).1) ∧
    (∀ (n : Nat) (w : List Nat), leAt p 0 1 = n → n ≤ 15 ∨ n = 0xFF → xkJoined s = true →
      w = (((nodesOf s.xk.present).erase s.xk.node).filter fun k => decide (k = n ∨ n = 0xFF)) →
      Request 0x0603 (some 4) 4 h p s → leAt p 1 3 = 0 → (∀ q ∈ s.xk.soundings, q.wait ≠ []) →
      ∃ v t, exec (.xkSound h p) s = .next t ∧ Accepted 0x0603 h p t ∧ AnsweredOnly h v t ∧
        v.xk.queue = s.xk.queue ++ [{ dest := if n = 0xFF then 16 else n, kind := 13, seq := 0, body := [] }] ∧
        (w ≠ [] → ∃ q ∈ v.xk.soundings, q.cmd = s.sup.nextCmd ∧ q.wait = w) ∧
        (w = [] → Finished s.sup.nextCmd 0 0 (List.replicate 8 0) v) ∧ v.regs = s.regs ∧ SameStores s v) ∧
    (∀ n : Nat, leAt p 0 1 = n → n ≤ 15 → bitAt s.xk.present n = true → xkJoined s = true →
      Request 0x0606 (some 4) (16 + leAt p 12 2) h p s → leAt p 1 7 = 0 → s.xk.relayIn = [] ∨ s.xk.relayBusy.isSome = true →
      ∃ v t, exec (.xkRelay h p) s = .next t ∧ Accepted 0x0606 h p t ∧ AnsweredOnly h v t ∧
        v.xk.relays = s.xk.relays ++ [(s.sup.nextCmd, n, s.xk.cycle)] ∧ SameStores s v ∧
        (n ≠ s.xk.node → v.xk.queue = s.xk.queue ++ [{ dest := n, kind := 10, seq := 0, body := p.drop 8 }] ∧
          v.xk.relayIn = s.xk.relayIn ∧ v.regs = s.regs) ∧
        (n = s.xk.node → v.xk.queue = s.xk.queue ∧
          (s.xk.relayBusy.isSome = true ∨ mbFree s 7 = false → v.xk.relayIn = s.xk.relayIn ++ [(n, p.drop 8)]) ∧
          (s.xk.relayBusy = none → mbFree s 7 = true → v.xk.relayBusy = some n ∧ mbState v 7 = 1 ∧
            mbReq v 7 (p.length - 8) = p.drop 8))) ∧
    (Request 0x0604 (some 4) 8 h p s → leAt p 0 1 ≤ 1 → leAt p 1 1 ≤ 63 → leAt p 2 1 ≤ 1 → leAt p 3 1 ≤ 15 →
      leAt p 6 2 ≤ 32767 →
      ∃ v t, exec (.xkRxSet h p) s = .next t ∧ Answered 0x0604 0 [] h t ∧ AnsweredOnly h v t ∧ SameStores s v ∧
        regGet v 0x9010 = w32 (leAt p 3 1 + 256 * leAt p 0 1 + 512 * leAt p 2 1 + 1024 * leAt p 1 1) ∧
        regGet v 0x9014 = w32 (leAt p 4 2 + 65536 * leAt p 6 2) ∧
        v.xk.gain = (if s.xk.rx == .search then 2 * leAt p 1 1 else s.xk.gain) ∧ v.xk.net = s.xk.net ∧
        ∀ o, o ≠ 0x9010 → o ≠ 0x9014 → regGet v o = regGet s o) ∧
    (∀ e : XkPeer, Request 0x0605 none 4 h p s → leAt p 0 1 ≤ 15 → leAt p 1 3 = 0 → peerOf s (leAt p 0 1) = e →
      ∃ t d, exec (.xkStats h p) s = .next t ∧ Answered 0x0605 0 d h t ∧ AnsweredOnly h s t ∧ leAt d 0 4 = e.tx % 2 ^ 32 ∧
        leAt d 4 4 = e.rx % 2 ^ 32 ∧ leAt d 8 4 = e.nRetries % 2 ^ 32 ∧ leAt d 12 4 = e.nDropped % 2 ^ 32 ∧
        leAt d 16 4 = e.hdrCrc % 2 ^ 32 ∧ leAt d 20 4 = e.payCrc % 2 ^ 32 ∧ d.length = 28 ∧
        leAt d 24 4 = mapKbps ((e.txMaps.head?).map (·.2)) s.xk.cp % 2 ^ 32) ∧
    ∀ (m : Nat) (md : Model) (w : List Nat) (d : List Byte), Request 0x0607 (some 4) 4 h p s → Quiet s → leAt p 0 1 = m →
      m ≤ 31 → leAt p 1 1 = 0 → xkJoined s = true → modelOf s m = some md → (∀ b ∈ s.xk.bcastTx, b.waiting ≠ []) →
      w = ((nodesOf (leAt p 2 2)).filter fun n => bitAt s.xk.present n && decide (n ≠ s.xk.node)) →
      (bcastData md (accept h 0x0607 m p none 0 s).1).2 = d →
      ∃ v t, exec (.xkModelBcast h p) s = .next t ∧ Accepted 0x0607 h p t ∧ AnsweredOnly h v t ∧ v.models = s.models ∧
        (w = [] → Finished s.sup.nextCmd 0 0 (leBytes 2 0 ++ leBytes 2 (leAt p 2 2)) v ∧ v.xk.bcastTx = s.xk.bcastTx) ∧
        (w ≠ [] → ∃ b : BcastTx, v.xk.bcastTx = s.xk.bcastTx ++ [b] ∧ b.cmd = s.sup.nextCmd ∧ b.waiting = w ∧ b.data = d ∧
          1 ≤ b.frag ∧ b.queue = (natsFrom 0 (cdiv d.length b.frag)).map (· * b.frag) ∧ b.failed = leAt p 2 2 - maskOf w)

/-- SCRUB_SET, CORE_DISABLE, CORE_RELEASE, CORE_MAP, BANK_SPARE, BANK_TEST, REPAIR_RECORD, SUP_RELEASE, ERR_INJECT. For
requests that pass the checks. SCRUB_SET sets the rate. A graceful CORE_DISABLE of a mapped core of a core set leaves it
pending; repeated it is answered OK; in no core set the core leaves at once. A forced one is the forced disable; it
quarantines a core in no core set, which an IDLE replacement takes over and an OFF one once it is up. CORE_RELEASE of a
quarantined core makes it OFF, or IDLE where powered, or wakes it; CORE_MAP of an IDLE core to an unmapped logical core maps
it. BANK_SPARE picks a free spare, wakes group 16 and starts the copy. BANK_TEST of a bank not in service completes with
eight bytes that the spec leaves open. REPAIR_RECORD and SUP_RELEASE run on. ERR_INJECT makes a good word correctable or
uncorrectable, a marked one what a free value says, and no other. (R219, R428, R432, R433, R435, R437, R685, R752, R753,
R754, R897, 16_faults_repair.md) -/
def Obligations.RepairCommandsAct : Prop :=
  ∀ (h : Hdr) (p : List Byte) (s : State),
    (Request 0x0700 (some 5) 4 h p s → 1 ≤ leAt p 0 1 → leAt p 0 1 ≤ 168 → leAt p 1 3 = 0 →
      ∃ t, exec (.scrubSet h p) s = .next t ∧ Answered 0x0700 0 [] h t ∧ AnsweredOnly h (regField 0x820 24 8 (leAt p 0 1) s) t) ∧
    (∀ (k : Nat) (r : Option Nat), leAt p 0 1 = k → k ≤ 67 → r = (if leAt p 2 1 = 0xFF then none else some (leAt p 2 1)) →
      (∀ q ∈ r, q ≤ 67) → leAt p 3 1 ≤ 3 →
      (Posed (some 5) 4 h p s → leAt p 1 1 = 0 → coreState s k = .pending →
        ∃ t, exec (.coreDisable h p) s = .next t ∧ Answered 0x0701 0 [] h t ∧ AnsweredOnly h s t) ∧
      ((∀ q ∈ r, coreState s q = .idle ∨ coreState s q = .off) → (bitAt (leAt p 3 1) 1 = true → storeBusy s = false) →
        (Posed (some 5) 4 h p s → leAt p 1 1 = 1 → coreState s k = .mapped ∨ coreState s k = .pending →
          (busyBut s 0x0701 p fun l => l.opcode == 0x0701 && leAt l.payload 1 1 == 0) = false →
          exec (.coreDisable h p) s = .next (settle (schedTick
            (answerWith 0x0701 1 [] h (disableForced k r s.sup.nextCmd (accept h 0x0701 k p none 1 s).1))))) ∧
        ∀ c : Nat, Request 0x0701 (some 5) 4 h p s → coreState s k = .mapped → logicalOf s k = some c →
          (∀ cs : Nat, leAt p 1 1 = 0 → csOfCore s c = some cs →
            ∃ v t, exec (.coreDisable h p) s = .next t ∧ Accepted 0x0701 h p t ∧ AnsweredOnly h v t ∧ coreState v k = .pending ∧
              v.coreMap = s.coreMap ∧ (∀ q ∈ r, coreState v q = (if coreState s q = .off then .waking else .idle)) ∧
              (∀ j, j ≠ k → r ≠ some j → tabGet {} v.cores j = tabGet {} s.cores j) ∧ SameStores s v) ∧
          (leAt p 1 1 ≤ 1 → csOfCore s c = none →
            ∃ v t, exec (.coreDisable h p) s = .next t ∧ Accepted 0x0701 h p t ∧ AnsweredOnly h v t ∧
              coreState v k = (if leAt p 1 1 = 1 then .quarantined else if bitAt (leAt p 3 1) 0 then .idle else .off) ∧
              Finished s.sup.nextCmd 0 0 [b8 c, b8 (r.getD 0xFF), 0, 0] v ∧
              physCore v c = (if r.any fun q => coreState s q == .idle then r else none) ∧
              (∀ q ∈ r, coreState v q = (if coreState s q = .off then .waking else .mapped)) ∧
              (∀ j, j ≠ k → r ≠ some j → tabGet {} v.cores j = tabGet {} s.cores j) ∧ v.mem = s.mem)) ∧
      (Request 0x0702 (some 5) 4 h p s → leAt p 2 2 = 0 → coreState s k = .quarantined →
        (leAt p 1 1 = 0 → ∃ v t, exec (.coreRelease h p) s = .next t ∧ Answered 0x0702 0 [] h t ∧ AnsweredOnly h v t ∧
          coreState v k = .off ∧ (domOf v k).on = false ∧ (domOf v k).trans = some (false, s.ts) ∧
          (∀ j, j ≠ k → tabGet {} v.cores j = tabGet {} s.cores j ∧ domOf v j = domOf s j) ∧ SameStores s v) ∧
        (leAt p 1 1 = 1 → (domOf s k).on = false → ∃ v t, exec (.coreRelease h p) s = .next t ∧ Answered 0x0702 0 [] h t ∧
          AnsweredOnly h v t ∧ coreState v k = .waking ∧ (domOf v k).trans = some (true, s.ts) ∧
          (∀ j, j ≠ k → tabGet {} v.cores j = tabGet {} s.cores j ∧ domOf v j = domOf s j) ∧ SameStores s v) ∧
        (leAt p 1 1 = 1 → (domOf s k).on = true → ∃ t, exec (.coreRelease h p) s = .next t ∧ Answered 0x0702 0 [] h t ∧
          AnsweredOnly h (coreMod k (fun x => { x with state := .idle }) s) t))) ∧
    (∀ c k : Nat, Request 0x0703 (some 5) 4 h p s → leAt p 0 1 = c → leAt p 1 1 = k → c ≤ 63 → k ≤ 67 → leAt p 2 2 = 0 →
      physCore s c = none → coreState s k = .idle → ∃ v t, exec (.coreMap h p) s = .next t ∧ Answered 0x0703 0 [] h t ∧
        AnsweredOnly h v t ∧ physCore v c = some k ∧ coreState v k = .mapped ∧ bitAt (regGet v 0x570).toNat 4 = true ∧
        (∀ d, d ≠ c → physCore v d = physCore s d) ∧ SameStores s v) ∧
    (∀ b n d : Nat, Request 0x0704 (some 5) 8 h p s → leAt p 0 2 = b → b ≤ 255 → leAt p 2 2 = n →
      (256 ≤ n ∧ n ≤ 271 ∨ n = 0xFFFF) → leAt p 4 1 ≤ 1 → leAt p 5 3 = 0 → s.limp = none → s.copy = none →
      (leAt p 4 1 = 1 → storeBusy s = false) → sparePick s n = some d →
      ∃ v t, exec (.bankSpare h p) s = .next t ∧ Accepted 0x0704 h p t ∧ AnsweredOnly h v t ∧ v.copy = some ⟨b, d⟩ ∧
        (n ≠ 0xFFFF → d = n) ∧ 256 ≤ d ∧ spareFree s d = true ∧
        (groupOf s 16 = .on → v = { (accept h 0x0704 b p none 0 s).1 with copy := some ⟨b, d⟩ }) ∧
        (groupOf s 16 ≠ .on → ∃ f, groupOf v 16 = .toOn f) ∧ (∀ g, g ≠ 16 → groupOf v g = groupOf s g) ∧ SameStores s v) ∧
    (∀ n : Nat, Request 0x0705 (some 5) 4 h p s → leAt p 0 2 = n → n ≤ 271 → leAt p 2 2 = 0 → bankServes s n = false →
      ∃ v t r, exec (.bankTest h p) s = .next t ∧ Accepted 0x0705 h p t ∧ AnsweredOnly h v t ∧ r.length = 8 ∧
        Finished s.sup.nextCmd 0 0 r v ∧ SameStores s v ∧ v.ecc = s.ecc ∧ v.bankMap = s.bankMap) ∧
    (Request 0x0706 (some 5) 0 h p s → storeBusy s = false → ∃ t, exec (.repairRecord h p) s = .next t ∧ Accepted 0x0706 h p t ∧
      AnsweredOnly h (accept h 0x0706 0 p none 0 s).1 t) ∧
    (Request 0x0707 (some 5) 0 h p s → s.sup.held ≠ none → ∃ t, exec (.supRelease h p) s = .next t ∧ Accepted 0x0707 h p t ∧
      AnsweredOnly h (accept h 0x0707 0 p (some (s.ts + 1000000000)) 0 s).1 t) ∧
    ∀ kind a : Nat, Request 0x0708 (some 5) 12 h p s → leAt p 0 1 = kind → leAt p 1 3 = 0 → leAt p 4 8 = a → a % 8 = 0 →
      (kind < 2 → a < localSize s → ∃ v t, exec (.errInject h p) s = .next t ∧ Answered 0x0708 0 [] h t ∧
        AnsweredOnly h v t ∧ (eccAt s a = .ok → eccAt v a = (if kind = 1 then .uncorrectable else .correctable)) ∧
        (∀ w, w ≠ a → eccAt v w = eccAt s w) ∧ v.nearEcc = s.nearEcc ∧ SameStores s v) ∧
      ((kind = 2 ∨ kind = 3) → 0x2000000000 ≤ a → a < 0x2004000000 →
        (physCore s ((a - 0x2000000000) / 0x100000) = none → ∃ t, exec (.errInject h p) s = .next t ∧
          Answered 0x0708 0 [] h t ∧ AnsweredOnly h s t) ∧
        ∀ k : Nat, physCore s ((a - 0x2000000000) / 0x100000) = some k →
          ∃ v t, exec (.errInject h p) s = .next t ∧ Answered 0x0708 0 [] h t ∧ AnsweredOnly h v t ∧
            (nearEccAt s (nearKey k (a % 0x100000)) = .ok →
              nearEccAt v (nearKey k (a % 0x100000)) = (if kind = 3 then .uncorrectable else .correctable)) ∧
            (∀ w, w ≠ nearKey k (a % 0x100000) → nearEccAt v w = nearEccAt s w) ∧ v.ecc = s.ecc ∧ SameStores s v)

/-- DS_GROUP_POWER, CORE_POWER, PORT_POWER, TRESTLE_POWER, XK_POWER, POCXP_SET, THERMAL_SET, POWER_STATUS. For requests
that pass the checks. DS_GROUP_POWER moves the named groups toward the state, the others stay. CORE_POWER wakes an OFF
core, turns an IDLE or WAKING one OFF (one that was to serve a logical core leaves it unmapped), and does nothing to one that
is there. PORT_POWER, TRESTLE_POWER and XK_POWER start the domain's transition unless it is there or on its way; a port with
no stream receiving that leaves ON is DISABLED, an idle Trestle pair that goes OFF loses its cores' state, the Xanik receiver
stops. POCXP_SET changes the masked supply bits, THERMAL_SET stores both thresholds, POWER_STATUS answers Tj, supply voltage,
power and throttle level. (R273, R276, R755, R903, R905, R149, R162, R915, R764, 13_command_set.md, 17_power_reset_boot.md) -/
def Obligations.PowerCommandsSwitchDomains : Prop :=
  ∀ (h : Hdr) (p : List Byte) (s : State),
    (∀ m tgt : Nat, Request 0x0800 (some 6) 8 h p s → leAt p 0 4 = m → m < 2 ^ 17 → leAt p 4 1 = tgt → tgt ≤ 2 → leAt p 5 1 ≤ 2 →
      leAt p 6 2 = 0 → (m ≠ 0 → s.limp = none) → (tgt = 0 → ∀ g, g < 17 → bitAt m g = true → groupKept s g = false) →
      (bitAt m 16 = true → spareMapped s = false) →
      ∃ v t, exec (.dsGroupPower h p) s = .next t ∧ Answered 0x0800 0 [] h t ∧ AnsweredOnly h v t ∧
        v.autowake = (if leAt p 5 1 = 2 then s.autowake else leAt p 5 1 == 1) ∧
        (∀ g, groupOf v g = (if g < 17 ∧ bitAt m g = true then groupNext (groupOf s g) tgt else groupOf s g)) ∧
        (∀ d, (d < 68 ∨ 85 ≤ d) → domOf v d = domOf s d) ∧ SameStores s v ∧ v.ecc = s.ecc) ∧
    (∀ k : Nat, Request 0x0801 (some 6) 4 h p s → leAt p 0 1 = k → k ≤ 67 → leAt p 2 2 = 0 →
      (leAt p 1 1 = 1 ∧ (coreState s k = .idle ∨ coreState s k = .waking) ∨ leAt p 1 1 = 0 ∧ coreState s k = .off →
        ∃ t, exec (.corePower h p) s = .next t ∧ Answered 0x0801 0 [] h t ∧ AnsweredOnly h s t) ∧
      (leAt p 1 1 = 1 → coreState s k = .off → ∃ v t, exec (.corePower h p) s = .next t ∧ Answered 0x0801 0 [] h t ∧
        AnsweredOnly h v t ∧ coreState v k = .waking ∧ (domOf v k).trans = some (true, s.ts) ∧ (domOf v k).on = false ∧
        (∀ j, j ≠ k → tabGet {} v.cores j = tabGet {} s.cores j ∧ domOf v j = domOf s j) ∧ SameStores s v) ∧
      (leAt p 1 1 = 0 → coreState s k = .idle ∨ coreState s k = .waking →
        ∃ v t, exec (.corePower h p) s = .next t ∧ Answered 0x0801 0 [] h t ∧ AnsweredOnly h v t ∧ coreState v k = .off ∧
        ((tabGet {} s.cores k).mapTo ≠ none → bitAt (regGet v 0x570).toNat 5 = true) ∧ (domOf v k).trans = some (false, s.ts) ∧ (domOf v k).on = false ∧
        (∀ j, j ≠ k → tabGet {} v.cores j = tabGet {} s.cores j ∧ domOf v j = domOf s j) ∧ SameStores s v)) ∧
    (∀ (n b d : Nat) (x : Domain), leAt p 0 1 = n → leAt p 1 1 = b → b ≤ 1 → leAt p 2 2 = 0 →
      x = (if (match (domOf s d).trans with | some (on, _) => on | none => (domOf s d).on) = (b == 1) then domOf s d
        else { on := false, trans := some (b == 1, s.ts) }) →
      (d = 85 + n → n ≤ 5 → Request 0x0802 (some 6) 4 h p s →
        (b = 0 → domOn s d = true → ∀ j, j < 4 → streamTakes (streamOf s (4 * n + j)) = false) →
        ∃ t, exec (.portPower h p) s = .next t ∧ Answered 0x0802 0 [] h t ∧ domOf t d = x ∧
          (∀ e, e ≠ d → domOf t e = domOf s e) ∧
          (portOf t n).link = (if domOn s d = true ∧ b = 0 then .disabled else (portOf s n).link) ∧
          (∀ q, q ≠ n → portOf t q = portOf s q) ∧ t.streams = s.streams ∧ SameStores s t) ∧
      (d = 91 + n → n ≤ 3 → b = 0 → Request 0x0803 (some 6) 4 h p s → trBootable s (2 * n) = true →
        trBootable s (2 * n + 1) = true → ∃ v t, exec (.trestlePower h p) s = .next t ∧ Answered 0x0803 0 [] h t ∧
          AnsweredOnly h v t ∧ domOf v d = x ∧ (∀ e, e ≠ d → domOf v e = domOf s e) ∧ hartOf v (2 * n) = {} ∧
          hartOf v (2 * n + 1) = {} ∧ (∀ i, i / 2 ≠ n → hartOf v i = hartOf s i) ∧ SameStores s v) ∧
      (d = 91 + n → n ≤ 3 → b = 1 → Request 0x0803 (some 6) 4 h p s → ∃ v t, exec (.trestlePower h p) s = .next t ∧
          Answered 0x0803 0 [] h t ∧ AnsweredOnly h v t ∧ domOf v d = x ∧ (∀ e, e ≠ d → domOf v e = domOf s e) ∧
          v.harts = s.harts ∧ SameStores s v)) ∧
    (Request 0x0804 (some 6) 4 h p s → leAt p 0 1 ≤ 1 → leAt p 1 3 = 0 → xkJoined s = false →
      ∃ v t, exec (.xkPower h p) s = .next t ∧ Answered 0x0804 0 [] h t ∧ AnsweredOnly h v t ∧
        domOf v 95 = (if (match (domOf s 95).trans with | some (on, _) => on | none => (domOf s 95).on) = (leAt p 0 1 == 1)
          then domOf s 95 else { on := false, trans := some (leAt p 0 1 == 1, s.ts) }) ∧
        (∀ e, e ≠ 95 → domOf v e = domOf s e) ∧ (leAt p 0 1 = 0 → v.xk.rx = .off ∧ v.xk.txQueue = []) ∧
        (leAt p 0 1 = 1 → v.xk = s.xk) ∧ SameStores s v) ∧
    (∀ n : Nat, Request 0x0805 (some 6) 4 h p s → leAt p 0 1 = n → n ≤ 5 → leAt p 1 1 ≤ 15 → leAt p 2 1 ≤ 15 → leAt p 3 1 = 0 →
      ∃ t, exec (.pocxpSet h p) s = .next t ∧ Answered 0x0805 0 [] h t ∧ AnsweredOnly h { s with ports := t.ports } t ∧
        (∀ i, i < 4 → bitAt (portOf t n).pwrEn i =
          (if bitAt (leAt p 1 1) i = true then bitAt (leAt p 2 1) i else bitAt (portOf s n).pwrEn i)) ∧
        portOf t n = { portOf s n with pwrEn := (portOf t n).pwrEn } ∧ ∀ q, q ≠ n → portOf t q = portOf s q) ∧
    (Request 0x0806 (some 6) 4 h p s → leAt p 2 2 = 0 → sgn 8 (leAt p 0 1) ≤ sgn 8 (leAt p 1 1) → sgn 8 (leAt p 1 1) ≤ gradeMax →
      ∃ t, exec (.thermalSet h p) s = .next t ∧ Answered 0x0806 0 [] h t ∧
        AnsweredOnly h (regSet 0x8010 (w32 (leAt p 0 1 + 256 * leAt p 1 1)) s) t) ∧
    (Request 0x0807 none 0 h p s → ∃ t d, exec (.powerStatus h p) s = .next t ∧ Answered 0x0807 0 d h t ∧ AnsweredOnly h s t ∧
      d.length = 12 ∧ leAt d 0 2 = regBits s 0x800C 0 16 ∧ leAt d 2 2 = regBits s 0x8014 16 10 ∧
      leAt d 4 4 = (regGet s 0x8018).toNat ∧ leAt d 8 1 = regBits s 0x8000 0 3)

/-- CFG_GET, CFG_SET, CFG_COMMIT, CFG_DISCARD, FW_STAGE, FW_HANDOVER, TR_BOOT, TR_HALT, TR_EV_OWNER. For requests that
pass the checks. CFG_GET answers an item in force or staged; CFG_SET stages a value in range, CFG_DISCARD drops all staged
ones; CFG_COMMIT, FW_STAGE and FW_HANDOVER run on, the last pausing command service. TR_BOOT (nothing scheduled, no other
boot running) of an image that cannot be read completes FAULT, of an unsound one BAD_PARAM, with the cores as they were; of a
sound one with a pair not ON it starts the pairs and runs on; with every pair ON it runs the cores in machine mode with their
number in a0. TR_HALT mode 0 makes running cores HALT_REQUESTED with their timeout, and of no core it ends at once; mode 1
stops them (here: nothing scheduled, no ring, no semaphore). TR_EV_OWNER sets or clears an event's owner. (R661, R665, R667,
R668, R669, R670, R673, R686, R757, R758, 11_trestle_cluster.md, 13_command_set.md) -/
def Obligations.FirmwareAndTrestleCommands : Prop :=
  ∀ (h : Hdr) (p : List Byte) (s : State),
    (∀ i j : Nat, leAt p 0 1 = i → leAt p 1 1 = j → cfgNamed i j = true → leAt p 3 1 = 0 →
      (∀ v : List Byte, Request 0x0900 none 4 h p s →
        leAt p 2 1 = 0 ∧ v = (tabGet? s.sup.cfg (i * 256 + j)).getD (cfgDefault i j) ∨
          leAt p 2 1 = 1 ∧ v = (tabGet? s.sup.cfgStaged (i * 256 + j)).getD [] →
        ∃ t, exec (.cfgGet h p) s = .next t ∧ AnsweredOnly h s t ∧ Answered 0x0900 0 ([b8 v.length, 0, 0, 0] ++ v) h t) ∧
      (∀ n k : Nat, Request 0x0901 (some 7) (4 + n) h p s → leAt p 2 1 = n → cfgItem i = some (n, k) →
        cfgValueOk i (p.drop 4) = true → ∃ v t, exec (.cfgSet h p) s = .next t ∧ Answered 0x0901 0 [] h t ∧ AnsweredOnly h v t ∧
          tabGet? v.sup.cfgStaged (i * 256 + j) = some (p.drop 4) ∧ v.sup.cfg = s.sup.cfg ∧ v.flash = s.flash ∧
          (∀ e, e ≠ i * 256 + j → tabGet? v.sup.cfgStaged e = tabGet? s.sup.cfgStaged e) ∧ SameStores s v)) ∧
    (Request 0x0902 (some 7) 0 h p s → s.sup.cfgStaged ≠ [] → storeBusy s = false →
      ∃ t, exec (.cfgCommit h p) s = .next t ∧ Accepted 0x0902 h p t ∧ AnsweredOnly h (accept h 0x0902 0 p none 0 s).1 t) ∧
    (Request 0x0903 (some 7) 0 h p s →
      ∃ t, exec (.cfgDiscard h p) s = .next t ∧ Answered 0x0903 0 [] h t ∧
        AnsweredOnly h { s with sup := { s.sup with cfgStaged := [] } } t) ∧
    (Request 0x0904 (some 7) 12 h p s → leAt p 2 2 = 0 → rangeIn s (leAt p 0 2) (leAt p 4 4) (leAt p 8 4) = true →
      ∃ t, exec (.fwStage h p) s = .next t ∧ Accepted 0x0904 h p t ∧
        AnsweredOnly h (accept h 0x0904 (leAt p 0 2 % 256) p none 0 s).1 t) ∧
    (Request 0x0905 (some 7) 0 h p s → s.sup.staged ≠ none → bitAt (regGet s 0x20).toNat 3 = true →
      ∃ v t, exec (.fwHandover h p) s = .next t ∧ Accepted 0x0905 h p t ∧ AnsweredOnly h v t ∧
        v.sup.handover = some s.sup.nextCmd ∧ serves v = false ∧ v.regs = s.regs ∧ SameStores s v) ∧
    (∀ (hv cores code : Nat) (r : State) (d : List Byte), Request 0x0A00 (some 1) 20 h p s → Quiet s → leAt p 0 2 = hv →
      leAt p 2 1 = cores → leAt p 3 1 = 0 → handleOk s hv = true → (∀ b ∈ (p.drop 4).take 16, b.toNat ≤ 7 ∨ b = 0xFF) →
      (∀ i ∈ trCores cores, trBootable s i = true) → (∀ e ∈ s.sup.longs, e.2.opcode ≠ 0x0A00) →
      supRead (handleOf s (hv % 256)).base (4096 * (handleOf s (hv % 256)).units)
        (l2Flush (handleOf s (hv % 256)).base (4096 * (handleOf s (hv % 256)).units) s) = (r, code, d) →
      (code ≠ 0 ∨ trImageOk d (modelKey s (leAt d 0x18 1)) (signedOnly s) = false → ∃ v t, exec (.trBoot h p) s = .next t ∧
        Accepted 0x0A00 h p t ∧ AnsweredOnly h v t ∧ Finished s.sup.nextCmd (if code = 0 then 0x12 else 0x40) 0 [] v ∧
        v.harts = s.harts ∧ v.mem = r.mem) ∧
      (code = 0 → trImageOk d (modelKey s (leAt d 0x18 1)) (signedOnly s) = true →
        ((∃ i ∈ trCores cores, (domOf s (91 + i / 2)).on = false) → ∃ v t, exec (.trBoot h p) s = .next t ∧
          Accepted 0x0A00 h p t ∧ AnsweredOnly h v t ∧ v.harts = s.harts ∧
          (∀ i ∈ trCores cores, domOn s (91 + i / 2) = true ∨ ∃ since, (domOf v (91 + i / 2)).trans = some (true, since))) ∧
        ((∀ i ∈ trCores cores, domOn s (91 + i / 2) = true) → ∃ v t, exec (.trBoot h p) s = .next t ∧
          Accepted 0x0A00 h p t ∧ AnsweredOnly h v t ∧ Finished s.sup.nextCmd 0 0 [b8 cores, 0, 0, 0] v ∧
          (∀ i ∈ trCores cores, (hartOf v i).state = .running ∧ (hartOf v i).priv = 3 ∧
            tabGet 0 (hartOf v i).x 10 = BitVec.ofNat 64 i) ∧ ∀ i, i ∉ trCores cores → hartOf v i = hartOf s i))) ∧
    (∀ cores tmo : Nat, leAt p 0 1 = cores → leAt p 4 4 = tmo → leAt p 2 2 = 0 → (∀ i ∈ trCores cores, trRuns s i = true) →
      (Request 0x0A01 (some 1) 8 h p s → leAt p 1 1 = 0 → cores = 0 → ∃ v t, exec (.trHalt h p) s = .next t ∧
        Accepted 0x0A01 h p t ∧ AnsweredOnly h v t ∧ Finished s.sup.nextCmd 0 0 [0, 0, 0, 0] v ∧ v.harts = s.harts) ∧
      (Request 0x0A01 (some 1) 8 h p s → leAt p 1 1 = 0 → cores ≠ 0 → ∃ v t, exec (.trHalt h p) s = .next t ∧ Accepted 0x0A01 h p t ∧ AnsweredOnly h v t ∧
        (∀ i ∈ trCores cores, hartOf v i =
          { hartOf s i with state := .haltRequested, haltBy := some (s.ts + 1000 * tmo, s.sup.nextCmd) }) ∧
        (∀ i, i ∉ trCores cores → hartOf v i = hartOf s i) ∧ SameStores s v) ∧
      (Posed (some 1) 8 h p s → (busyBut s 0x0A01 p fun l => haltMeets cores l) = false → leAt p 1 1 = 1 → tmo = 0 → Quiet s →
        s.rings = [] → s.sems = [] → ∃ v t, exec (.trHalt h p) s = .next t ∧ Accepted 0x0A01 h p t ∧ AnsweredOnly h v t ∧ (∀ i ∈ trCores cores, (hartOf v i).state = .stopped) ∧
        (∀ i, i ∉ trCores cores → hartOf v i = hartOf s i) ∧ ∃ e, tabGet? v.sup.longs s.sup.nextCmd = some e ∧
          (e.done.map fun x => (x.1, x.2.1)) = some (0, 0))) ∧
    ∀ k c : Nat, Request 0x0A02 (some 1) 4 h p s → leAt p 0 1 = k → k ≤ 15 → leAt p 1 1 = c → (c ≤ 7 ∨ c = 0xFF) → leAt p 2 2 = 0 →
      ∃ v t, exec (.trEvOwner h p) s = .next t ∧ Answered 0x0A02 0 [] h t ∧ AnsweredOnly h v t ∧
        tabGet? v.evOwner k = (if c ≤ 7 then some c else none) ∧ (∀ j, j ≠ k → tabGet? v.evOwner j = tabGet? s.evOwner j) ∧
        SameStores s v ∧ v.regs = s.regs

/-- POWER_DOMAIN_TRANSITION_DONE, DOMAIN_FAIL, PCIE_LINK_DOWN, THROTTLE_STEP, POWER_ESTIMATE, VID_STEP, BOD_WARN,
BOD_WARN_END, THERMAL_SAMPLE, BROWN_OUT_RESET. With u the state at the instant. A transition ends when its time has passed:
a core that comes up has a zero near store, and one that was WAKING is IDLE or serves the logical core that waits for it;
an enabled port goes to DISCOVERY, the cores of a Trestle pair that were OFF are in RESET, Xanik searches; a bank group is in
the state it went to, and its cells are gone when it comes from or goes to OFF. A domain not ON after twice its time sets
DOMAIN_FAIL. The link down ends the link's settings and MSI-X. Outside a held reset: the throttle level moves every 10 ms, up
at THROTTLE_TJ and down 5 °C below it; VID moves one code per 100 µs at most, within 0 to 20; a rail's first warning sets its
bits. BOD_WARN_END clears them. Tj is the highest reading; 125 °C for 100 µs resets with the thermal cause and holds. A
brown-out of VDD_XK switches Xanik off, of VDD_AON or VDDIO_18 it is a power-on reset, else a system reset, with the rail. In
a held reset monitors change nothing, but a reading below 110 °C ends a thermal hold. (R276, R894, R903, R905, R909, R911,
R912, R914, R915, R916, R926, 17_power_reset_boot.md) -/
def Obligations.PowerMonitorsAndDomainsFollow : Prop :=
  ∀ (t : Nat) (s u : State), timeTo t s = u →
    (∀ d : Fin 96, Calm u →
      ((domOf u d).trans = none → exec (.powerDomainTransitionDone d t) s = .next (settle u) ∧
        exec (.domainFail d t) s = .next (settle u)) ∧
      ∀ (on : Bool) (since time : Nat), (domOf u d).trans = some (on, since) →
        time = (if d.val < 68 ∨ 85 ≤ d.val then domTime d on else groupTime (groupOf u (d - 68))) →
        (u.ts < since + time → exec (.powerDomainTransitionDone d t) s = .next (settle u)) ∧
        exec (.domainFail d t) s =
          .next (settle (if on = true ∧ time ≠ 0 ∧ since + 2 * time < u.ts then regOr 0x8004 0x20 u else u)) ∧
        (since + time ≤ u.ts → d.val < 68 ∨ 85 ≤ d.val → on = false →
          exec (.powerDomainTransitionDone d t) s = .next (settle (domPut d {} u))) ∧
        (since + time ≤ u.ts → d.val < 68 → on = true → ∃ v, exec (.powerDomainTransitionDone d t) s = .next v ∧
          domOf v d = { on := true } ∧ (∀ j, j ≠ d.val → domOf v j = domOf u j) ∧ v.mem = u.mem ∧ v.handles = u.handles ∧
          (∀ a, tabGet 0 v.near a = if a / 2 ^ 20 = d.val then 0 else tabGet 0 u.near a) ∧
          (coreState u d ≠ .waking → coreState v d = coreState u d ∧ v.coreMap = u.coreMap) ∧
          (coreState u d = .waking → (tabGet {} u.cores d).mapTo = none → coreState v d = .idle ∧ v.coreMap = u.coreMap) ∧
          (coreState u d = .waking → ∀ c, (tabGet {} u.cores d).mapTo = some c →
            (physCore u c = none → coreState v d = .mapped ∧ physCore v c = some d.val) ∧
            (physCore u c ≠ none → coreState v d = .idle ∧ v.coreMap = u.coreMap))) ∧
        (since + time ≤ u.ts → 85 ≤ d.val → on = true → ∃ v, exec (.powerDomainTransitionDone d t) s = .next v ∧
          domOf v d = { on := true } ∧ (∀ j, j ≠ d.val → domOf v j = domOf u j) ∧
          (∀ n, d.val = 85 + n → n < 6 → (portOf v n).link =
            (if (portOf u n).en = true then .discovery else (portOf u n).link)) ∧
          (∀ n, d.val = 91 + n → n < 4 → (∀ e ∈ u.sup.longs, e.2.opcode ≠ 0x0A00) → ∀ i, hartOf v i =
            (if i / 2 = n ∧ (hartOf u i).state = .off then { state := .reset } else hartOf u i)) ∧
          (d.val = 95 → v.xk.rx = .search ∧ v.xk.gain = restGain u)) ∧
        ∀ g, d.val = 68 + g → g < 17 → since + time ≤ u.ts → ∃ v, exec (.powerDomainTransitionDone d t) s = .next v ∧
          groupOf v g = (match groupOf u g with
            | .toOn _ => .on | .toRetain _ => .retain | .toOff => .off | x => x) ∧
          (∀ j, j ≠ g → j ≠ 16 → groupOf v j = groupOf u j) ∧ domOf v d = {} ∧ (∀ j, j ≠ d.val → domOf v j = domOf u j) ∧
          v.handles = u.handles ∧ v.near = u.near ∧ ∀ a, memByte v a = (if bankOf u a / 16 = g ∧ (match groupOf u g with
            | .toOn f | .toRetain f => f | .toOff => true | _ => false) = true then 0 else memByte u a)) ∧
    (∀ w : State, w = { u with
        msix := [], pba := 0, funcMask := false,
        pwr := { u.pwr with linkUp := false, busMaster := false, maxPayload := 128, maxRead := 512, linkRate := 0,
                            linkLanes := 0, d3hot := false, aspmL1 := false } } →
      (u.pwr.linkUp = false → exec (.pcieLinkDown t) s = .next (settle w)) ∧
      (u.pwr.linkUp = true → Quiet u → u.rings = [] → u.sems = [] → ∃ v, exec (.pcieLinkDown t) s = .next v ∧ v.msix = [] ∧
        v.funcMask = false ∧ v.pwr = w.pwr)) ∧
    (inReset u = true →
      (∀ (mw : Word) (up : Bool) (rail : Fin 8), exec (.throttleStep t) s = .next (settle u) ∧
        exec (.powerEstimate mw t) s = .next (settle u) ∧ exec (.vidStep up t) s = .next (settle u) ∧
        exec (.bodWarn rail t) s = .next (settle u)) ∧
      (u.pwr.tripHold = false → ∀ l, exec (.thermalSample l t) s = .next (settle u))) ∧
    (inReset u = false →
      (t < u.pwr.lastThrottle + 10000000 → exec (.throttleStep t) s = .next (settle u)) ∧
      (u.pwr.lastThrottle + 10000000 ≤ t → ∃ v, exec (.throttleStep t) s = .next v ∧ v.pwr = { u.pwr with lastThrottle := t } ∧
        SameStores u v ∧ regBits v 0x8000 0 3 =
          (if throttleTj u ≤ u.pwr.tj then (if 4 ≤ regBits u 0x8000 0 3 then regBits u 0x8000 0 3 else regBits u 0x8000 0 3 + 1)
           else if u.pwr.tj < throttleTj u - 50 then regBits u 0x8000 0 3 - 1 else regBits u 0x8000 0 3)) ∧
      (∀ mw : Word, exec (.powerEstimate mw t) s = .next (settle (regSet 0x8018 mw u))) ∧
      (t < u.pwr.lastVid + 100000 → ∀ up, exec (.vidStep up t) s = .next (settle u)) ∧
      (∀ n : Nat, regBits u 0x8014 0 5 = n → u.pwr.lastVid + 100000 ≤ t →
        (n < 20 → ∃ v, exec (.vidStep true t) s = .next v ∧ regGet v 0x8014 = w32 (n + 1 + 65536 * (650 + 10 * (n + 1))) ∧
          v.pwr = { u.pwr with lastVid := t } ∧ SameStores u v) ∧
        (0 < n → ∃ v, exec (.vidStep false t) s = .next v ∧ regGet v 0x8014 = w32 (n - 1 + 65536 * (650 + 10 * (n - 1))) ∧
          v.pwr = { u.pwr with lastVid := t } ∧ SameStores u v) ∧
        (20 ≤ n → exec (.vidStep true t) s = .next (settle u)) ∧ (n = 0 → exec (.vidStep false t) s = .next (settle u))) ∧
      (∀ rail : Fin 8,
        (bitAt (regGet u 0x801C).toNat rail = true → exec (.bodWarn rail t) s = .next (settle u)) ∧
        (bitAt (regGet u 0x801C).toNat rail = false → ∃ v, exec (.bodWarn rail t) s = .next v ∧
          regGet v 0x801C = regGet u 0x801C ||| w32 (2 ^ rail.val) ∧ bitAt (regGet v 0x8004).toNat 3 = true ∧
          (rail.val < 4 → bitAt (regGet v 0x8000).toNat (8 + rail) = true) ∧ v.pwr = u.pwr ∧ SameStores u v))) ∧
    (∀ rail : Fin 8, ∃ v, exec (.bodWarnEnd rail t) s = .next v ∧ bitAt (regGet v 0x801C).toNat rail = false ∧
      (rail.val < 4 → bitAt (regGet v 0x8000).toNat (8 + rail) = false) ∧ v.pwr = u.pwr ∧ SameStores u v ∧
      ∀ j : Fin 8, j ≠ rail → bitAt (regGet v 0x801C).toNat j = bitAt (regGet u 0x801C).toNat j) ∧
    exec (.thermalSample [] t) s = .next (settle u) ∧
    (∀ (x tj : Int) (l : List Int), l.foldl max x = tj →
      (u.pwr.tripHold = true → exec (.thermalSample (x :: l) t) s =
        .next (settle { u with pwr := { u.pwr with tripHold := decide (1100 ≤ tj) } })) ∧
      (inReset u = false → tj < 1250 → ∃ v, exec (.thermalSample (x :: l) t) s = .next v ∧ v.pwr.tj = tj ∧
        v.pwr.hotSince = none ∧ SameStores u v ∧ bitAt (regGet v 0x8000).toNat 4 = decide (warnTj u ≤ tj)) ∧
      (inReset u = false → 1250 ≤ tj →
        (u.pwr.hotSince = none → ∃ v, exec (.thermalSample (x :: l) t) s = .next v ∧ v.pwr.tj = tj ∧
          v.pwr.hotSince = some t ∧ SameStores u v) ∧
        ∀ w, u.pwr.hotSince = some w →
          (t < w + 100000 → ∃ v, exec (.thermalSample (x :: l) t) s = .next v ∧ v.pwr.tj = tj ∧ v.pwr.hotSince = some w ∧
            SameStores u v) ∧
          (w + 100000 ≤ t → ∃ v, exec (.thermalSample (x :: l) t) s = .next v ∧ v.pwr.tripHold = true ∧
            bitAt (regGet v 0x8020).toNat 6 = true ∧ v.mem = [] ∧ v.handles = [] ∧ v.pwr.started = false ∧
            v.flash = u.flash))) ∧
    ∀ rail : Fin 8,
      (rail = 5 → ∃ v, exec (.brownOutReset rail t) s = .next v ∧ domOf v 95 = {} ∧ v.xk.rx = .off ∧ v.xk.txQueue = [] ∧
        bitAt (regGet v 0x8004).toNat 4 = true ∧ (u.xk.net = .detached → (∀ d, d ≠ 95 → domOf v d = domOf u d) ∧
          SameStores u v)) ∧
      (rail = 2 ∨ rail = 6 → ∃ v, exec (.brownOutReset rail t) s = .next v ∧ v.mem = [] ∧ v.log = [] ∧ v.ts = 0 ∧
        v.flash = u.flash ∧ regBits v 0x8020 8 3 = rail.val ∧ bitAt (regGet v 0x8020).toNat (if rail = 2 then 5 else 4) = true ∧
        (u.pwr.sysRst = true → bitAt (regGet v 0x8020).toNat 2 = true) ∧
        (inReset u = false → regGet v 0x8020 = w32 ((if rail = 2 then 0x20 else 0x10) + 256 * rail.val))) ∧
      (rail ≠ 5 → rail ≠ 2 → rail ≠ 6 → ∃ v, exec (.brownOutReset rail t) s = .next v ∧ v.mem = [] ∧ v.log = u.log ∧
        v.ts = u.ts ∧ bitAt (regGet v 0x8020).toNat 4 = true ∧ regBits v 0x8020 8 3 = rail.val ∧ v.flash = u.flash)

/-- POR_N, SYS_RST_N, PCIE_PERST_N, TRST_N, POWER_GOOD, LINK_TRAINING, BOOT_FAIL. With u the state at the instant. POR_N
low, and its release, leave an empty device with TS at 0 and the power-on cause with those of the resets held with it,
SYS_RST_N low a reset device that keeps TS, the error log and the cause, with its own added; flash and the test port stay,
and every logical core is at its reset place. PERST_N low resets the link (one that was up: nothing scheduled, no ring, no semaphore); TRST_N low resets the test
port. POWER_GOOD in a held reset or when boot has begun does nothing; with both supervisors failed boot stays at stage 0;
without sound firmware it stops at stage 2 with code 1. LINK_TRAINING in a held reset, with PERST_N low or before stage 4 does
nothing; else the link takes the settings within the supported ones, and MSI-X messages no longer held back go; where boot
waits for it, on a device without repair records, buffers or failures, boot ends at stage 6 with READY. BOOT_FAIL sends the
code over the UART. (R41, R94, R722, R894, R918, R919, R920, R922, R934, R936, R940, 17_power_reset_boot.md) -/
def Obligations.ResetPinsAndBootRun : Prop :=
  ∀ (t : Nat) (s u : State), timeTo t s = u →
    (∀ level : Bool, level = false ∨ s.pwr.por = true →
      ∃ v, exec (.porN level t) s = .next v ∧ v.ts = 0 ∧ v.mem = [] ∧ v.near = [] ∧ v.handles = [] ∧ v.rings = [] ∧ v.log = [] ∧
        v.coreMap = resetCoreMap ∧ v.pending = s.pending ∧ v.flash = s.flash ∧ v.jtag = s.jtag ∧ v.pwr.por = !level ∧
        v.pwr.started = false ∧ regGet v 0x8020 = w32 1 ||| w32 (atBit (b2n s.pwr.sysRst) 2 + atBit (b2n s.pwr.tripHold) 6) |||
          (if s.pwr.por = true then regGet s 0x8020 else 0) ∧ ∀ o, o ≠ 0x8020 → regGet v o = regGet State.reset o) ∧
    (s.pwr.por = false → exec (.porN true t) s = .next (settle u)) ∧
    (∃ v, exec (.sysRstN false t) s = .next v ∧ v.ts = u.ts ∧ v.mem = [] ∧ v.near = [] ∧ v.handles = [] ∧ v.rings = [] ∧
      v.log = u.log ∧ v.coreMap = resetCoreMap ∧ v.pending = u.pending ∧ v.flash = u.flash ∧ v.jtag = u.jtag ∧
      v.pwr.sysRst = true ∧ v.pwr.started = false ∧ v.pwr.aer = u.pwr.aer ∧ regGet v 0x8020 = regGet u 0x8020 ||| 4 ∧
      ∀ o, o ≠ 0x8020 → regGet v o = (if o ∈ keptRegs then regGet u o else regGet State.reset o)) ∧
    exec (.sysRstN true t) s = .next (settle { u with pwr := { u.pwr with sysRst := false } }) ∧
    (∀ w : State, w = { u with
        msix := [], pba := 0, funcMask := false,
        pwr := { u.pwr with perst := true, linkUp := false, busMaster := false, maxPayload := 128, maxRead := 512,
                            linkRate := 0, linkLanes := 0, d3hot := false, aspmL1 := false } } →
      (u.pwr.linkUp = false → exec (.pciePerstN false t) s = .next (settle w)) ∧
      (u.pwr.linkUp = true → Quiet u → u.rings = [] → u.sems = [] → ∃ v, exec (.pciePerstN false t) s = .next v ∧ v.msix = [] ∧
        v.funcMask = false ∧ v.pwr = w.pwr)) ∧
    exec (.pciePerstN true t) s = .next (settle { u with pwr := { u.pwr with perst := false } }) ∧
    exec (.trstN false t) s = .next (settle { u with jtag := {}, pwr := { u.pwr with trst := true } }) ∧
    exec (.trstN true t) s = .next (settle { u with pwr := { u.pwr with trst := false } }) ∧
    (∀ x : BootTests,
      (inReset u = true ∨ u.pwr.started = true → exec (.powerGood x t) s = .next (settle u)) ∧
      (∀ items aFails, inReset u = false → u.pwr.started = false →
        items = (match cfgChoose u with | some (_, _, i) => i | none => []) →
        aFails = (x.supAFailed || leAt (tabGet [] items 0x600) 0 1 == 1) →
        (aFails = true → x.supBFailed = true → ∃ v, exec (.powerGood x t) s = .next v ∧ v.pwr.started = true ∧
          regBits v 0x20 8 4 = 0 ∧ bitAt (regGet v 0x20).toNat 0 = false ∧ v.mem = [] ∧ v.flash = u.flash ∧ v.log = u.log) ∧
        (aFails = false ∨ x.supBFailed = false → fwChoose u = none → ∃ v, exec (.powerGood x t) s = .next v ∧
          v.pwr.started = true ∧ regBits v 0x20 8 4 = 2 ∧ regBits v 0x8024 28 4 = 1 ∧
          bitAt (regGet v 0x20).toNat 0 = false ∧ v.sup.cfg = items ∧
          v.sup.held = (if aFails = true then some 0 else if x.supBFailed = true then some 1 else none) ∧
          v.mem = [] ∧ v.flash = u.flash ∧ v.log = u.log))) ∧
    (∀ (x : LinkSettings) (bm fm : Bool),
      (inReset u = true ∨ u.pwr.perst = true ∨ regBits u 0x20 8 4 < 4 → exec (.linkTraining x bm fm t) s = .next (settle u)) ∧
      (∀ w : State, w = { u with funcMask := fm, pwr := linkFit x bm u.pwr } →
        inReset u = false → u.pwr.perst = false → 4 ≤ regBits u 0x20 8 4 →
        (u.pwr.bootWait = none → ∃ v, exec (.linkTraining x bm fm t) s = .next v ∧ v.pwr = w.pwr ∧ v.funcMask = fm ∧
          v.regs = u.regs ∧ SameStores u v ∧ v.pwr.linkUp = true ∧ v.pwr.busMaster = bm ∧
          (1 ≤ x.rate → x.rate ≤ 4 → v.pwr.linkRate = x.rate) ∧ (x.lanes ∈ [1, 2, 4, 8] → v.pwr.linkLanes = x.lanes) ∧
          (x.payload ∈ [128, 256, 512] → v.pwr.maxPayload = x.payload) ∧
          (x.readReq ∈ [128, 256, 512, 1024, 2048, 4096] → v.pwr.maxRead = x.readReq) ∧
          ∀ k, k < 64 → bitAt u.pba k = true → msixMasked w k = false → Emit.msix k ∈ v.emitted) ∧
        ∀ a b : Bool, u.pwr.bootWait = some ⟨a, b, [], [], []⟩ → tabGet? u.sup.cfg 0x8000 = none →
          tabGet? u.sup.cfg 0x8100 = none → u.handles = [] → ∃ v, exec (.linkTraining x bm fm t) s = .next v ∧
            regBits v 0x20 8 4 = 6 ∧ bitAt (regGet v 0x20).toNat 0 = true ∧ v.limp = none ∧ v.mem = [] ∧
            (∀ c, c < 64 → physCore v c = some (17 * (c / 16) + c % 16)) ∧ (∀ g, g < 16 → groupOf v g = .on) ∧
            groupOf v 16 = .off ∧ ∀ n, n < 6 → domOn v (85 + n) = true)) ∧
    ∀ n : Nat, regBits u 0x8024 28 4 = n →
      (n = 0 → exec (.bootFail t) s = .next (settle u)) ∧
      (n ≠ 0 → ∃ v, exec (.bootFail t) s = .next v ∧ v.regs = u.regs ∧ SameStores u v ∧ Emit.uart
        [0x42, 0x4F, 0x4F, 0x54, 0x20, 0x46, 0x41, 0x49, 0x4C, 0x20, b8 (0x30 + n), 0x0D, 0x0A] ∈ v.emitted)

/-- EXTEST, IDCODE, SAMPLE_PRELOAD, HIGHZ, CLAMP, DTMCS, DMI, BYPASS. While TRST_N is low no command of the test access
port changes anything. Otherwise each loads its code into the instruction register. EXTEST and SAMPLE/PRELOAD load the
boundary cells, SAMPLE/PRELOAD shifts out the pins, IDCODE the identity word 0x248163D7; HIGHZ, CLAMP and BYPASS (every code
not of another instruction, whose codes are not BYPASS's) select the bypass register. DTMCS answers a word and a write of a
reset bit clears the sticky status. DMI answers that status while it is set; an access to a core that is not powered answers
status 2, which stays; a read answers the register; of the writes, those to a data word are kept, a clear dmactive resets the
module, a halt request halts the running core it selects, a resume request lets it go on, and an Access Register command
moves an integer register of a halted core to or from the data words, these four as log entry 67 has them from the debug
specification. (R641, R982, R983, R984, R985, 18_electrical_package.md) -/
def Obligations.TestPortCommandsScan : Prop :=
  ∀ s : State,
    (s.pwr.trst = true → ∀ (n m : Nat) (v : Word) (a : BitVec 7) (o : Fin 4) (i : Fin 32),
      exec (.extest n) s = .next (settle s) ∧ exec .idcode s = .next (settle s) ∧ exec (.samplePreload n m) s = .next (settle s) ∧
        exec .highz s = .next (settle s) ∧ exec .clamp s = .next (settle s) ∧ exec (.dtmcs v) s = .next (settle s) ∧
        exec (.dmi a v o) s = .next (settle s) ∧ exec (.bypass i) s = .next (settle s)) ∧
    (s.pwr.trst = false →
      (∀ n : Nat, exec (.extest n) s = .next (settle { s with jtag := { s.jtag with ir := 0, boundary := n % 2 ^ 135 } })) ∧
      (exec .idcode s = .next (settle (emit (.jtag 0x248163D7) { s with jtag := { s.jtag with ir := 1 } }))) ∧
      (∀ n m : Nat, exec (.samplePreload n m) s = .next (settle (emit (.jtag (n % 2 ^ 135))
        { s with jtag := { s.jtag with ir := 2, boundary := m % 2 ^ 135 } }))) ∧
      (exec .highz s = .next (settle (emit (.jtag 0) { s with jtag := { s.jtag with ir := 3 } }))) ∧
      (exec .clamp s = .next (settle (emit (.jtag 0) { s with jtag := { s.jtag with ir := 4 } }))) ∧
      (∀ i : Fin 32, ((5 ≤ i.val ∧ i.val ≤ 15) ∨ 18 ≤ i.val → exec (.bypass i) s =
          .next (settle (emit (.jtag 0) { s with jtag := { s.jtag with ir := i.val } }))) ∧
        (i.val ≤ 4 ∨ i.val = 16 ∨ i.val = 17 → exec (.bypass i) s = .next (settle s))) ∧
      (∀ v : Word, ∃ x, exec (.dtmcs v) s = .next (settle (emit (.jtag x) { s with jtag := { s.jtag with
        ir := 0x10, dmiErr := if bitAt v.toNat 16 = true ∨ bitAt v.toNat 17 = true then 0 else s.jtag.dmiErr } }))) ∧
      ∀ (a : BitVec 7) (d : Word) (answer : Nat → Nat → State → Host.Outcome State Fault Refusal),
        answer = (fun x st w => .next (settle (emit (.jtag (a.toNat * 2 ^ 34 + x * 4 + st)) w))) →
        (s.jtag.dmiErr ≠ 0 → ∀ o : Fin 4, exec (.dmi a d o) s =
          answer 0 s.jtag.dmiErr { s with jtag := { s.jtag with ir := 0x11 } }) ∧
        (s.jtag.dmiErr = 0 →
          (∀ o : Fin 4, (o = 0 ∨ o = 3) → exec (.dmi a d o) s = answer 0 0 { s with jtag := { s.jtag with ir := 0x11 } }) ∧
          (∀ o : Fin 4, (o = 1 ∨ o = 2) → dmUnpowered s a.toNat = true → exec (.dmi a d o) s =
            answer 0 2 { s with jtag := { s.jtag with ir := 0x11, dmiErr := 2 } }) ∧
          (dmUnpowered s a.toNat = false → exec (.dmi a d 1) s =
            answer (w32 (dmRead s a.toNat)).toNat 0 { s with jtag := { s.jtag with ir := 0x11 } }) ∧
          (dmUnpowered s a.toNat = false → (a = 4 ∨ a = 5) → bitAt (dmGet s 0x10) 0 = true → exec (.dmi a d 2) s =
            answer d.toNat 0 { s with jtag := { s.jtag with ir := 0x11, dmi := tabSet s.jtag.dmi a.toNat d } }) ∧
          (a = 0x10 → bitAt d.toNat 0 = false → exec (.dmi a d 2) s =
            answer d.toNat 0 { s with jtag := { s.jtag with ir := 0x11, dmi := [], haltReq := 0 } }) ∧
          (∀ c : Nat, a = 0x10 → bitAt d.toNat 0 = true → fieldOf d 16 10 = c → c < 8 → trRuns s c = true →
            (bitAt d.toNat 31 = true → (hartOf s c).dbg = false → ∃ w, exec (.dmi a d 2) s = .next w ∧
              (hartOf w c).dbg = true ∧ hcsr (hartOf w c) 0x7B1 = (hartOf s c).pc.toNat ∧ (hartOf w c).x = (hartOf s c).x ∧
              bitAt w.jtag.haltReq c = true ∧ (∀ i, i ≠ c → hartOf w i = hartOf s i) ∧ w.regs = s.regs ∧ SameStores s w) ∧
            (bitAt d.toNat 31 = false → bitAt d.toNat 30 = true → (hartOf s c).dbg = true → ∃ w,
              exec (.dmi a d 2) s = .next w ∧ (hartOf w c).dbg = false ∧
              (hartOf w c).pc.toNat = hcsr (hartOf s c) 0x7B1 ∧ (hartOf w c).x = (hartOf s c).x ∧
              (∀ i, i ≠ c → hartOf w i = hartOf s i) ∧ w.regs = s.regs ∧ SameStores s w)) ∧
          ∀ c i : Nat, a = 0x17 → dmHart s = c → c < 8 → domOn s (91 + c / 2) = true → trRuns s c = true →
            (hartOf s c).dbg = true → bitAt (dmGet s 0x10) 0 = true → dmGet s 0x16 = 0 → i < 32 →
            (d = w32 (0x321000 + i) → exec (.dmi a d 2) s = answer d.toNat 0 { s with jtag := { s.jtag with
              ir := 0x11, dmi := tabSet (tabSet s.jtag.dmi 4 (w32 ((tabGet 0 (hartOf s c).x i).toNat % 2 ^ 32))) 5
                (w32 ((tabGet 0 (hartOf s c).x i).toNat / 2 ^ 32)) } }) ∧
            (d = w32 (0x331000 + i) → i ≠ 0 → ∃ w, exec (.dmi a d 2) s = .next w ∧
              tabGet 0 (hartOf w c).x i = BitVec.ofNat 64 (dmGet s 4 + 2 ^ 32 * dmGet s 5) ∧
              (∀ j, j ≠ i → tabGet 0 (hartOf w c).x j = tabGet 0 (hartOf s c).x j) ∧
              (hartOf w c).pc = (hartOf s c).pc ∧ (∀ j, j ≠ c → hartOf w j = hartOf s j) ∧ w.regs = s.regs ∧ SameStores s w)))

/-- DETECTION, QUALIFICATION, FALSE_DET, LONG_TRAINING_SYNC, HEADER_DECODE, BODY_DECODE, FRAME_END, SYNCHRONIZATION_LOSS,
FRAME_START, TRANSMIT_END. With u the state at the instant. The RSSI of the samples above the threshold in SEARCH starts
ACQUIRE; the qualification that the samples give freezes their gain; without one after 6.144 µs, without a correlation peak,
at a refused header, at synchronization loss and at a frame's end the receiver is back in SEARCH, with the counter of the
cause. A peak stamps the frame and gives the channel estimate. A good header without a map is kept until its computed end,
RECEIVE for this node, else BUSY. Of the bodies as the samples give them, a bad CRC is counted and delivers nothing, a good
one does what its frame's own row does. The first frame due is sent once the gap is kept; while a frame is received it is
deferred, and one that no longer fits goes back to the queue; TRANSMIT_END ends the transmission. (R795, R797, R798, R802,
R804, R806, R807, R808, R809, R820, R824, R825) -/
def Obligations.XanikReceiverAndTransmitterRun : Prop :=
  ∀ (t : Nat) (s u : State), timeTo t s = u →
    (∀ (y : List (BitVec 12)) (rssi : BitVec 16), rssiOf u.xk.gain (adcValues y) = rssi →
      (u.xk.rx = .search → xkOn u = true → (BitVec.ofNat 16 (regBits u 0x9014 0 16)).toInt < rssi.toInt →
        ∃ v, exec (.detection y t) s = .next v ∧ v.xk.rx = .acquire ∧ v.xk.acqAt = t ∧ v.xk.rssi = rssi.toNat ∧
          v.xk.pktCfg = (regGet u 0x9010).toNat ∧ v.xk.pktQ = regBits u 0x9014 16 16 ∧ v.xk.qualAt = none ∧
          v.xk.stamp = none ∧ v.regs = u.regs ∧ SameStores u v) ∧
      (u.xk.rx ≠ .search ∨ xkOn u = false ∨ rssi.toInt ≤ (BitVec.ofNat 16 (regBits u 0x9014 0 16)).toInt →
        exec (.detection y t) s = .next (settle u))) ∧
    (∀ y : List (BitVec 12),
      (u.xk.rx ≠ .acquire ∨ u.xk.qualAt ≠ none ∨ acquired u y = none → exec (.qualification y t) s = .next (settle u)) ∧
      (∀ d g, acquired u y = some (d, g) → t < u.xk.acqAt + d → exec (.qualification y t) s = .next (settle u)) ∧
      (∀ d g, acquired u y = some (d, g) → u.xk.rx = .acquire → u.xk.qualAt = none → u.xk.acqAt + d ≤ t →
        exec (.qualification y t) s =
          .next (settle { u with xk := { u.xk with qualAt := some (u.xk.acqAt + d), gain := g, frozen := true } }))) ∧
    (u.xk.rx = .acquire → u.xk.qualAt = none → u.xk.acqAt + 6144 ≤ t → ∃ v, exec (.falseDet t) s = .next v ∧
      v.xk.rx = .search ∧ v.xk.gain = restGain u ∧ v.xk.frozen = false ∧ Counted 0x9048 u v ∧ SameStores u v) ∧
    (u.xk.rx ≠ .acquire ∨ u.xk.qualAt ≠ none ∨ t < u.xk.acqAt + 6144 → exec (.falseDet t) s = .next (settle u)) ∧
    (∀ y : List (BitVec 12),
      (u.xk.rx ≠ .acquire ∨ u.xk.qualAt = none ∨ u.xk.stamp ≠ none → exec (.longTrainingSync y t) s = .next (settle u)) ∧
      ∀ q : Nat, u.xk.rx = .acquire → u.xk.qualAt = some q → u.xk.stamp = none →
        ∃ v, exec (.longTrainingSync y t) s = .next v ∧ SameStores u v ∧
          (match firstPeak (adcValues y) with
          | some n => v.xk.stamp = some (q + 4 * n) ∧ v.xk.chan = channelOf (adcValues y) n ∧ v.xk.rx = .acquire ∧
              v.regs = u.regs
          | none => v.xk.rx = .search ∧ v.xk.gain = restGain u ∧ Counted 0x904C u v ∧
              bitAt (regGet v 0x9004).toNat 0 = true)) ∧
    (∀ (y : List (BitVec 12)) (b : List Byte), (headerRx u y).2 = b →
      (u.xk.rx ≠ .acquire ∨ u.xk.stamp = none → exec (.headerDecode y t) s = .next (settle u)) ∧
      ∀ st : Nat, u.xk.rx = .acquire → u.xk.stamp = some st → ∃ v, exec (.headerDecode y t) s = .next v ∧ SameStores u v ∧
        (if headerOk u b = true then
          ((headerOf b).mapUsed = false → v.xk.rx = (if forUs u (headerOf b) then .receive else .busy) ∧ Counted 0x9044 u v ∧
            v.xk.hdr = some (headerOf b) ∧ v.xk.rxEnd = st + 13312 + symTime (headerOf b).cp (headerOf b).nsym)
        else v.xk.rx = .search ∧ Counted 0x9050 u v ∧ bitAt (regGet v 0x9004).toNat 1 = true)) ∧
    (∀ p y : List (BitVec 12), u.xk.rx ≠ .receive ∨ u.xk.hdr = none ∨ u.xk.stamp = none →
      exec (.bodyDecode p y t) s = .next (settle u)) ∧
    (∀ (p y : List (BitVec 12)) (h : XkHeader) (st : Nat), u.xk.rx = .receive → u.xk.hdr = some h → u.xk.stamp = some st →
      (h.sound = false → h.length = 0 →
        exec (.bodyDecode p y t) s = .next (settle { u with xk := { u.xk with hdr := none } })) ∧
      (h.sound = true → ∃ v, exec (.bodyDecode p y t) s = .next v ∧ v.xk.hdr = none ∧ SameStores u v ∧
        (hears u h.src = true → Counted 0x906C u v) ∧ (hears u h.src = false → v.regs = u.regs) ∧
        ∀ src : Fin 16, h.src = src.val → h.cp = u.xk.cp → p = [] →
          exec (.soundFrame src y) { u with xk := { u.xk with hdr := none } } = .next v) ∧
      ∀ (r : BodyRun) (b d : List Byte) (w : State), h.sound = false → h.length ≠ 0 → r = bodyRun u h p y → b = bodyBytes h r →
        d = b.take h.length →
        w = clipCount r.clips { u with xk := { u.xk with hdr := none, chan := r.chan, shift := r.shift } } →
        (if leAt b h.length 4 = crc32c d then
          (acked h.kind = true → h.bcast = true → exec (.bodyDecode p y t) s = .next (settle w)) ∧
          ∀ (src : Fin 16) (seq : BitVec 12) (c : Instr), h.src = src.val → h.seq = seq.toNat →
            (h.bcast = false → (h.kind, c) ∈ [(4, Instr.farReq src seq d), (5, .farRsp src seq d), (6, .collContrib src seq d),
              (9, .modelStatus src seq d), (10, .relayReq src seq d), (11, .relayRsp src seq d), (12, .mapFrame src seq d)] →
              exec (.bodyDecode p y t) s = exec c w) ∧
            ((h.kind, c) ∈ [(1, Instr.statusFrame src d), (7, .collResult src d), (8, .modelData src d)] →
              exec (.bodyDecode p y t) s = exec c w)
        else ∃ v, exec (.bodyDecode p y t) s = .next v ∧ v.xk.hdr = none ∧ Counted 0x9054 u v ∧ v.xk.queue = u.xk.queue ∧
          bitAt (regGet v 0x9004).toNat 2 = true ∧ SameStores u v ∧
          (peerOf v h.src).payCrc = satAdd 0xFFFFFFFF (peerOf u h.src).payCrc 1)) ∧
    ((u.xk.rx = .receive ∨ u.xk.rx = .busy) ∧ u.xk.rxEnd ≤ t → ∃ v, exec (.frameEnd t) s = .next v ∧ v.xk.rx = .search ∧
      v.xk.gain = restGain u ∧ v.xk.lastEnd = some u.xk.rxEnd ∧ v.regs = u.regs ∧ SameStores u v) ∧
    (u.xk.rx ≠ .receive ∧ u.xk.rx ≠ .busy ∨ t < u.xk.rxEnd → exec (.frameEnd t) s = .next (settle u)) ∧
    (∀ lost : Prop, lost = (u.xk.rx = .receive ∨ u.xk.rx = .busy ∨ u.xk.rx = .acquire ∧ u.xk.qualAt ≠ none) →
      (lost → ∃ v, exec (.synchronizationLoss t) s = .next v ∧ v.xk.rx = .search ∧ v.xk.gain = restGain u ∧ v.regs = u.regs ∧
        SameStores u v) ∧
      (¬ lost → exec (.synchronizationLoss t) s = .next (settle u))) ∧
    (u.xk.rx = .transmit ∧ u.xk.txEnd ≤ t → ∃ v, exec (.transmitEnd t) s = .next v ∧ v.xk.rx = .search ∧
      v.xk.gain = restGain u ∧ v.regs = u.regs ∧ SameStores u v) ∧
    (u.xk.rx ≠ .transmit ∨ t < u.xk.txEnd → exec (.transmitEnd t) s = .next (settle u)) ∧
    (u.xk.txQueue = [] ∨ xkOn u = false → exec (.frameStart t) s = .next (settle u)) ∧
    ∀ (q : XkTx) (rest : List XkTx) (fits : Nat → Prop) (back : List XkFrame), u.xk.txQueue = q :: rest →
      fits = (fun n => n + frameAir u q.frame + gapNs u ≤ q.limit) →
      back = ((q :: rest).filter fun x => decide (2 < x.frame.kind) && decide (x.frame.retries = 0)).map (·.frame) →
      (t < q.start → exec (.frameStart t) s = .next (settle u)) ∧
      (∀ e, xkOn u = true → q.start ≤ t → u.xk.lastEnd = some e → t < e + rampNs u + 2000 →
        (fits (e + rampNs u + 2000) → exec (.frameStart t) s =
          .next (settle { u with xk := { u.xk with txQueue := { q with start := e + rampNs u + 2000 } :: rest } })) ∧
        (¬ fits (e + rampNs u + 2000) → exec (.frameStart t) s =
          .next (settle { u with xk := { u.xk with txQueue := [], queue := back ++ u.xk.queue } }))) ∧
      (xkOn u = true → q.start ≤ t → (∀ e, u.xk.lastEnd = some e → e + rampNs u + 2000 ≤ t) →
        (u.xk.rx = .receive ∨ u.xk.rx = .busy → ∃ v, exec (.frameStart t) s = .next v ∧ v.xk.rx = u.xk.rx ∧
          Counted 0x9064 u v ∧ bitAt (regGet v 0x9004).toNat 6 = true ∧ SameStores u v ∧
          (fits (max t (u.xk.rxEnd + rampNs u + 2000)) →
            v.xk.txQueue = { q with start := max t (u.xk.rxEnd + rampNs u + 2000) } :: rest ∧ v.xk.queue = u.xk.queue) ∧
          (¬ fits (max t (u.xk.rxEnd + rampNs u + 2000)) → v.xk.txQueue = [] ∧ v.xk.queue = back ++ u.xk.queue)) ∧
        (u.xk.rx ≠ .receive → u.xk.rx ≠ .busy → ¬ fits t → exec (.frameStart t) s =
          .next (settle { u with xk := { u.xk with txQueue := [], queue := back ++ u.xk.queue } })) ∧
        (u.xk.rx ≠ .receive → u.xk.rx ≠ .busy → fits t → ∃ v, exec (.frameStart t) s = .next v ∧
          v.xk.rx = .transmit ∧ v.xk.txStart = t ∧ v.xk.txQueue = rest ∧ Counted 0x9040 u v ∧ SameStores u v ∧
          (u.xk.rx = .acquire → Counted 0x9068 u v) ∧ ∃ n b y, Emit.xanik q.frame.dest q.frame.kind n t b y ∈ v.emitted))

/-- CYCLE_START, BEACON, JOIN, LEAVE, SLOT_START, JOIN_WINDOW, LISTEN_TIMEOUT, JOIN_TIMEOUT, BEACON_LOSS. With u the state
at the instant. Off the segment's master, or before its instant, CYCLE_START does nothing; in FORWARD an anchor inside the
last schedule is skipped; else a master alone on its segment starts the cycle with a beacon and EV_160, and admits the first
node that joined. A beacon moves a listening node to JOINING or, with its own bit, ends XK_JOIN with FAULT; a JOINING node
with its bit is a MEMBER; a MEMBER follows it, as the master when it is the successor, and goes back to JOINING without its
bit; a MASTER goes to JOINING at one of a lower ID (nothing outstanding on the link). A PRESENT that changes sets
MEMBER_CHANGE. The master admits a JOIN once; a LEAVE is noted for the next beacon. In its slot a node asks for its STATUS
first; a JOINING node asks for JOIN in the join window. An eligible node that heard no beacon becomes MASTER alone; a JOIN
that runs out of time ends with FAULT; the lowest eligible node that remains after 3 intervals without a beacon becomes
MASTER. (R831, R832, R837, R839, R841, R851, R852, R853, R854, R855, 15_xanik_network.md) -/
def Obligations.XanikSegmentFormsAndRuns : Prop :=
  ∀ (t : Nat) (s u : State), timeTo t s = u →
    (u.xk.net ≠ .master ∨ xkOn u = false → exec (.cycleStart t) s = .next (settle u)) ∧
    (∀ (moving : Bool) (last due : Nat), u.xk.net = .master → xkOn u = true →
      moving = (u.lt.press == .forward && !u.lt.behind) →
      last = (match u.xk.lastC with | some c => schedEnd u c | none => 0) →
      due = (match u.xk.lastC with | some c => max (c + u.xk.stopPeriod * 1000) last | none => 0) →
      (moving = false → t < due → exec (.cycleStart t) s = .next (settle u)) ∧
      (moving = true → lxNow u < u.xk.anchor * u.xk.cycleLines * 256 → exec (.cycleStart t) s = .next (settle u)) ∧
      (moving = true → u.xk.anchor * u.xk.cycleLines * 256 ≤ lxNow u → t < last → ∃ v, exec (.cycleStart t) s = .next v ∧
        v.xk = { u.xk with anchor := nextAnchor u } ∧ Counted 0x90C8 u v ∧ bitAt (regGet v 0x908C).toNat 4 = true ∧
        SameStores u v) ∧
      ((if moving = true then u.xk.anchor * u.xk.cycleLines * 256 ≤ lxNow u ∧ last ≤ t else due ≤ t) → u.xk.node < 16 →
        u.xk.leaving = false → u.xk.present = 2 ^ u.xk.node → u.xk.far = [] →
        (∀ a ∈ u.xk.admits, a.1 < 16 ∧ a.1 ≠ u.xk.node ∧ a.2 = false) → ∃ v b, exec (.cycleStart t) s = .next v ∧
          v.xk.net = .master ∧ v.xk.cycle = (u.xk.cycle + 1) % 2 ^ 32 ∧ v.xk.lastC = some t ∧ v.xk.timeMode = !moving ∧
          v.xk.admits = u.xk.admits.drop 1 ∧ (match u.xk.admits with
            | [] => v.xk.present = 2 ^ u.xk.node ∧ leAt b 0x1D 1 = 0xFF
            | a :: _ => v.xk.present = 2 ^ u.xk.node + 2 ^ a.1 ∧ leAt b 0x1D 1 = a.1) ∧
          v.xk.txQueue.head? = some { start := t, limit := t + 35000, frame := { dest := 16, kind := 0, seq := 0, body := b } } ∧
          b.length = 32 ∧ leAt b 0 4 = v.xk.cycle ∧ leAt b 0x18 2 = v.xk.present ∧ leAt b 0x1A 2 = v.xk.slotUs ∧
          Emit.event 160 ∈ v.emitted)) ∧
    (∀ (src : Fin 16) (p : List Byte) (mine : Bool), mine = bitAt (leAt p 0x18 2) u.xk.node →
      (xkOn u = false ∨ u.xk.net = .detached ∨ src.val = u.xk.node ∨ u.xk.net = .master ∧ u.xk.node < src.val →
        exec (.beacon src p t) s = .next (settle u)) ∧
      (xkOn u = true → src.val ≠ u.xk.node → u.xk.far = [] → u.xk.colls = [] → u.xk.leaving = false →
        (u.xk.net ≠ .detached → (u.xk.net = .master → src.val < u.xk.node) → ∃ v, exec (.beacon src p t) s = .next v ∧
          v.xk.cycle = leAt p 0 4 ∧ v.xk.slotUs = leAt p 0x1A 2 ∧ regGet v 0x90A0 = w32 t ∧
          regGet v 0x90A4 = w32 (t / 2 ^ 32) ∧ regGet v 0x9098 = w32 (leAt p 4 4) ∧ regGet v 0x909C = w32 (leAt p 8 4) ∧
          regGet v 0x90A8 = w32 (leAt p 0xC 4) ∧ v.mem = u.mem ∧ Emit.event 160 ∈ v.emitted ∧ Emit.event 161 ∈ v.emitted ∧
          v.xk.present = leAt p 0x18 2 ∧
          ((∃ n, n < 16 ∧ bitAt u.xk.present n ≠ bitAt v.xk.present n) → bitAt (regGet v 0x908C).toNat 2 = true) ∧
          (u.xk.net = .listen → mine = false → v.xk.net = .joining ∧ v.xk.master = src ∧
            v.xk.joinCycle = some (leAt p 0 4)) ∧
          (u.xk.net = .listen → mine = true → v.xk.net = .detached ∧
            ∀ k l, tabGet? u.sup.longs k = some l → l.opcode = 0x0601 → l.done = none → Finished k 0x40 1 [] v) ∧
          (u.xk.net = .joining → mine = true → v.xk.net = .member ∧ v.xk.master = src ∧
            bitAt (regGet v 0x908C).toNat 0 = true) ∧
          (u.xk.net = .joining → mine = false → v.xk.net = .joining ∧ v.xk.master = src ∧ v.xk.joinCycle ≠ none) ∧
          (u.xk.net = .member → mine = true → leAt p 0x1E 1 ≠ u.xk.node → v.xk.net = .member ∧ v.xk.master = src) ∧
          (u.xk.net = .member → mine = true → u.xk.node < 16 → leAt p 0x1E 1 = u.xk.node → v.xk.net = .master ∧
            v.xk.master = u.xk.node) ∧
          (u.xk.net = .member → mine = false → v.xk.net = .joining ∧ v.xk.master = src ∧
            bitAt (regGet v 0x908C).toNat 1 = true) ∧
          (u.xk.net = .master → mine = false → v.xk.net = .joining ∧ v.xk.master = src ∧
            (u.xk.master ≠ src.val → bitAt (regGet v 0x908C).toNat 3 = true))))) ∧
    (∀ (src : Fin 16) (e : Bool),
      (s.xk.net = .master → xkOn s = true → bitAt s.xk.present src = false → (∀ a ∈ s.xk.admits, a.1 ≠ src.val) →
        exec (.join src e) s = .next (settle { s with xk := { s.xk with admits := s.xk.admits ++ [(src.val, e)] } })) ∧
      (s.xk.net ≠ .master ∨ xkOn s = false ∨ bitAt s.xk.present src = true ∨ (∃ a ∈ s.xk.admits, a.1 = src.val) →
        exec (.join src e) s = .next (settle s))) ∧
    (∀ src : Fin 16,
      (xkReaches s src = true →
        exec (.leave src) s = .next (settle { s with xk := { s.xk with leavers := s.xk.leavers ||| 2 ^ src.val } })) ∧
      (xkReaches s src = false → exec (.leave src) s = .next (settle s))) ∧
    (slotWindow u = none ∨ xkJoined u = false ∨ xkOn u = false ∨ u.xk.slotCycle = some u.xk.cycle →
      exec (.slotStart t) s = .next (settle u)) ∧
    (∀ (a e : Nat) (f : XkFrame), slotWindow u = some (a, e) → f = { dest := 16, kind := 1, seq := 0, body := statusBody u } →
      (t < a ∨ e ≤ t → exec (.slotStart t) s = .next (settle u)) ∧
      (xkJoined u = true → xkOn u = true → u.xk.slotCycle ≠ some u.xk.cycle → a ≤ t → t < e → u.xk.rounds = [] →
        t + (frameAir u f + gapNs u) ≤ e → ∃ v more, exec (.slotStart t) s = .next v ∧ v.xk.slotCycle = some u.xk.cycle ∧
          v.xk.txQueue = u.xk.txQueue ++ { start := t, limit := e, frame := f } :: more ∧ SameStores u v ∧
          (u.xk.queue = [] → u.xk.bcastTx = [] → u.xk.leaving = false → (∀ n, (peerOf u n).out = []) →
            more = [] ∧ v.regs = u.regs))) ∧
    (∀ (c a : Nat) (f : XkFrame), u.xk.lastC = some c → a = c + 35000 + xkCount u * u.xk.slotUs * 1000 →
      f = { dest := u.xk.master, kind := 2, seq := 0, body := [] } →
      (u.xk.net = .joining → xkOn u = true → u.xk.joinCycle = some u.xk.cycle → a ≤ t →
        t + (frameAir u f + gapNs u) ≤ a + 30000 → ∃ v, exec (.joinWindow t) s = .next v ∧
          v.xk.txQueue = u.xk.txQueue ++ [{ start := t, limit := a + 30000, frame := f }] ∧
          v.xk.joinTries = u.xk.joinTries + 1 ∧ v.xk.joinCycle = none ∧ v.xk.net = .joining ∧ SameStores u v ∧
          (if u.xk.joinTries = 0 then v.regs = u.regs else Counted 0x90D4 u v)) ∧
      (u.xk.net ≠ .joining ∨ xkOn u = false ∨ u.xk.joinCycle ≠ some u.xk.cycle ∨ t < a ∨
          a + 30000 < t + (frameAir u f + gapNs u) → exec (.joinWindow t) s = .next (settle u))) ∧
    (u.xk.lastC = none → exec (.joinWindow t) s = .next (settle u) ∧ exec (.beaconLoss t) s = .next (settle u)) ∧
    (u.xk.net ≠ .listen ∨ u.xk.eligible = false ∨ t < u.xk.listenEnd → exec (.listenTimeout t) s = .next (settle u)) ∧
    (u.xk.net = .listen → u.xk.eligible = true → u.xk.listenEnd ≤ t → u.xk.node < 16 →
      ∃ v, exec (.listenTimeout t) s = .next v ∧ v.xk.net = .master ∧ v.xk.master = u.xk.node ∧
        v.xk.present = 2 ^ u.xk.node ∧ SameStores u v ∧ ∀ k l, tabGet? u.sup.longs k = some l → l.opcode = 0x0601 →
          l.done = none → Finished k 0 0 ([b8 u.xk.node, 0] ++ leBytes 2 (2 ^ u.xk.node)) v) ∧
    (∀ due : Prop, due = (∃ e ∈ u.sup.longs, e.2.opcode = 0x0601 ∧ e.2.done = none ∧ ∃ d, e.2.deadline = some d ∧ d ≤ t) →
      (¬ due ∨ u.xk.net ≠ .listen ∧ u.xk.net ≠ .joining → exec (.joinTimeout t) s = .next (settle u)) ∧
      (due → u.xk.net = .listen ∨ u.xk.net = .joining → u.xk.far = [] → u.xk.colls = [] →
        ∃ v, exec (.joinTimeout t) s = .next v ∧ v.xk.net = .detached ∧ v.xk.queue = [] ∧ v.xk.txQueue = [] ∧ v.mem = u.mem ∧
          ((nodesOf u.xk.present).erase u.xk.node = [] → SameStores u v ∧ v.regs = u.regs ∧
            ∀ k l, tabGet? u.sup.longs k = some l → l.opcode = 0x0601 → l.done = none → Finished k 0x40 2 [] v))) ∧
    ∀ (c : Nat) (rest : List Nat), u.xk.lastC = some c →
      rest = (((nodesOf u.xk.present).erase u.xk.master).filter fun n => !bitAt u.xk.leavers n) →
      (u.xk.net ≠ .member ∨ t < c + max (3 * u.xk.interval) 3000000 ∨ u.xk.node ∉ rest ∨
        u.xk.eligible = false ∧ bitAt u.xk.eligibles u.xk.node = false ∨ (∃ n ∈ rest, n < u.xk.node ∧ bitAt u.xk.eligibles n = true) → exec (.beaconLoss t) s = .next (settle u)) ∧
      (u.xk.net = .member → c + max (3 * u.xk.interval) 3000000 ≤ t → u.xk.node ∈ rest → u.xk.eligible = true →
        (∀ n ∈ rest, n < u.xk.node → bitAt u.xk.eligibles n = false) → u.xk.master ≠ u.xk.node → u.xk.far = [] →
        ∃ v, exec (.beaconLoss t) s = .next v ∧ v.xk.net = .master ∧ v.xk.master = u.xk.node ∧ v.xk.present = maskOf rest ∧
          bitAt (regGet v 0x908C).toNat 3 = true ∧ Counted 0x90CC u v ∧ v.mem = u.mem)

/-- STATUS, FAR_REQ/RSP, COLL_CONTRIB/RESULT, MODEL_DATA/STATUS, RELAY_REQ/RSP, MAP, SOUND and their timeouts. Frames that
this node does not hear do nothing. Of those it hears: an acknowledged frame in the window but not next is held, one outside
is a duplicate and changes nothing. The next one, with none held, is delivered: a FAR_REQ entry that passes the checks is
performed and answered, or waits for class FAR; a FAR_RSP gives the host its bytes, ends a posted write, or, awaited by none,
only counts; a contribution opens a round at the master alone; a MODEL_STATUS puts the recipient into LOADED or FAILED; a
RELAY_REQ fills a free MB_7 or is queued, a RELAY_RSP finishes its command, a valid MAP is kept. STATUS acknowledges frames
and moves the window. COLL_RESULT collects fragments and writes the last, MODEL_DATA keeps them, SOUND sends the map built.
After 16, 16 and 8 cycles the waits end. (R847, R848, R849, R855, R858, R862, R863, R865, R867, R869, R870, R751) -/
def Obligations.XanikFramesAreHeldAndDelivered : Prop :=
  ∀ (src : Fin 16) (s : State), Calm s →
    (hears s src = false → ∀ (seq : BitVec 12) (d : List Byte) (y : List (BitVec 12)), ∀ c ∈ [Instr.farReq src seq d,
      .farRsp src seq d, .collContrib src seq d, .modelStatus src seq d, .relayReq src seq d, .relayRsp src seq d,
      .mapFrame src seq d, .statusFrame src d, .collResult src d, .modelData src d, .soundFrame src y],
      exec c s = .next (settle s)) ∧
    (∀ (seq : BitVec 12) (d : List Byte) (ahead n : Nat), hears s src = true →
      ahead = (seq.toNat + 4096 - (peerOf s src).rxNext) % 4096 → n = (seq.toNat + 1) % 4096 →
      (∀ (c : Instr) (k : Nat), (c, k) ∈ [(Instr.farReq src seq d, 4), (.farRsp src seq d, 5), (.collContrib src seq d, 6),
          (.modelStatus src seq d, 9), (.relayReq src seq d, 10), (.relayRsp src seq d, 11), (.mapFrame src seq d, 12)] →
        (64 ≤ ahead → exec c s = .next (settle s)) ∧
        (1 ≤ ahead → ahead < 64 → tabGet? (peerOf s src).held (peerOf s src).rxNext = none →
          ∃ v, exec c s = .next v ∧ (peerOf v src).held = tabSet (peerOf s src).held seq.toNat (k, d) ∧
            (peerOf v src).rxNext = (peerOf s src).rxNext ∧ v.xk.queue = s.xk.queue ∧ v.regs = s.regs ∧ v.sup = s.sup ∧
            SameStores s v)) ∧
      (seq.toNat = (peerOf s src).rxNext → (peerOf s src).held = [] →
        (∀ off tag : Nat, leAt d 4 4 = off → leAt d 1 1 = tag → d.length = 16 → leAt d 0 1 = 0 →
          (Units s 3 4 → (∀ i, i < 4 → Passes s ⟨0x1B, src, .addr (off + 64 * i), true, false, 64, []⟩) →
            ∃ v, exec (.farReq src seq d) s = .next v ∧ (peerOf v src).rxNext = n ∧ SameStores s v ∧ v.ecc = s.ecc ∧
              v.xk.queue = s.xk.queue ++ [{ dest := src.val, kind := 5, seq := 0,
                                            body := [b8 tag, 0] ++ List.replicate 6 0 ++ memBytes s off 256 }]) ∧
          (NoUnit s 3 → ∃ v, exec (.farReq src seq d) s = .next v ∧ (peerOf v src).rxNext = n ∧ v.xk.queue = s.xk.queue ∧
            v.held.length = s.held.length + 1 ∧ SameStores s v)) ∧
        (∀ (off tag size : Nat) (x : List Byte), leAt d 4 4 = off → leAt d 1 1 = tag → leAt d 2 2 = size → leAt d 0 1 = 1 →
          size ∈ [1, 2, 4, 8, 64] → d.length = 16 + cdiv size 8 * 8 → x = (d.drop 16).take size → Units s 3 1 → Quiet s →
          Passes s ⟨0x1B, src, .addr off, decide (size = 64), true, size, x⟩ →
            ∃ v, exec (.farReq src seq d) s = .next v ∧ (peerOf v src).rxNext = n ∧ memBytes v off size = x ∧
              (∀ a, a < off ∨ off + size ≤ a → memByte v a = memByte s a) ∧ v.handles = s.handles ∧
              v.xk.queue = s.xk.queue ++ [{ dest := src.val, kind := 5, seq := 0,
                                            body := [b8 tag, 0] ++ List.replicate 6 0 }]) ∧
        ((∀ w ∈ s.xk.far, w.node ≠ src.val) → ∃ v, exec (.farRsp src seq d) s = .next v ∧ (peerOf v src).rxNext = n ∧
          v.xk.queue = s.xk.queue ∧ v.xk.far = s.xk.far ∧ v.regs = s.regs ∧ SameStores s v) ∧
        (∀ (w : FarWait) (tag : Nat), s.xk.far = [w] → w.node = src.val → w.id = some tag → leAt d 0 1 = tag →
          leAt d 1 1 = 0 → w.tag = 0x18 → w.mode = .reply → w.fill = false →
          (tag < 64 → d.length = 264 → w.write = false → ∃ v, exec (.farRsp src seq d) s = .next v ∧ v.xk.far = [] ∧
            (peerOf v src).rxNext = n ∧ v.regs = s.regs ∧ SameStores s v ∧
            tabGet {} v.replies 0 = { data := ((d.drop 8).drop (w.offset % 256)).take w.size }) ∧
          (64 ≤ tag → d.length = 8 → w.write = true → ∃ v, exec (.farRsp src seq d) s = .next v ∧ v.xk.far = [] ∧
            (peerOf v src).rxNext = n ∧ v.regs = s.regs ∧ SameStores s v ∧ v.replies = s.replies)) ∧
        (s.xk.net = .member → ∃ v, exec (.collContrib src seq d) s = .next v ∧ (peerOf v src).rxNext = n ∧
          v.xk.rounds = s.xk.rounds ∧ v.regs = s.regs ∧ SameStores s v) ∧
        (s.xk.net = .master → s.xk.rounds = [] → 16 ≤ d.length → leAt d 11 1 % 2 = 0 →
          ∃ v, exec (.collContrib src seq d) s = .next v ∧ (peerOf v src).rxNext = n ∧ v.regs = s.regs ∧ SameStores s v ∧
            v.xk.rounds = [{ key := collKey d, ctx := leAt d 8 1, op := leAt d 9 1, int32 := leAt d 10 1 == 1,
                             bytes := leAt d 12 2, cycle := s.xk.cycle, parts := [(src.val, d.drop 16)] }]) ∧
        (∀ (b : BcastTx) (l : LongCmd), s.xk.bcastTx = [b] → b.xfer = leAt d 0 2 → b.waiting = [src.val] →
          tabGet? s.sup.longs b.cmd = some l → leAt d 2 1 = 2 ∨ leAt d 2 1 = 3 →
          ∃ v, exec (.modelStatus src seq d) s = .next v ∧ (peerOf v src).rxNext = n ∧ v.xk.bcastTx = [] ∧ v.regs = s.regs ∧
            SameStores s v ∧ Finished b.cmd 0 0
              (if leAt d 2 1 = 2 then leBytes 2 (b.loaded + 2 ^ src.val) ++ leBytes 2 b.failed
               else leBytes 2 b.loaded ++ leBytes 2 (b.failed + 2 ^ src.val)) v) ∧
        (s.xk.relayIn = [] → s.xk.relayBusy = none → mbFree s 7 = true → ∃ v, exec (.relayReq src seq d) s = .next v ∧
          (peerOf v src).rxNext = n ∧ mbState v 7 = 1 ∧ v.xk.relayBusy = some src.val ∧ v.xk.relayIn = [] ∧
          (∀ i, i < d.length → tabGet 0 (mbOf v 7).req i = d.getD i 0) ∧ (∀ j, j ≠ 7 → mbOf v j = mbOf s j) ∧ SameStores s v) ∧
        (∀ q : Nat, s.xk.relayIn = [] → s.xk.relayBusy = some q → q ≠ src.val → ∃ v,
          exec (.relayReq src seq d) s = .next v ∧ (peerOf v src).rxNext = n ∧ v.xk.relayIn = [(src.val, d)] ∧
          v.xk.relayBusy = some q ∧ v.mboxes = s.mboxes ∧ v.regs = s.regs ∧ SameStores s v) ∧
        (∀ (k c : Nat) (l : LongCmd) (x : List Byte), s.xk.relays = [(k, src.val, c)] → tabGet? s.sup.longs k = some l →
          x = (d.drop 8).take 16 → ∃ v, exec (.relayRsp src seq d) s = .next v ∧ (peerOf v src).rxNext = n ∧
            v.xk.relays = [] ∧ SameStores s v ∧
            Finished k 0 0 (leBytes 2 (leAt d 6 2) ++ leBytes 2 (leAt d 4 2) ++ x ++ List.replicate (16 - x.length) 0) v) ∧
        (mapValid d = true → s.xk.soundings = [] → ∃ v, exec (.mapFrame src seq d) s = .next v ∧ (peerOf v src).rxNext = n ∧
          (peerOf v src).txMaps.head? = some (mapVersion d, d) ∧ (peerOf v src).txMaps.length ≤ 2 ∧ v.regs = s.regs ∧
          SameStores s v) ∧
        (mapValid d = false → ∃ v, exec (.mapFrame src seq d) s = .next v ∧ (peerOf v src).rxNext = n ∧
          (peerOf v src).txMaps = (peerOf s src).txMaps ∧ v.regs = s.regs ∧ SameStores s v))) ∧
    (∀ (p : List Byte) (e d : Nat), hears s src = true → p.length = 128 → leAt p (8 * s.xk.node) 8 = e →
      (bitAt e 29 = true → (peerOf s src).held = []) → d = (bitsOf e 32 12 + 4096 - (peerOf s src).rxNext) % 4096 →
      ∃ v, exec (.statusFrame src p) s = .next v ∧ (peerOf v src).heard = true ∧
        (peerOf v src).out = (if bitAt e 28 = true then (peerOf s src).out.filter (fun f =>
          !ackedBy (bitsOf e 0 12) (bitsOf e 12 16) f.seq) else (peerOf s src).out) ∧
        (peerOf v src).rxNext = (if bitAt e 29 = true ∧ ((peerOf s src).rxValid = false ∨ 1 ≤ d ∧ d ≤ 64)
          then bitsOf e 32 12 else (peerOf s src).rxNext) ∧
        (if bitAt e 29 = true ∧ (peerOf s src).rxValid = true ∧ 1 ≤ d ∧ d ≤ 64 then
          (regGet v 0x90D8).toNat = min 0xFFFFFFFF ((regGet s 0x90D8).toNat + d) else v.regs = s.regs) ∧
        (∀ n, n ≠ src.val → peerOf v n = peerOf s n) ∧ SameStores s v) ∧
    (∀ (d : List Byte) (l : CollLocal) (more : List CollLocal), hears s src = true → 16 ≤ d.length →
      (bitAt (leAt d 14 2) s.xk.node = false ∨ (∀ q ∈ s.xk.colls, q.out = false ∨ q.key ≠ collKey d) →
        exec (.collResult src d) s = .next (settle s)) ∧
      (s.xk.colls = l :: more → l ∉ more → l.out = true → l.key = collKey d → bitAt (leAt d 14 2) s.xk.node = true →
        (leAt d 11 1 = 0 → ∃ v, exec (.collResult src d) s = .next v ∧
          v.xk.colls = { l with got := d.drop 16 } :: more ∧ v.regs = s.regs ∧ SameStores s v) ∧
        (∀ (a : Nat) (x : List Byte), leAt d 11 1 = 2 ∧ x = d.drop 16 ∨
          leAt d 11 1 = 3 ∧ l.got.length = 2048 ∧ x = l.got ++ d.drop 16 → l.dsts = [a] → Quiet s →
          (∀ q ∈ pieces x.length a x.length, Passes s ⟨l.tag, l.detail, .addr q.1, decide (q.2 = 64), true, q.2, []⟩) →
          ∃ v, exec (.collResult src d) s = .next v ∧ v.xk.colls = more ∧ memBytes v a x.length = x ∧
            regGet v 0x90B0 = w32 (leAt d 14 2 + 65536 * (l.key % 32)) ∧ Emit.event 162 ∈ v.emitted ∧
            v.handles = s.handles))) ∧
    (∀ d : List Byte, hears s src = true → tabGet? s.xk.bcastRx src = none → leAt d 4 4 = 0 → 16 < d.length →
      d.length - 16 < leAt d 8 4 → ∃ v, exec (.modelData src d) s = .next v ∧ tabGet? v.xk.bcastRx src =
          some { xfer := leAt d 0 2, total := leAt d 8 4, frags := [(0, d.drop 16)] } ∧ v.regs = s.regs ∧ SameStores s v) ∧
    (∀ (y : List (BitVec 12)) (ver : Nat) (built : Option (List Byte)), hears s src = true →
      ver = nextVersion (peerOf s src).rxMaps → built = buildMap ver (soundSnr s.xk.chan (soundingRx [] y s)) →
      ∃ v, exec (.soundFrame src y) s = .next v ∧ Counted 0x906C s v ∧ SameStores s v ∧ (match built with
        | some m => (peerOf v src).rxMaps.head? = some (ver, m) ∧
            v.xk.queue = s.xk.queue ++ [{ dest := src.val, kind := 12, seq := 0, body := m }]
        | none => (peerOf v src).rxMaps = (peerOf s src).rxMaps ∧ v.xk.queue = s.xk.queue)) ∧
    ((∀ r ∈ s.xk.relays, r.2.1 ≠ src.val ∨ cyclesSince s r.2.2 < 16) → exec (.relayTimeout src) s = .next (settle s)) ∧
    (∀ (k c : Nat) (l : LongCmd) (more : List (Nat × Nat × Nat)), s.xk.relays = (k, src.val, c) :: more →
      tabGet? s.sup.longs k = some l → 16 ≤ cyclesSince s c → ∃ v, exec (.relayTimeout src) s = .next v ∧
        v.xk.relays = more ∧ Finished k 0x40 0 [] v ∧ v.regs = s.regs ∧ SameStores s v) ∧
    (∀ (b : BcastTx) (l : LongCmd), s.xk.bcastTx = [b] → b.queue = [] → b.missing = [] ∨ 3 ≤ b.round →
      16 ≤ cyclesSince s b.lastCycle → tabGet? s.sup.longs b.cmd = some l →
      ∃ v, exec .modelBcastTimeout s = .next v ∧ v.xk.bcastTx = [] ∧ v.regs = s.regs ∧ SameStores s v ∧
        Finished b.cmd 0 0 (leBytes 2 b.loaded ++ leBytes 2 (b.failed + maskOf b.waiting)) v) ∧
    ∀ (q : Sounding) (l : LongCmd), s.xk.soundings = [q] → 8 ≤ cyclesSince s q.cycle → tabGet? s.sup.longs q.cmd = some l →
      ∃ v r, exec .soundTimeout s = .next v ∧ v.xk.soundings = [] ∧ v.regs = s.regs ∧ SameStores s v ∧ r.length = 4 ∧
        Finished q.cmd 0 0 (leBytes 2 q.maps ++ [0, 0] ++ r) v

/-- Every command completes in every state. Whatever its operands, it answers a next state, and no host interrupt source is
left there that must still send its message. (R720, R721, 12_supervisor_mailboxes.md) -/
def Obligations.EveryCommandCompletes : Prop :=
  ∀ (c : Instr) (s : State), ∃ t, exec c s = .next t ∧ NoIrqDue t

/-- Built-in functions are monotonic on the intervals of R448. Of two arguments of one sign in one interval, neither with an
exact result, the larger gives no smaller result (by its key) where the function increases, and no larger one where it
decreases, whatever the table of the implementation holds. (R448, R449, 07_special_functions.md) -/
def Obligations.SpecialFunctionsAreMonotonic : Prop :=
  ∀ (fn u w : Nat) (lo hi : Int) (down : Bool), sfuTrend fn (bitAt u 31) = some (lo, hi, down) → bitAt w 31 = bitAt u 31 →
    lo ≤ fKey u → fKey u ≤ fKey w → fKey w ≤ hi → sfuExact fn u = none → sfuExact fn w = none →
    (down = false → sfuChoice fn u ≤ sfuChoice fn w) ∧ (down = true → sfuChoice fn w ≤ sfuChoice fn u)
end

