-- ==== Sys2Proof/Laws/State.lean ====
section
/-! SUPPORT. What each named update of the state leaves as it was: one lemma per field and update, true by rfl, so that no
proof unfolds a record update. -/

namespace Sys2Proof.Machine

open Sys2Proof

variable (s : State)

/-! ## regSet -/

@[simp] theorem regSet_pending (o : Nat) (w : Word) : (regSet o w s).pending = s.pending := rfl
@[simp] theorem regSet_free (o : Nat) (w : Word) : (regSet o w s).free = s.free := rfl
@[simp] theorem regSet_ts (o : Nat) (w : Word) : (regSet o w s).ts = s.ts := rfl
@[simp] theorem regSet_latches (o : Nat) (w : Word) : (regSet o w s).latches = s.latches := rfl
@[simp] theorem regSet_staging (o : Nat) (w : Word) : (regSet o w s).staging = s.staging := rfl
@[simp] theorem regSet_replies (o : Nat) (w : Word) : (regSet o w s).replies = s.replies := rfl
@[simp] theorem regSet_emitted (o : Nat) (w : Word) : (regSet o w s).emitted = s.emitted := rfl
@[simp] theorem regSet_irqArmed (o : Nat) (w : Word) : (regSet o w s).irqArmed = s.irqArmed := rfl
@[simp] theorem regSet_msix (o : Nat) (w : Word) : (regSet o w s).msix = s.msix := rfl
@[simp] theorem regSet_pba (o : Nat) (w : Word) : (regSet o w s).pba = s.pba := rfl
@[simp] theorem regSet_funcMask (o : Nat) (w : Word) : (regSet o w s).funcMask = s.funcMask := rfl
@[simp] theorem regSet_tic (o : Nat) (w : Word) : (regSet o w s).tic = s.tic := rfl
@[simp] theorem regSet_log (o : Nat) (w : Word) : (regSet o w s).log = s.log := rfl
@[simp] theorem regSet_lastCe (o : Nat) (w : Word) : (regSet o w s).lastCe = s.lastCe := rfl
@[simp] theorem regSet_lt (o : Nat) (w : Word) : (regSet o w s).lt = s.lt := rfl
@[simp] theorem regSet_cal (o : Nat) (w : Word) : (regSet o w s).cal = s.cal := rfl
@[simp] theorem regSet_strobes (o : Nat) (w : Word) : (regSet o w s).strobes = s.strobes := rfl
@[simp] theorem regSet_ports (o : Nat) (w : Word) : (regSet o w s).ports = s.ports := rfl
@[simp] theorem regSet_streams (o : Nat) (w : Word) : (regSet o w s).streams = s.streams := rfl
@[simp] theorem regSet_cols (o : Nat) (w : Word) : (regSet o w s).cols = s.cols := rfl
@[simp] theorem regSet_mem (o : Nat) (w : Word) : (regSet o w s).mem = s.mem := rfl
@[simp] theorem regSet_ecc (o : Nat) (w : Word) : (regSet o w s).ecc = s.ecc := rfl
@[simp] theorem regSet_groups (o : Nat) (w : Word) : (regSet o w s).groups = s.groups := rfl
@[simp] theorem regSet_autowake (o : Nat) (w : Word) : (regSet o w s).autowake = s.autowake := rfl
@[simp] theorem regSet_bankMap (o : Nat) (w : Word) : (regSet o w s).bankMap = s.bankMap := rfl
@[simp] theorem regSet_bankOut (o : Nat) (w : Word) : (regSet o w s).bankOut = s.bankOut := rfl
@[simp] theorem regSet_copy (o : Nat) (w : Word) : (regSet o w s).copy = s.copy := rfl
@[simp] theorem regSet_limp (o : Nat) (w : Word) : (regSet o w s).limp = s.limp := rfl
@[simp] theorem regSet_handles (o : Nat) (w : Word) : (regSet o w s).handles = s.handles := rfl
@[simp] theorem regSet_reloc (o : Nat) (w : Word) : (regSet o w s).reloc = s.reloc := rfl
@[simp] theorem regSet_sems (o : Nat) (w : Word) : (regSet o w s).sems = s.sems := rfl
@[simp] theorem regSet_arrivals (o : Nat) (w : Word) : (regSet o w s).arrivals = s.arrivals := rfl
@[simp] theorem regSet_rings (o : Nat) (w : Word) : (regSet o w s).rings = s.rings := rfl
@[simp] theorem regSet_windows (o : Nat) (w : Word) : (regSet o w s).windows = s.windows := rfl
@[simp] theorem regSet_tokens (o : Nat) (w : Word) : (regSet o w s).tokens = s.tokens := rfl
@[simp] theorem regSet_lastRefill (o : Nat) (w : Word) : (regSet o w s).lastRefill = s.lastRefill := rfl
@[simp] theorem regSet_cores (o : Nat) (w : Word) : (regSet o w s).cores = s.cores := rfl
@[simp] theorem regSet_coreMap (o : Nat) (w : Word) : (regSet o w s).coreMap = s.coreMap := rfl
@[simp] theorem regSet_near (o : Nat) (w : Word) : (regSet o w s).near = s.near := rfl
@[simp] theorem regSet_nearEcc (o : Nat) (w : Word) : (regSet o w s).nearEcc = s.nearEcc := rfl
@[simp] theorem regSet_accs (o : Nat) (w : Word) : (regSet o w s).accs = s.accs := rfl
@[simp] theorem regSet_tcache (o : Nat) (w : Word) : (regSet o w s).tcache = s.tcache := rfl
@[simp] theorem regSet_fcache (o : Nat) (w : Word) : (regSet o w s).fcache = s.fcache := rfl
@[simp] theorem regSet_fills (o : Nat) (w : Word) : (regSet o w s).fills = s.fills := rfl
@[simp] theorem regSet_held (o : Nat) (w : Word) : (regSet o w s).held = s.held := rfl
@[simp] theorem regSet_useCount (o : Nat) (w : Word) : (regSet o w s).useCount = s.useCount := rfl
@[simp] theorem regSet_fcBuffer (o : Nat) (w : Word) : (regSet o w s).fcBuffer = s.fcBuffer := rfl
@[simp] theorem regSet_rangeOps (o : Nat) (w : Word) : (regSet o w s).rangeOps = s.rangeOps := rfl
@[simp] theorem regSet_pinWin (o : Nat) (w : Word) : (regSet o w s).pinWin = s.pinWin := rfl
@[simp] theorem regSet_pinNow (o : Nat) (w : Word) : (regSet o w s).pinNow = s.pinNow := rfl
@[simp] theorem regSet_models (o : Nat) (w : Word) : (regSet o w s).models = s.models := rfl
@[simp] theorem regSet_coreSets (o : Nat) (w : Word) : (regSet o w s).coreSets = s.coreSets := rfl
@[simp] theorem regSet_sgroups (o : Nat) (w : Word) : (regSet o w s).sgroups = s.sgroups := rfl
@[simp] theorem regSet_ops (o : Nat) (w : Word) : (regSet o w s).ops = s.ops := rfl
@[simp] theorem regSet_opNext (o : Nat) (w : Word) : (regSet o w s).opNext = s.opNext := rfl
@[simp] theorem regSet_dma (o : Nat) (w : Word) : (regSet o w s).dma = s.dma := rfl
@[simp] theorem regSet_dmaBusy (o : Nat) (w : Word) : (regSet o w s).dmaBusy = s.dmaBusy := rfl
@[simp] theorem regSet_harts (o : Nat) (w : Word) : (regSet o w s).harts = s.harts := rfl
@[simp] theorem regSet_l2 (o : Nat) (w : Word) : (regSet o w s).l2 = s.l2 := rfl
@[simp] theorem regSet_evOwner (o : Nat) (w : Word) : (regSet o w s).evOwner = s.evOwner := rfl
@[simp] theorem regSet_mboxes (o : Nat) (w : Word) : (regSet o w s).mboxes = s.mboxes := rfl
@[simp] theorem regSet_sup (o : Nat) (w : Word) : (regSet o w s).sup = s.sup := rfl
@[simp] theorem regSet_flash (o : Nat) (w : Word) : (regSet o w s).flash = s.flash := rfl
@[simp] theorem regSet_xk (o : Nat) (w : Word) : (regSet o w s).xk = s.xk := rfl
@[simp] theorem regSet_pwr (o : Nat) (w : Word) : (regSet o w s).pwr = s.pwr := rfl
@[simp] theorem regSet_jtag (o : Nat) (w : Word) : (regSet o w s).jtag = s.jtag := rfl

/-! ## regMod -/

@[simp] theorem regMod_pending (o : Nat) (f : Word → Word) : (regMod o f s).pending = s.pending := rfl
@[simp] theorem regMod_free (o : Nat) (f : Word → Word) : (regMod o f s).free = s.free := rfl
@[simp] theorem regMod_ts (o : Nat) (f : Word → Word) : (regMod o f s).ts = s.ts := rfl
@[simp] theorem regMod_latches (o : Nat) (f : Word → Word) : (regMod o f s).latches = s.latches := rfl
@[simp] theorem regMod_staging (o : Nat) (f : Word → Word) : (regMod o f s).staging = s.staging := rfl
@[simp] theorem regMod_replies (o : Nat) (f : Word → Word) : (regMod o f s).replies = s.replies := rfl
@[simp] theorem regMod_emitted (o : Nat) (f : Word → Word) : (regMod o f s).emitted = s.emitted := rfl
@[simp] theorem regMod_irqArmed (o : Nat) (f : Word → Word) : (regMod o f s).irqArmed = s.irqArmed := rfl
@[simp] theorem regMod_msix (o : Nat) (f : Word → Word) : (regMod o f s).msix = s.msix := rfl
@[simp] theorem regMod_pba (o : Nat) (f : Word → Word) : (regMod o f s).pba = s.pba := rfl
@[simp] theorem regMod_funcMask (o : Nat) (f : Word → Word) : (regMod o f s).funcMask = s.funcMask := rfl
@[simp] theorem regMod_tic (o : Nat) (f : Word → Word) : (regMod o f s).tic = s.tic := rfl
@[simp] theorem regMod_log (o : Nat) (f : Word → Word) : (regMod o f s).log = s.log := rfl
@[simp] theorem regMod_lastCe (o : Nat) (f : Word → Word) : (regMod o f s).lastCe = s.lastCe := rfl
@[simp] theorem regMod_lt (o : Nat) (f : Word → Word) : (regMod o f s).lt = s.lt := rfl
@[simp] theorem regMod_cal (o : Nat) (f : Word → Word) : (regMod o f s).cal = s.cal := rfl
@[simp] theorem regMod_strobes (o : Nat) (f : Word → Word) : (regMod o f s).strobes = s.strobes := rfl
@[simp] theorem regMod_ports (o : Nat) (f : Word → Word) : (regMod o f s).ports = s.ports := rfl
@[simp] theorem regMod_streams (o : Nat) (f : Word → Word) : (regMod o f s).streams = s.streams := rfl
@[simp] theorem regMod_cols (o : Nat) (f : Word → Word) : (regMod o f s).cols = s.cols := rfl
@[simp] theorem regMod_mem (o : Nat) (f : Word → Word) : (regMod o f s).mem = s.mem := rfl
@[simp] theorem regMod_ecc (o : Nat) (f : Word → Word) : (regMod o f s).ecc = s.ecc := rfl
@[simp] theorem regMod_groups (o : Nat) (f : Word → Word) : (regMod o f s).groups = s.groups := rfl
@[simp] theorem regMod_autowake (o : Nat) (f : Word → Word) : (regMod o f s).autowake = s.autowake := rfl
@[simp] theorem regMod_bankMap (o : Nat) (f : Word → Word) : (regMod o f s).bankMap = s.bankMap := rfl
@[simp] theorem regMod_bankOut (o : Nat) (f : Word → Word) : (regMod o f s).bankOut = s.bankOut := rfl
@[simp] theorem regMod_copy (o : Nat) (f : Word → Word) : (regMod o f s).copy = s.copy := rfl
@[simp] theorem regMod_limp (o : Nat) (f : Word → Word) : (regMod o f s).limp = s.limp := rfl
@[simp] theorem regMod_handles (o : Nat) (f : Word → Word) : (regMod o f s).handles = s.handles := rfl
@[simp] theorem regMod_reloc (o : Nat) (f : Word → Word) : (regMod o f s).reloc = s.reloc := rfl
@[simp] theorem regMod_sems (o : Nat) (f : Word → Word) : (regMod o f s).sems = s.sems := rfl
@[simp] theorem regMod_arrivals (o : Nat) (f : Word → Word) : (regMod o f s).arrivals = s.arrivals := rfl
@[simp] theorem regMod_rings (o : Nat) (f : Word → Word) : (regMod o f s).rings = s.rings := rfl
@[simp] theorem regMod_windows (o : Nat) (f : Word → Word) : (regMod o f s).windows = s.windows := rfl
@[simp] theorem regMod_tokens (o : Nat) (f : Word → Word) : (regMod o f s).tokens = s.tokens := rfl
@[simp] theorem regMod_lastRefill (o : Nat) (f : Word → Word) : (regMod o f s).lastRefill = s.lastRefill := rfl
@[simp] theorem regMod_cores (o : Nat) (f : Word → Word) : (regMod o f s).cores = s.cores := rfl
@[simp] theorem regMod_coreMap (o : Nat) (f : Word → Word) : (regMod o f s).coreMap = s.coreMap := rfl
@[simp] theorem regMod_near (o : Nat) (f : Word → Word) : (regMod o f s).near = s.near := rfl
@[simp] theorem regMod_nearEcc (o : Nat) (f : Word → Word) : (regMod o f s).nearEcc = s.nearEcc := rfl
@[simp] theorem regMod_accs (o : Nat) (f : Word → Word) : (regMod o f s).accs = s.accs := rfl
@[simp] theorem regMod_tcache (o : Nat) (f : Word → Word) : (regMod o f s).tcache = s.tcache := rfl
@[simp] theorem regMod_fcache (o : Nat) (f : Word → Word) : (regMod o f s).fcache = s.fcache := rfl
@[simp] theorem regMod_fills (o : Nat) (f : Word → Word) : (regMod o f s).fills = s.fills := rfl
@[simp] theorem regMod_held (o : Nat) (f : Word → Word) : (regMod o f s).held = s.held := rfl
@[simp] theorem regMod_useCount (o : Nat) (f : Word → Word) : (regMod o f s).useCount = s.useCount := rfl
@[simp] theorem regMod_fcBuffer (o : Nat) (f : Word → Word) : (regMod o f s).fcBuffer = s.fcBuffer := rfl
@[simp] theorem regMod_rangeOps (o : Nat) (f : Word → Word) : (regMod o f s).rangeOps = s.rangeOps := rfl
@[simp] theorem regMod_pinWin (o : Nat) (f : Word → Word) : (regMod o f s).pinWin = s.pinWin := rfl
@[simp] theorem regMod_pinNow (o : Nat) (f : Word → Word) : (regMod o f s).pinNow = s.pinNow := rfl
@[simp] theorem regMod_models (o : Nat) (f : Word → Word) : (regMod o f s).models = s.models := rfl
@[simp] theorem regMod_coreSets (o : Nat) (f : Word → Word) : (regMod o f s).coreSets = s.coreSets := rfl
@[simp] theorem regMod_sgroups (o : Nat) (f : Word → Word) : (regMod o f s).sgroups = s.sgroups := rfl
@[simp] theorem regMod_ops (o : Nat) (f : Word → Word) : (regMod o f s).ops = s.ops := rfl
@[simp] theorem regMod_opNext (o : Nat) (f : Word → Word) : (regMod o f s).opNext = s.opNext := rfl
@[simp] theorem regMod_dma (o : Nat) (f : Word → Word) : (regMod o f s).dma = s.dma := rfl
@[simp] theorem regMod_dmaBusy (o : Nat) (f : Word → Word) : (regMod o f s).dmaBusy = s.dmaBusy := rfl
@[simp] theorem regMod_harts (o : Nat) (f : Word → Word) : (regMod o f s).harts = s.harts := rfl
@[simp] theorem regMod_l2 (o : Nat) (f : Word → Word) : (regMod o f s).l2 = s.l2 := rfl
@[simp] theorem regMod_evOwner (o : Nat) (f : Word → Word) : (regMod o f s).evOwner = s.evOwner := rfl
@[simp] theorem regMod_mboxes (o : Nat) (f : Word → Word) : (regMod o f s).mboxes = s.mboxes := rfl
@[simp] theorem regMod_sup (o : Nat) (f : Word → Word) : (regMod o f s).sup = s.sup := rfl
@[simp] theorem regMod_flash (o : Nat) (f : Word → Word) : (regMod o f s).flash = s.flash := rfl
@[simp] theorem regMod_xk (o : Nat) (f : Word → Word) : (regMod o f s).xk = s.xk := rfl
@[simp] theorem regMod_pwr (o : Nat) (f : Word → Word) : (regMod o f s).pwr = s.pwr := rfl
@[simp] theorem regMod_jtag (o : Nat) (f : Word → Word) : (regMod o f s).jtag = s.jtag := rfl

/-! ## regOr -/

@[simp] theorem regOr_pending (o m : Nat) : (regOr o m s).pending = s.pending := rfl
@[simp] theorem regOr_free (o m : Nat) : (regOr o m s).free = s.free := rfl
@[simp] theorem regOr_ts (o m : Nat) : (regOr o m s).ts = s.ts := rfl
@[simp] theorem regOr_latches (o m : Nat) : (regOr o m s).latches = s.latches := rfl
@[simp] theorem regOr_staging (o m : Nat) : (regOr o m s).staging = s.staging := rfl
@[simp] theorem regOr_replies (o m : Nat) : (regOr o m s).replies = s.replies := rfl
@[simp] theorem regOr_emitted (o m : Nat) : (regOr o m s).emitted = s.emitted := rfl
@[simp] theorem regOr_irqArmed (o m : Nat) : (regOr o m s).irqArmed = s.irqArmed := rfl
@[simp] theorem regOr_msix (o m : Nat) : (regOr o m s).msix = s.msix := rfl
@[simp] theorem regOr_pba (o m : Nat) : (regOr o m s).pba = s.pba := rfl
@[simp] theorem regOr_funcMask (o m : Nat) : (regOr o m s).funcMask = s.funcMask := rfl
@[simp] theorem regOr_tic (o m : Nat) : (regOr o m s).tic = s.tic := rfl
@[simp] theorem regOr_log (o m : Nat) : (regOr o m s).log = s.log := rfl
@[simp] theorem regOr_lastCe (o m : Nat) : (regOr o m s).lastCe = s.lastCe := rfl
@[simp] theorem regOr_lt (o m : Nat) : (regOr o m s).lt = s.lt := rfl
@[simp] theorem regOr_cal (o m : Nat) : (regOr o m s).cal = s.cal := rfl
@[simp] theorem regOr_strobes (o m : Nat) : (regOr o m s).strobes = s.strobes := rfl
@[simp] theorem regOr_ports (o m : Nat) : (regOr o m s).ports = s.ports := rfl
@[simp] theorem regOr_streams (o m : Nat) : (regOr o m s).streams = s.streams := rfl
@[simp] theorem regOr_cols (o m : Nat) : (regOr o m s).cols = s.cols := rfl
@[simp] theorem regOr_mem (o m : Nat) : (regOr o m s).mem = s.mem := rfl
@[simp] theorem regOr_ecc (o m : Nat) : (regOr o m s).ecc = s.ecc := rfl
@[simp] theorem regOr_groups (o m : Nat) : (regOr o m s).groups = s.groups := rfl
@[simp] theorem regOr_autowake (o m : Nat) : (regOr o m s).autowake = s.autowake := rfl
@[simp] theorem regOr_bankMap (o m : Nat) : (regOr o m s).bankMap = s.bankMap := rfl
@[simp] theorem regOr_bankOut (o m : Nat) : (regOr o m s).bankOut = s.bankOut := rfl
@[simp] theorem regOr_copy (o m : Nat) : (regOr o m s).copy = s.copy := rfl
@[simp] theorem regOr_limp (o m : Nat) : (regOr o m s).limp = s.limp := rfl
@[simp] theorem regOr_handles (o m : Nat) : (regOr o m s).handles = s.handles := rfl
@[simp] theorem regOr_reloc (o m : Nat) : (regOr o m s).reloc = s.reloc := rfl
@[simp] theorem regOr_sems (o m : Nat) : (regOr o m s).sems = s.sems := rfl
@[simp] theorem regOr_arrivals (o m : Nat) : (regOr o m s).arrivals = s.arrivals := rfl
@[simp] theorem regOr_rings (o m : Nat) : (regOr o m s).rings = s.rings := rfl
@[simp] theorem regOr_windows (o m : Nat) : (regOr o m s).windows = s.windows := rfl
@[simp] theorem regOr_tokens (o m : Nat) : (regOr o m s).tokens = s.tokens := rfl
@[simp] theorem regOr_lastRefill (o m : Nat) : (regOr o m s).lastRefill = s.lastRefill := rfl
@[simp] theorem regOr_cores (o m : Nat) : (regOr o m s).cores = s.cores := rfl
@[simp] theorem regOr_coreMap (o m : Nat) : (regOr o m s).coreMap = s.coreMap := rfl
@[simp] theorem regOr_near (o m : Nat) : (regOr o m s).near = s.near := rfl
@[simp] theorem regOr_nearEcc (o m : Nat) : (regOr o m s).nearEcc = s.nearEcc := rfl
@[simp] theorem regOr_accs (o m : Nat) : (regOr o m s).accs = s.accs := rfl
@[simp] theorem regOr_tcache (o m : Nat) : (regOr o m s).tcache = s.tcache := rfl
@[simp] theorem regOr_fcache (o m : Nat) : (regOr o m s).fcache = s.fcache := rfl
@[simp] theorem regOr_fills (o m : Nat) : (regOr o m s).fills = s.fills := rfl
@[simp] theorem regOr_held (o m : Nat) : (regOr o m s).held = s.held := rfl
@[simp] theorem regOr_useCount (o m : Nat) : (regOr o m s).useCount = s.useCount := rfl
@[simp] theorem regOr_fcBuffer (o m : Nat) : (regOr o m s).fcBuffer = s.fcBuffer := rfl
@[simp] theorem regOr_rangeOps (o m : Nat) : (regOr o m s).rangeOps = s.rangeOps := rfl
@[simp] theorem regOr_pinWin (o m : Nat) : (regOr o m s).pinWin = s.pinWin := rfl
@[simp] theorem regOr_pinNow (o m : Nat) : (regOr o m s).pinNow = s.pinNow := rfl
@[simp] theorem regOr_models (o m : Nat) : (regOr o m s).models = s.models := rfl
@[simp] theorem regOr_coreSets (o m : Nat) : (regOr o m s).coreSets = s.coreSets := rfl
@[simp] theorem regOr_sgroups (o m : Nat) : (regOr o m s).sgroups = s.sgroups := rfl
@[simp] theorem regOr_ops (o m : Nat) : (regOr o m s).ops = s.ops := rfl
@[simp] theorem regOr_opNext (o m : Nat) : (regOr o m s).opNext = s.opNext := rfl
@[simp] theorem regOr_dma (o m : Nat) : (regOr o m s).dma = s.dma := rfl
@[simp] theorem regOr_dmaBusy (o m : Nat) : (regOr o m s).dmaBusy = s.dmaBusy := rfl
@[simp] theorem regOr_harts (o m : Nat) : (regOr o m s).harts = s.harts := rfl
@[simp] theorem regOr_l2 (o m : Nat) : (regOr o m s).l2 = s.l2 := rfl
@[simp] theorem regOr_evOwner (o m : Nat) : (regOr o m s).evOwner = s.evOwner := rfl
@[simp] theorem regOr_mboxes (o m : Nat) : (regOr o m s).mboxes = s.mboxes := rfl
@[simp] theorem regOr_sup (o m : Nat) : (regOr o m s).sup = s.sup := rfl
@[simp] theorem regOr_flash (o m : Nat) : (regOr o m s).flash = s.flash := rfl
@[simp] theorem regOr_xk (o m : Nat) : (regOr o m s).xk = s.xk := rfl
@[simp] theorem regOr_pwr (o m : Nat) : (regOr o m s).pwr = s.pwr := rfl
@[simp] theorem regOr_jtag (o m : Nat) : (regOr o m s).jtag = s.jtag := rfl

/-! ## regClr -/

@[simp] theorem regClr_pending (o m : Nat) : (regClr o m s).pending = s.pending := rfl
@[simp] theorem regClr_free (o m : Nat) : (regClr o m s).free = s.free := rfl
@[simp] theorem regClr_ts (o m : Nat) : (regClr o m s).ts = s.ts := rfl
@[simp] theorem regClr_latches (o m : Nat) : (regClr o m s).latches = s.latches := rfl
@[simp] theorem regClr_staging (o m : Nat) : (regClr o m s).staging = s.staging := rfl
@[simp] theorem regClr_replies (o m : Nat) : (regClr o m s).replies = s.replies := rfl
@[simp] theorem regClr_emitted (o m : Nat) : (regClr o m s).emitted = s.emitted := rfl
@[simp] theorem regClr_irqArmed (o m : Nat) : (regClr o m s).irqArmed = s.irqArmed := rfl
@[simp] theorem regClr_msix (o m : Nat) : (regClr o m s).msix = s.msix := rfl
@[simp] theorem regClr_pba (o m : Nat) : (regClr o m s).pba = s.pba := rfl
@[simp] theorem regClr_funcMask (o m : Nat) : (regClr o m s).funcMask = s.funcMask := rfl
@[simp] theorem regClr_tic (o m : Nat) : (regClr o m s).tic = s.tic := rfl
@[simp] theorem regClr_log (o m : Nat) : (regClr o m s).log = s.log := rfl
@[simp] theorem regClr_lastCe (o m : Nat) : (regClr o m s).lastCe = s.lastCe := rfl
@[simp] theorem regClr_lt (o m : Nat) : (regClr o m s).lt = s.lt := rfl
@[simp] theorem regClr_cal (o m : Nat) : (regClr o m s).cal = s.cal := rfl
@[simp] theorem regClr_strobes (o m : Nat) : (regClr o m s).strobes = s.strobes := rfl
@[simp] theorem regClr_ports (o m : Nat) : (regClr o m s).ports = s.ports := rfl
@[simp] theorem regClr_streams (o m : Nat) : (regClr o m s).streams = s.streams := rfl
@[simp] theorem regClr_cols (o m : Nat) : (regClr o m s).cols = s.cols := rfl
@[simp] theorem regClr_mem (o m : Nat) : (regClr o m s).mem = s.mem := rfl
@[simp] theorem regClr_ecc (o m : Nat) : (regClr o m s).ecc = s.ecc := rfl
@[simp] theorem regClr_groups (o m : Nat) : (regClr o m s).groups = s.groups := rfl
@[simp] theorem regClr_autowake (o m : Nat) : (regClr o m s).autowake = s.autowake := rfl
@[simp] theorem regClr_bankMap (o m : Nat) : (regClr o m s).bankMap = s.bankMap := rfl
@[simp] theorem regClr_bankOut (o m : Nat) : (regClr o m s).bankOut = s.bankOut := rfl
@[simp] theorem regClr_copy (o m : Nat) : (regClr o m s).copy = s.copy := rfl
@[simp] theorem regClr_limp (o m : Nat) : (regClr o m s).limp = s.limp := rfl
@[simp] theorem regClr_handles (o m : Nat) : (regClr o m s).handles = s.handles := rfl
@[simp] theorem regClr_reloc (o m : Nat) : (regClr o m s).reloc = s.reloc := rfl
@[simp] theorem regClr_sems (o m : Nat) : (regClr o m s).sems = s.sems := rfl
@[simp] theorem regClr_arrivals (o m : Nat) : (regClr o m s).arrivals = s.arrivals := rfl
@[simp] theorem regClr_rings (o m : Nat) : (regClr o m s).rings = s.rings := rfl
@[simp] theorem regClr_windows (o m : Nat) : (regClr o m s).windows = s.windows := rfl
@[simp] theorem regClr_tokens (o m : Nat) : (regClr o m s).tokens = s.tokens := rfl
@[simp] theorem regClr_lastRefill (o m : Nat) : (regClr o m s).lastRefill = s.lastRefill := rfl
@[simp] theorem regClr_cores (o m : Nat) : (regClr o m s).cores = s.cores := rfl
@[simp] theorem regClr_coreMap (o m : Nat) : (regClr o m s).coreMap = s.coreMap := rfl
@[simp] theorem regClr_near (o m : Nat) : (regClr o m s).near = s.near := rfl
@[simp] theorem regClr_nearEcc (o m : Nat) : (regClr o m s).nearEcc = s.nearEcc := rfl
@[simp] theorem regClr_accs (o m : Nat) : (regClr o m s).accs = s.accs := rfl
@[simp] theorem regClr_tcache (o m : Nat) : (regClr o m s).tcache = s.tcache := rfl
@[simp] theorem regClr_fcache (o m : Nat) : (regClr o m s).fcache = s.fcache := rfl
@[simp] theorem regClr_fills (o m : Nat) : (regClr o m s).fills = s.fills := rfl
@[simp] theorem regClr_held (o m : Nat) : (regClr o m s).held = s.held := rfl
@[simp] theorem regClr_useCount (o m : Nat) : (regClr o m s).useCount = s.useCount := rfl
@[simp] theorem regClr_fcBuffer (o m : Nat) : (regClr o m s).fcBuffer = s.fcBuffer := rfl
@[simp] theorem regClr_rangeOps (o m : Nat) : (regClr o m s).rangeOps = s.rangeOps := rfl
@[simp] theorem regClr_pinWin (o m : Nat) : (regClr o m s).pinWin = s.pinWin := rfl
@[simp] theorem regClr_pinNow (o m : Nat) : (regClr o m s).pinNow = s.pinNow := rfl
@[simp] theorem regClr_models (o m : Nat) : (regClr o m s).models = s.models := rfl
@[simp] theorem regClr_coreSets (o m : Nat) : (regClr o m s).coreSets = s.coreSets := rfl
@[simp] theorem regClr_sgroups (o m : Nat) : (regClr o m s).sgroups = s.sgroups := rfl
@[simp] theorem regClr_ops (o m : Nat) : (regClr o m s).ops = s.ops := rfl
@[simp] theorem regClr_opNext (o m : Nat) : (regClr o m s).opNext = s.opNext := rfl
@[simp] theorem regClr_dma (o m : Nat) : (regClr o m s).dma = s.dma := rfl
@[simp] theorem regClr_dmaBusy (o m : Nat) : (regClr o m s).dmaBusy = s.dmaBusy := rfl
@[simp] theorem regClr_harts (o m : Nat) : (regClr o m s).harts = s.harts := rfl
@[simp] theorem regClr_l2 (o m : Nat) : (regClr o m s).l2 = s.l2 := rfl
@[simp] theorem regClr_evOwner (o m : Nat) : (regClr o m s).evOwner = s.evOwner := rfl
@[simp] theorem regClr_mboxes (o m : Nat) : (regClr o m s).mboxes = s.mboxes := rfl
@[simp] theorem regClr_sup (o m : Nat) : (regClr o m s).sup = s.sup := rfl
@[simp] theorem regClr_flash (o m : Nat) : (regClr o m s).flash = s.flash := rfl
@[simp] theorem regClr_xk (o m : Nat) : (regClr o m s).xk = s.xk := rfl
@[simp] theorem regClr_pwr (o m : Nat) : (regClr o m s).pwr = s.pwr := rfl
@[simp] theorem regClr_jtag (o m : Nat) : (regClr o m s).jtag = s.jtag := rfl

/-! ## regAdd -/

@[simp] theorem regAdd_pending (o n : Nat) : (regAdd o n s).pending = s.pending := rfl
@[simp] theorem regAdd_free (o n : Nat) : (regAdd o n s).free = s.free := rfl
@[simp] theorem regAdd_ts (o n : Nat) : (regAdd o n s).ts = s.ts := rfl
@[simp] theorem regAdd_latches (o n : Nat) : (regAdd o n s).latches = s.latches := rfl
@[simp] theorem regAdd_staging (o n : Nat) : (regAdd o n s).staging = s.staging := rfl
@[simp] theorem regAdd_replies (o n : Nat) : (regAdd o n s).replies = s.replies := rfl
@[simp] theorem regAdd_emitted (o n : Nat) : (regAdd o n s).emitted = s.emitted := rfl
@[simp] theorem regAdd_irqArmed (o n : Nat) : (regAdd o n s).irqArmed = s.irqArmed := rfl
@[simp] theorem regAdd_msix (o n : Nat) : (regAdd o n s).msix = s.msix := rfl
@[simp] theorem regAdd_pba (o n : Nat) : (regAdd o n s).pba = s.pba := rfl
@[simp] theorem regAdd_funcMask (o n : Nat) : (regAdd o n s).funcMask = s.funcMask := rfl
@[simp] theorem regAdd_tic (o n : Nat) : (regAdd o n s).tic = s.tic := rfl
@[simp] theorem regAdd_log (o n : Nat) : (regAdd o n s).log = s.log := rfl
@[simp] theorem regAdd_lastCe (o n : Nat) : (regAdd o n s).lastCe = s.lastCe := rfl
@[simp] theorem regAdd_lt (o n : Nat) : (regAdd o n s).lt = s.lt := rfl
@[simp] theorem regAdd_cal (o n : Nat) : (regAdd o n s).cal = s.cal := rfl
@[simp] theorem regAdd_strobes (o n : Nat) : (regAdd o n s).strobes = s.strobes := rfl
@[simp] theorem regAdd_ports (o n : Nat) : (regAdd o n s).ports = s.ports := rfl
@[simp] theorem regAdd_streams (o n : Nat) : (regAdd o n s).streams = s.streams := rfl
@[simp] theorem regAdd_cols (o n : Nat) : (regAdd o n s).cols = s.cols := rfl
@[simp] theorem regAdd_mem (o n : Nat) : (regAdd o n s).mem = s.mem := rfl
@[simp] theorem regAdd_ecc (o n : Nat) : (regAdd o n s).ecc = s.ecc := rfl
@[simp] theorem regAdd_groups (o n : Nat) : (regAdd o n s).groups = s.groups := rfl
@[simp] theorem regAdd_autowake (o n : Nat) : (regAdd o n s).autowake = s.autowake := rfl
@[simp] theorem regAdd_bankMap (o n : Nat) : (regAdd o n s).bankMap = s.bankMap := rfl
@[simp] theorem regAdd_bankOut (o n : Nat) : (regAdd o n s).bankOut = s.bankOut := rfl
@[simp] theorem regAdd_copy (o n : Nat) : (regAdd o n s).copy = s.copy := rfl
@[simp] theorem regAdd_limp (o n : Nat) : (regAdd o n s).limp = s.limp := rfl
@[simp] theorem regAdd_handles (o n : Nat) : (regAdd o n s).handles = s.handles := rfl
@[simp] theorem regAdd_reloc (o n : Nat) : (regAdd o n s).reloc = s.reloc := rfl
@[simp] theorem regAdd_sems (o n : Nat) : (regAdd o n s).sems = s.sems := rfl
@[simp] theorem regAdd_arrivals (o n : Nat) : (regAdd o n s).arrivals = s.arrivals := rfl
@[simp] theorem regAdd_rings (o n : Nat) : (regAdd o n s).rings = s.rings := rfl
@[simp] theorem regAdd_windows (o n : Nat) : (regAdd o n s).windows = s.windows := rfl
@[simp] theorem regAdd_tokens (o n : Nat) : (regAdd o n s).tokens = s.tokens := rfl
@[simp] theorem regAdd_lastRefill (o n : Nat) : (regAdd o n s).lastRefill = s.lastRefill := rfl
@[simp] theorem regAdd_cores (o n : Nat) : (regAdd o n s).cores = s.cores := rfl
@[simp] theorem regAdd_coreMap (o n : Nat) : (regAdd o n s).coreMap = s.coreMap := rfl
@[simp] theorem regAdd_near (o n : Nat) : (regAdd o n s).near = s.near := rfl
@[simp] theorem regAdd_nearEcc (o n : Nat) : (regAdd o n s).nearEcc = s.nearEcc := rfl
@[simp] theorem regAdd_accs (o n : Nat) : (regAdd o n s).accs = s.accs := rfl
@[simp] theorem regAdd_tcache (o n : Nat) : (regAdd o n s).tcache = s.tcache := rfl
@[simp] theorem regAdd_fcache (o n : Nat) : (regAdd o n s).fcache = s.fcache := rfl
@[simp] theorem regAdd_fills (o n : Nat) : (regAdd o n s).fills = s.fills := rfl
@[simp] theorem regAdd_held (o n : Nat) : (regAdd o n s).held = s.held := rfl
@[simp] theorem regAdd_useCount (o n : Nat) : (regAdd o n s).useCount = s.useCount := rfl
@[simp] theorem regAdd_fcBuffer (o n : Nat) : (regAdd o n s).fcBuffer = s.fcBuffer := rfl
@[simp] theorem regAdd_rangeOps (o n : Nat) : (regAdd o n s).rangeOps = s.rangeOps := rfl
@[simp] theorem regAdd_pinWin (o n : Nat) : (regAdd o n s).pinWin = s.pinWin := rfl
@[simp] theorem regAdd_pinNow (o n : Nat) : (regAdd o n s).pinNow = s.pinNow := rfl
@[simp] theorem regAdd_models (o n : Nat) : (regAdd o n s).models = s.models := rfl
@[simp] theorem regAdd_coreSets (o n : Nat) : (regAdd o n s).coreSets = s.coreSets := rfl
@[simp] theorem regAdd_sgroups (o n : Nat) : (regAdd o n s).sgroups = s.sgroups := rfl
@[simp] theorem regAdd_ops (o n : Nat) : (regAdd o n s).ops = s.ops := rfl
@[simp] theorem regAdd_opNext (o n : Nat) : (regAdd o n s).opNext = s.opNext := rfl
@[simp] theorem regAdd_dma (o n : Nat) : (regAdd o n s).dma = s.dma := rfl
@[simp] theorem regAdd_dmaBusy (o n : Nat) : (regAdd o n s).dmaBusy = s.dmaBusy := rfl
@[simp] theorem regAdd_harts (o n : Nat) : (regAdd o n s).harts = s.harts := rfl
@[simp] theorem regAdd_l2 (o n : Nat) : (regAdd o n s).l2 = s.l2 := rfl
@[simp] theorem regAdd_evOwner (o n : Nat) : (regAdd o n s).evOwner = s.evOwner := rfl
@[simp] theorem regAdd_mboxes (o n : Nat) : (regAdd o n s).mboxes = s.mboxes := rfl
@[simp] theorem regAdd_sup (o n : Nat) : (regAdd o n s).sup = s.sup := rfl
@[simp] theorem regAdd_flash (o n : Nat) : (regAdd o n s).flash = s.flash := rfl
@[simp] theorem regAdd_xk (o n : Nat) : (regAdd o n s).xk = s.xk := rfl
@[simp] theorem regAdd_pwr (o n : Nat) : (regAdd o n s).pwr = s.pwr := rfl
@[simp] theorem regAdd_jtag (o n : Nat) : (regAdd o n s).jtag = s.jtag := rfl

/-! ## regField -/

@[simp] theorem regField_pending (o lo n v : Nat) : (regField o lo n v s).pending = s.pending := rfl
@[simp] theorem regField_free (o lo n v : Nat) : (regField o lo n v s).free = s.free := rfl
@[simp] theorem regField_ts (o lo n v : Nat) : (regField o lo n v s).ts = s.ts := rfl
@[simp] theorem regField_latches (o lo n v : Nat) : (regField o lo n v s).latches = s.latches := rfl
@[simp] theorem regField_staging (o lo n v : Nat) : (regField o lo n v s).staging = s.staging := rfl
@[simp] theorem regField_replies (o lo n v : Nat) : (regField o lo n v s).replies = s.replies := rfl
@[simp] theorem regField_emitted (o lo n v : Nat) : (regField o lo n v s).emitted = s.emitted := rfl
@[simp] theorem regField_irqArmed (o lo n v : Nat) : (regField o lo n v s).irqArmed = s.irqArmed := rfl
@[simp] theorem regField_msix (o lo n v : Nat) : (regField o lo n v s).msix = s.msix := rfl
@[simp] theorem regField_pba (o lo n v : Nat) : (regField o lo n v s).pba = s.pba := rfl
@[simp] theorem regField_funcMask (o lo n v : Nat) : (regField o lo n v s).funcMask = s.funcMask := rfl
@[simp] theorem regField_tic (o lo n v : Nat) : (regField o lo n v s).tic = s.tic := rfl
@[simp] theorem regField_log (o lo n v : Nat) : (regField o lo n v s).log = s.log := rfl
@[simp] theorem regField_lastCe (o lo n v : Nat) : (regField o lo n v s).lastCe = s.lastCe := rfl
@[simp] theorem regField_lt (o lo n v : Nat) : (regField o lo n v s).lt = s.lt := rfl
@[simp] theorem regField_cal (o lo n v : Nat) : (regField o lo n v s).cal = s.cal := rfl
@[simp] theorem regField_strobes (o lo n v : Nat) : (regField o lo n v s).strobes = s.strobes := rfl
@[simp] theorem regField_ports (o lo n v : Nat) : (regField o lo n v s).ports = s.ports := rfl
@[simp] theorem regField_streams (o lo n v : Nat) : (regField o lo n v s).streams = s.streams := rfl
@[simp] theorem regField_cols (o lo n v : Nat) : (regField o lo n v s).cols = s.cols := rfl
@[simp] theorem regField_mem (o lo n v : Nat) : (regField o lo n v s).mem = s.mem := rfl
@[simp] theorem regField_ecc (o lo n v : Nat) : (regField o lo n v s).ecc = s.ecc := rfl
@[simp] theorem regField_groups (o lo n v : Nat) : (regField o lo n v s).groups = s.groups := rfl
@[simp] theorem regField_autowake (o lo n v : Nat) : (regField o lo n v s).autowake = s.autowake := rfl
@[simp] theorem regField_bankMap (o lo n v : Nat) : (regField o lo n v s).bankMap = s.bankMap := rfl
@[simp] theorem regField_bankOut (o lo n v : Nat) : (regField o lo n v s).bankOut = s.bankOut := rfl
@[simp] theorem regField_copy (o lo n v : Nat) : (regField o lo n v s).copy = s.copy := rfl
@[simp] theorem regField_limp (o lo n v : Nat) : (regField o lo n v s).limp = s.limp := rfl
@[simp] theorem regField_handles (o lo n v : Nat) : (regField o lo n v s).handles = s.handles := rfl
@[simp] theorem regField_reloc (o lo n v : Nat) : (regField o lo n v s).reloc = s.reloc := rfl
@[simp] theorem regField_sems (o lo n v : Nat) : (regField o lo n v s).sems = s.sems := rfl
@[simp] theorem regField_arrivals (o lo n v : Nat) : (regField o lo n v s).arrivals = s.arrivals := rfl
@[simp] theorem regField_rings (o lo n v : Nat) : (regField o lo n v s).rings = s.rings := rfl
@[simp] theorem regField_windows (o lo n v : Nat) : (regField o lo n v s).windows = s.windows := rfl
@[simp] theorem regField_tokens (o lo n v : Nat) : (regField o lo n v s).tokens = s.tokens := rfl
@[simp] theorem regField_lastRefill (o lo n v : Nat) : (regField o lo n v s).lastRefill = s.lastRefill := rfl
@[simp] theorem regField_cores (o lo n v : Nat) : (regField o lo n v s).cores = s.cores := rfl
@[simp] theorem regField_coreMap (o lo n v : Nat) : (regField o lo n v s).coreMap = s.coreMap := rfl
@[simp] theorem regField_near (o lo n v : Nat) : (regField o lo n v s).near = s.near := rfl
@[simp] theorem regField_nearEcc (o lo n v : Nat) : (regField o lo n v s).nearEcc = s.nearEcc := rfl
@[simp] theorem regField_accs (o lo n v : Nat) : (regField o lo n v s).accs = s.accs := rfl
@[simp] theorem regField_tcache (o lo n v : Nat) : (regField o lo n v s).tcache = s.tcache := rfl
@[simp] theorem regField_fcache (o lo n v : Nat) : (regField o lo n v s).fcache = s.fcache := rfl
@[simp] theorem regField_fills (o lo n v : Nat) : (regField o lo n v s).fills = s.fills := rfl
@[simp] theorem regField_held (o lo n v : Nat) : (regField o lo n v s).held = s.held := rfl
@[simp] theorem regField_useCount (o lo n v : Nat) : (regField o lo n v s).useCount = s.useCount := rfl
@[simp] theorem regField_fcBuffer (o lo n v : Nat) : (regField o lo n v s).fcBuffer = s.fcBuffer := rfl
@[simp] theorem regField_rangeOps (o lo n v : Nat) : (regField o lo n v s).rangeOps = s.rangeOps := rfl
@[simp] theorem regField_pinWin (o lo n v : Nat) : (regField o lo n v s).pinWin = s.pinWin := rfl
@[simp] theorem regField_pinNow (o lo n v : Nat) : (regField o lo n v s).pinNow = s.pinNow := rfl
@[simp] theorem regField_models (o lo n v : Nat) : (regField o lo n v s).models = s.models := rfl
@[simp] theorem regField_coreSets (o lo n v : Nat) : (regField o lo n v s).coreSets = s.coreSets := rfl
@[simp] theorem regField_sgroups (o lo n v : Nat) : (regField o lo n v s).sgroups = s.sgroups := rfl
@[simp] theorem regField_ops (o lo n v : Nat) : (regField o lo n v s).ops = s.ops := rfl
@[simp] theorem regField_opNext (o lo n v : Nat) : (regField o lo n v s).opNext = s.opNext := rfl
@[simp] theorem regField_dma (o lo n v : Nat) : (regField o lo n v s).dma = s.dma := rfl
@[simp] theorem regField_dmaBusy (o lo n v : Nat) : (regField o lo n v s).dmaBusy = s.dmaBusy := rfl
@[simp] theorem regField_harts (o lo n v : Nat) : (regField o lo n v s).harts = s.harts := rfl
@[simp] theorem regField_l2 (o lo n v : Nat) : (regField o lo n v s).l2 = s.l2 := rfl
@[simp] theorem regField_evOwner (o lo n v : Nat) : (regField o lo n v s).evOwner = s.evOwner := rfl
@[simp] theorem regField_mboxes (o lo n v : Nat) : (regField o lo n v s).mboxes = s.mboxes := rfl
@[simp] theorem regField_sup (o lo n v : Nat) : (regField o lo n v s).sup = s.sup := rfl
@[simp] theorem regField_flash (o lo n v : Nat) : (regField o lo n v s).flash = s.flash := rfl
@[simp] theorem regField_xk (o lo n v : Nat) : (regField o lo n v s).xk = s.xk := rfl
@[simp] theorem regField_pwr (o lo n v : Nat) : (regField o lo n v s).pwr = s.pwr := rfl
@[simp] theorem regField_jtag (o lo n v : Nat) : (regField o lo n v s).jtag = s.jtag := rfl

/-! ## freeStep -/

@[simp] theorem freeStep_pending : (freeStep s).pending = s.pending := rfl
@[simp] theorem freeStep_ts : (freeStep s).ts = s.ts := rfl
@[simp] theorem freeStep_regs : (freeStep s).regs = s.regs := rfl
@[simp] theorem freeStep_latches : (freeStep s).latches = s.latches := rfl
@[simp] theorem freeStep_staging : (freeStep s).staging = s.staging := rfl
@[simp] theorem freeStep_replies : (freeStep s).replies = s.replies := rfl
@[simp] theorem freeStep_emitted : (freeStep s).emitted = s.emitted := rfl
@[simp] theorem freeStep_irqArmed : (freeStep s).irqArmed = s.irqArmed := rfl
@[simp] theorem freeStep_msix : (freeStep s).msix = s.msix := rfl
@[simp] theorem freeStep_pba : (freeStep s).pba = s.pba := rfl
@[simp] theorem freeStep_funcMask : (freeStep s).funcMask = s.funcMask := rfl
@[simp] theorem freeStep_tic : (freeStep s).tic = s.tic := rfl
@[simp] theorem freeStep_log : (freeStep s).log = s.log := rfl
@[simp] theorem freeStep_lastCe : (freeStep s).lastCe = s.lastCe := rfl
@[simp] theorem freeStep_lt : (freeStep s).lt = s.lt := rfl
@[simp] theorem freeStep_cal : (freeStep s).cal = s.cal := rfl
@[simp] theorem freeStep_strobes : (freeStep s).strobes = s.strobes := rfl
@[simp] theorem freeStep_ports : (freeStep s).ports = s.ports := rfl
@[simp] theorem freeStep_streams : (freeStep s).streams = s.streams := rfl
@[simp] theorem freeStep_cols : (freeStep s).cols = s.cols := rfl
@[simp] theorem freeStep_mem : (freeStep s).mem = s.mem := rfl
@[simp] theorem freeStep_ecc : (freeStep s).ecc = s.ecc := rfl
@[simp] theorem freeStep_groups : (freeStep s).groups = s.groups := rfl
@[simp] theorem freeStep_autowake : (freeStep s).autowake = s.autowake := rfl
@[simp] theorem freeStep_bankMap : (freeStep s).bankMap = s.bankMap := rfl
@[simp] theorem freeStep_bankOut : (freeStep s).bankOut = s.bankOut := rfl
@[simp] theorem freeStep_copy : (freeStep s).copy = s.copy := rfl
@[simp] theorem freeStep_limp : (freeStep s).limp = s.limp := rfl
@[simp] theorem freeStep_handles : (freeStep s).handles = s.handles := rfl
@[simp] theorem freeStep_reloc : (freeStep s).reloc = s.reloc := rfl
@[simp] theorem freeStep_sems : (freeStep s).sems = s.sems := rfl
@[simp] theorem freeStep_arrivals : (freeStep s).arrivals = s.arrivals := rfl
@[simp] theorem freeStep_rings : (freeStep s).rings = s.rings := rfl
@[simp] theorem freeStep_windows : (freeStep s).windows = s.windows := rfl
@[simp] theorem freeStep_tokens : (freeStep s).tokens = s.tokens := rfl
@[simp] theorem freeStep_lastRefill : (freeStep s).lastRefill = s.lastRefill := rfl
@[simp] theorem freeStep_cores : (freeStep s).cores = s.cores := rfl
@[simp] theorem freeStep_coreMap : (freeStep s).coreMap = s.coreMap := rfl
@[simp] theorem freeStep_near : (freeStep s).near = s.near := rfl
@[simp] theorem freeStep_nearEcc : (freeStep s).nearEcc = s.nearEcc := rfl
@[simp] theorem freeStep_accs : (freeStep s).accs = s.accs := rfl
@[simp] theorem freeStep_tcache : (freeStep s).tcache = s.tcache := rfl
@[simp] theorem freeStep_fcache : (freeStep s).fcache = s.fcache := rfl
@[simp] theorem freeStep_fills : (freeStep s).fills = s.fills := rfl
@[simp] theorem freeStep_held : (freeStep s).held = s.held := rfl
@[simp] theorem freeStep_useCount : (freeStep s).useCount = s.useCount := rfl
@[simp] theorem freeStep_fcBuffer : (freeStep s).fcBuffer = s.fcBuffer := rfl
@[simp] theorem freeStep_rangeOps : (freeStep s).rangeOps = s.rangeOps := rfl
@[simp] theorem freeStep_pinWin : (freeStep s).pinWin = s.pinWin := rfl
@[simp] theorem freeStep_pinNow : (freeStep s).pinNow = s.pinNow := rfl
@[simp] theorem freeStep_models : (freeStep s).models = s.models := rfl
@[simp] theorem freeStep_coreSets : (freeStep s).coreSets = s.coreSets := rfl
@[simp] theorem freeStep_sgroups : (freeStep s).sgroups = s.sgroups := rfl
@[simp] theorem freeStep_ops : (freeStep s).ops = s.ops := rfl
@[simp] theorem freeStep_opNext : (freeStep s).opNext = s.opNext := rfl
@[simp] theorem freeStep_dma : (freeStep s).dma = s.dma := rfl
@[simp] theorem freeStep_dmaBusy : (freeStep s).dmaBusy = s.dmaBusy := rfl
@[simp] theorem freeStep_harts : (freeStep s).harts = s.harts := rfl
@[simp] theorem freeStep_l2 : (freeStep s).l2 = s.l2 := rfl
@[simp] theorem freeStep_evOwner : (freeStep s).evOwner = s.evOwner := rfl
@[simp] theorem freeStep_mboxes : (freeStep s).mboxes = s.mboxes := rfl
@[simp] theorem freeStep_sup : (freeStep s).sup = s.sup := rfl
@[simp] theorem freeStep_flash : (freeStep s).flash = s.flash := rfl
@[simp] theorem freeStep_xk : (freeStep s).xk = s.xk := rfl
@[simp] theorem freeStep_pwr : (freeStep s).pwr = s.pwr := rfl
@[simp] theorem freeStep_jtag : (freeStep s).jtag = s.jtag := rfl

/-! ## emit -/

@[simp] theorem emit_pending (e : Emit) : (emit e s).pending = s.pending := rfl
@[simp] theorem emit_free (e : Emit) : (emit e s).free = s.free := rfl
@[simp] theorem emit_ts (e : Emit) : (emit e s).ts = s.ts := rfl
@[simp] theorem emit_regs (e : Emit) : (emit e s).regs = s.regs := rfl
@[simp] theorem emit_latches (e : Emit) : (emit e s).latches = s.latches := rfl
@[simp] theorem emit_staging (e : Emit) : (emit e s).staging = s.staging := rfl
@[simp] theorem emit_replies (e : Emit) : (emit e s).replies = s.replies := rfl
@[simp] theorem emit_irqArmed (e : Emit) : (emit e s).irqArmed = s.irqArmed := rfl
@[simp] theorem emit_msix (e : Emit) : (emit e s).msix = s.msix := rfl
@[simp] theorem emit_pba (e : Emit) : (emit e s).pba = s.pba := rfl
@[simp] theorem emit_funcMask (e : Emit) : (emit e s).funcMask = s.funcMask := rfl
@[simp] theorem emit_tic (e : Emit) : (emit e s).tic = s.tic := rfl
@[simp] theorem emit_log (e : Emit) : (emit e s).log = s.log := rfl
@[simp] theorem emit_lastCe (e : Emit) : (emit e s).lastCe = s.lastCe := rfl
@[simp] theorem emit_lt (e : Emit) : (emit e s).lt = s.lt := rfl
@[simp] theorem emit_cal (e : Emit) : (emit e s).cal = s.cal := rfl
@[simp] theorem emit_strobes (e : Emit) : (emit e s).strobes = s.strobes := rfl
@[simp] theorem emit_ports (e : Emit) : (emit e s).ports = s.ports := rfl
@[simp] theorem emit_streams (e : Emit) : (emit e s).streams = s.streams := rfl
@[simp] theorem emit_cols (e : Emit) : (emit e s).cols = s.cols := rfl
@[simp] theorem emit_mem (e : Emit) : (emit e s).mem = s.mem := rfl
@[simp] theorem emit_ecc (e : Emit) : (emit e s).ecc = s.ecc := rfl
@[simp] theorem emit_groups (e : Emit) : (emit e s).groups = s.groups := rfl
@[simp] theorem emit_autowake (e : Emit) : (emit e s).autowake = s.autowake := rfl
@[simp] theorem emit_bankMap (e : Emit) : (emit e s).bankMap = s.bankMap := rfl
@[simp] theorem emit_bankOut (e : Emit) : (emit e s).bankOut = s.bankOut := rfl
@[simp] theorem emit_copy (e : Emit) : (emit e s).copy = s.copy := rfl
@[simp] theorem emit_limp (e : Emit) : (emit e s).limp = s.limp := rfl
@[simp] theorem emit_handles (e : Emit) : (emit e s).handles = s.handles := rfl
@[simp] theorem emit_reloc (e : Emit) : (emit e s).reloc = s.reloc := rfl
@[simp] theorem emit_sems (e : Emit) : (emit e s).sems = s.sems := rfl
@[simp] theorem emit_arrivals (e : Emit) : (emit e s).arrivals = s.arrivals := rfl
@[simp] theorem emit_rings (e : Emit) : (emit e s).rings = s.rings := rfl
@[simp] theorem emit_windows (e : Emit) : (emit e s).windows = s.windows := rfl
@[simp] theorem emit_tokens (e : Emit) : (emit e s).tokens = s.tokens := rfl
@[simp] theorem emit_lastRefill (e : Emit) : (emit e s).lastRefill = s.lastRefill := rfl
@[simp] theorem emit_cores (e : Emit) : (emit e s).cores = s.cores := rfl
@[simp] theorem emit_coreMap (e : Emit) : (emit e s).coreMap = s.coreMap := rfl
@[simp] theorem emit_near (e : Emit) : (emit e s).near = s.near := rfl
@[simp] theorem emit_nearEcc (e : Emit) : (emit e s).nearEcc = s.nearEcc := rfl
@[simp] theorem emit_accs (e : Emit) : (emit e s).accs = s.accs := rfl
@[simp] theorem emit_tcache (e : Emit) : (emit e s).tcache = s.tcache := rfl
@[simp] theorem emit_fcache (e : Emit) : (emit e s).fcache = s.fcache := rfl
@[simp] theorem emit_fills (e : Emit) : (emit e s).fills = s.fills := rfl
@[simp] theorem emit_held (e : Emit) : (emit e s).held = s.held := rfl
@[simp] theorem emit_useCount (e : Emit) : (emit e s).useCount = s.useCount := rfl
@[simp] theorem emit_fcBuffer (e : Emit) : (emit e s).fcBuffer = s.fcBuffer := rfl
@[simp] theorem emit_rangeOps (e : Emit) : (emit e s).rangeOps = s.rangeOps := rfl
@[simp] theorem emit_pinWin (e : Emit) : (emit e s).pinWin = s.pinWin := rfl
@[simp] theorem emit_pinNow (e : Emit) : (emit e s).pinNow = s.pinNow := rfl
@[simp] theorem emit_models (e : Emit) : (emit e s).models = s.models := rfl
@[simp] theorem emit_coreSets (e : Emit) : (emit e s).coreSets = s.coreSets := rfl
@[simp] theorem emit_sgroups (e : Emit) : (emit e s).sgroups = s.sgroups := rfl
@[simp] theorem emit_ops (e : Emit) : (emit e s).ops = s.ops := rfl
@[simp] theorem emit_opNext (e : Emit) : (emit e s).opNext = s.opNext := rfl
@[simp] theorem emit_dma (e : Emit) : (emit e s).dma = s.dma := rfl
@[simp] theorem emit_dmaBusy (e : Emit) : (emit e s).dmaBusy = s.dmaBusy := rfl
@[simp] theorem emit_harts (e : Emit) : (emit e s).harts = s.harts := rfl
@[simp] theorem emit_l2 (e : Emit) : (emit e s).l2 = s.l2 := rfl
@[simp] theorem emit_evOwner (e : Emit) : (emit e s).evOwner = s.evOwner := rfl
@[simp] theorem emit_mboxes (e : Emit) : (emit e s).mboxes = s.mboxes := rfl
@[simp] theorem emit_sup (e : Emit) : (emit e s).sup = s.sup := rfl
@[simp] theorem emit_flash (e : Emit) : (emit e s).flash = s.flash := rfl
@[simp] theorem emit_xk (e : Emit) : (emit e s).xk = s.xk := rfl
@[simp] theorem emit_pwr (e : Emit) : (emit e s).pwr = s.pwr := rfl
@[simp] theorem emit_jtag (e : Emit) : (emit e s).jtag = s.jtag := rfl

/-! ## reply -/

@[simp] theorem reply_pending (b : Nat) (r : Reply) : (reply b r s).pending = s.pending := rfl
@[simp] theorem reply_free (b : Nat) (r : Reply) : (reply b r s).free = s.free := rfl
@[simp] theorem reply_ts (b : Nat) (r : Reply) : (reply b r s).ts = s.ts := rfl
@[simp] theorem reply_regs (b : Nat) (r : Reply) : (reply b r s).regs = s.regs := rfl
@[simp] theorem reply_latches (b : Nat) (r : Reply) : (reply b r s).latches = s.latches := rfl
@[simp] theorem reply_staging (b : Nat) (r : Reply) : (reply b r s).staging = s.staging := rfl
@[simp] theorem reply_emitted (b : Nat) (r : Reply) : (reply b r s).emitted = s.emitted := rfl
@[simp] theorem reply_irqArmed (b : Nat) (r : Reply) : (reply b r s).irqArmed = s.irqArmed := rfl
@[simp] theorem reply_msix (b : Nat) (r : Reply) : (reply b r s).msix = s.msix := rfl
@[simp] theorem reply_pba (b : Nat) (r : Reply) : (reply b r s).pba = s.pba := rfl
@[simp] theorem reply_funcMask (b : Nat) (r : Reply) : (reply b r s).funcMask = s.funcMask := rfl
@[simp] theorem reply_tic (b : Nat) (r : Reply) : (reply b r s).tic = s.tic := rfl
@[simp] theorem reply_log (b : Nat) (r : Reply) : (reply b r s).log = s.log := rfl
@[simp] theorem reply_lastCe (b : Nat) (r : Reply) : (reply b r s).lastCe = s.lastCe := rfl
@[simp] theorem reply_lt (b : Nat) (r : Reply) : (reply b r s).lt = s.lt := rfl
@[simp] theorem reply_cal (b : Nat) (r : Reply) : (reply b r s).cal = s.cal := rfl
@[simp] theorem reply_strobes (b : Nat) (r : Reply) : (reply b r s).strobes = s.strobes := rfl
@[simp] theorem reply_ports (b : Nat) (r : Reply) : (reply b r s).ports = s.ports := rfl
@[simp] theorem reply_streams (b : Nat) (r : Reply) : (reply b r s).streams = s.streams := rfl
@[simp] theorem reply_cols (b : Nat) (r : Reply) : (reply b r s).cols = s.cols := rfl
@[simp] theorem reply_mem (b : Nat) (r : Reply) : (reply b r s).mem = s.mem := rfl
@[simp] theorem reply_ecc (b : Nat) (r : Reply) : (reply b r s).ecc = s.ecc := rfl
@[simp] theorem reply_groups (b : Nat) (r : Reply) : (reply b r s).groups = s.groups := rfl
@[simp] theorem reply_autowake (b : Nat) (r : Reply) : (reply b r s).autowake = s.autowake := rfl
@[simp] theorem reply_bankMap (b : Nat) (r : Reply) : (reply b r s).bankMap = s.bankMap := rfl
@[simp] theorem reply_bankOut (b : Nat) (r : Reply) : (reply b r s).bankOut = s.bankOut := rfl
@[simp] theorem reply_copy (b : Nat) (r : Reply) : (reply b r s).copy = s.copy := rfl
@[simp] theorem reply_limp (b : Nat) (r : Reply) : (reply b r s).limp = s.limp := rfl
@[simp] theorem reply_handles (b : Nat) (r : Reply) : (reply b r s).handles = s.handles := rfl
@[simp] theorem reply_reloc (b : Nat) (r : Reply) : (reply b r s).reloc = s.reloc := rfl
@[simp] theorem reply_sems (b : Nat) (r : Reply) : (reply b r s).sems = s.sems := rfl
@[simp] theorem reply_arrivals (b : Nat) (r : Reply) : (reply b r s).arrivals = s.arrivals := rfl
@[simp] theorem reply_rings (b : Nat) (r : Reply) : (reply b r s).rings = s.rings := rfl
@[simp] theorem reply_windows (b : Nat) (r : Reply) : (reply b r s).windows = s.windows := rfl
@[simp] theorem reply_tokens (b : Nat) (r : Reply) : (reply b r s).tokens = s.tokens := rfl
@[simp] theorem reply_lastRefill (b : Nat) (r : Reply) : (reply b r s).lastRefill = s.lastRefill := rfl
@[simp] theorem reply_cores (b : Nat) (r : Reply) : (reply b r s).cores = s.cores := rfl
@[simp] theorem reply_coreMap (b : Nat) (r : Reply) : (reply b r s).coreMap = s.coreMap := rfl
@[simp] theorem reply_near (b : Nat) (r : Reply) : (reply b r s).near = s.near := rfl
@[simp] theorem reply_nearEcc (b : Nat) (r : Reply) : (reply b r s).nearEcc = s.nearEcc := rfl
@[simp] theorem reply_accs (b : Nat) (r : Reply) : (reply b r s).accs = s.accs := rfl
@[simp] theorem reply_tcache (b : Nat) (r : Reply) : (reply b r s).tcache = s.tcache := rfl
@[simp] theorem reply_fcache (b : Nat) (r : Reply) : (reply b r s).fcache = s.fcache := rfl
@[simp] theorem reply_fills (b : Nat) (r : Reply) : (reply b r s).fills = s.fills := rfl
@[simp] theorem reply_held (b : Nat) (r : Reply) : (reply b r s).held = s.held := rfl
@[simp] theorem reply_useCount (b : Nat) (r : Reply) : (reply b r s).useCount = s.useCount := rfl
@[simp] theorem reply_fcBuffer (b : Nat) (r : Reply) : (reply b r s).fcBuffer = s.fcBuffer := rfl
@[simp] theorem reply_rangeOps (b : Nat) (r : Reply) : (reply b r s).rangeOps = s.rangeOps := rfl
@[simp] theorem reply_pinWin (b : Nat) (r : Reply) : (reply b r s).pinWin = s.pinWin := rfl
@[simp] theorem reply_pinNow (b : Nat) (r : Reply) : (reply b r s).pinNow = s.pinNow := rfl
@[simp] theorem reply_models (b : Nat) (r : Reply) : (reply b r s).models = s.models := rfl
@[simp] theorem reply_coreSets (b : Nat) (r : Reply) : (reply b r s).coreSets = s.coreSets := rfl
@[simp] theorem reply_sgroups (b : Nat) (r : Reply) : (reply b r s).sgroups = s.sgroups := rfl
@[simp] theorem reply_ops (b : Nat) (r : Reply) : (reply b r s).ops = s.ops := rfl
@[simp] theorem reply_opNext (b : Nat) (r : Reply) : (reply b r s).opNext = s.opNext := rfl
@[simp] theorem reply_dma (b : Nat) (r : Reply) : (reply b r s).dma = s.dma := rfl
@[simp] theorem reply_dmaBusy (b : Nat) (r : Reply) : (reply b r s).dmaBusy = s.dmaBusy := rfl
@[simp] theorem reply_harts (b : Nat) (r : Reply) : (reply b r s).harts = s.harts := rfl
@[simp] theorem reply_l2 (b : Nat) (r : Reply) : (reply b r s).l2 = s.l2 := rfl
@[simp] theorem reply_evOwner (b : Nat) (r : Reply) : (reply b r s).evOwner = s.evOwner := rfl
@[simp] theorem reply_mboxes (b : Nat) (r : Reply) : (reply b r s).mboxes = s.mboxes := rfl
@[simp] theorem reply_sup (b : Nat) (r : Reply) : (reply b r s).sup = s.sup := rfl
@[simp] theorem reply_flash (b : Nat) (r : Reply) : (reply b r s).flash = s.flash := rfl
@[simp] theorem reply_xk (b : Nat) (r : Reply) : (reply b r s).xk = s.xk := rfl
@[simp] theorem reply_pwr (b : Nat) (r : Reply) : (reply b r s).pwr = s.pwr := rfl
@[simp] theorem reply_jtag (b : Nat) (r : Reply) : (reply b r s).jtag = s.jtag := rfl

/-! ## tsTo -/

@[simp] theorem tsTo_pending (t : Nat) : (tsTo t s).pending = s.pending := rfl
@[simp] theorem tsTo_free (t : Nat) : (tsTo t s).free = s.free := rfl
@[simp] theorem tsTo_regs (t : Nat) : (tsTo t s).regs = s.regs := rfl
@[simp] theorem tsTo_latches (t : Nat) : (tsTo t s).latches = s.latches := rfl
@[simp] theorem tsTo_staging (t : Nat) : (tsTo t s).staging = s.staging := rfl
@[simp] theorem tsTo_replies (t : Nat) : (tsTo t s).replies = s.replies := rfl
@[simp] theorem tsTo_emitted (t : Nat) : (tsTo t s).emitted = s.emitted := rfl
@[simp] theorem tsTo_irqArmed (t : Nat) : (tsTo t s).irqArmed = s.irqArmed := rfl
@[simp] theorem tsTo_msix (t : Nat) : (tsTo t s).msix = s.msix := rfl
@[simp] theorem tsTo_pba (t : Nat) : (tsTo t s).pba = s.pba := rfl
@[simp] theorem tsTo_funcMask (t : Nat) : (tsTo t s).funcMask = s.funcMask := rfl
@[simp] theorem tsTo_tic (t : Nat) : (tsTo t s).tic = s.tic := rfl
@[simp] theorem tsTo_log (t : Nat) : (tsTo t s).log = s.log := rfl
@[simp] theorem tsTo_lastCe (t : Nat) : (tsTo t s).lastCe = s.lastCe := rfl
@[simp] theorem tsTo_lt (t : Nat) : (tsTo t s).lt = s.lt := rfl
@[simp] theorem tsTo_cal (t : Nat) : (tsTo t s).cal = s.cal := rfl
@[simp] theorem tsTo_strobes (t : Nat) : (tsTo t s).strobes = s.strobes := rfl
@[simp] theorem tsTo_ports (t : Nat) : (tsTo t s).ports = s.ports := rfl
@[simp] theorem tsTo_streams (t : Nat) : (tsTo t s).streams = s.streams := rfl
@[simp] theorem tsTo_cols (t : Nat) : (tsTo t s).cols = s.cols := rfl
@[simp] theorem tsTo_mem (t : Nat) : (tsTo t s).mem = s.mem := rfl
@[simp] theorem tsTo_ecc (t : Nat) : (tsTo t s).ecc = s.ecc := rfl
@[simp] theorem tsTo_groups (t : Nat) : (tsTo t s).groups = s.groups := rfl
@[simp] theorem tsTo_autowake (t : Nat) : (tsTo t s).autowake = s.autowake := rfl
@[simp] theorem tsTo_bankMap (t : Nat) : (tsTo t s).bankMap = s.bankMap := rfl
@[simp] theorem tsTo_bankOut (t : Nat) : (tsTo t s).bankOut = s.bankOut := rfl
@[simp] theorem tsTo_copy (t : Nat) : (tsTo t s).copy = s.copy := rfl
@[simp] theorem tsTo_limp (t : Nat) : (tsTo t s).limp = s.limp := rfl
@[simp] theorem tsTo_handles (t : Nat) : (tsTo t s).handles = s.handles := rfl
@[simp] theorem tsTo_reloc (t : Nat) : (tsTo t s).reloc = s.reloc := rfl
@[simp] theorem tsTo_sems (t : Nat) : (tsTo t s).sems = s.sems := rfl
@[simp] theorem tsTo_arrivals (t : Nat) : (tsTo t s).arrivals = s.arrivals := rfl
@[simp] theorem tsTo_rings (t : Nat) : (tsTo t s).rings = s.rings := rfl
@[simp] theorem tsTo_windows (t : Nat) : (tsTo t s).windows = s.windows := rfl
@[simp] theorem tsTo_tokens (t : Nat) : (tsTo t s).tokens = s.tokens := rfl
@[simp] theorem tsTo_lastRefill (t : Nat) : (tsTo t s).lastRefill = s.lastRefill := rfl
@[simp] theorem tsTo_cores (t : Nat) : (tsTo t s).cores = s.cores := rfl
@[simp] theorem tsTo_coreMap (t : Nat) : (tsTo t s).coreMap = s.coreMap := rfl
@[simp] theorem tsTo_near (t : Nat) : (tsTo t s).near = s.near := rfl
@[simp] theorem tsTo_nearEcc (t : Nat) : (tsTo t s).nearEcc = s.nearEcc := rfl
@[simp] theorem tsTo_accs (t : Nat) : (tsTo t s).accs = s.accs := rfl
@[simp] theorem tsTo_tcache (t : Nat) : (tsTo t s).tcache = s.tcache := rfl
@[simp] theorem tsTo_fcache (t : Nat) : (tsTo t s).fcache = s.fcache := rfl
@[simp] theorem tsTo_fills (t : Nat) : (tsTo t s).fills = s.fills := rfl
@[simp] theorem tsTo_held (t : Nat) : (tsTo t s).held = s.held := rfl
@[simp] theorem tsTo_useCount (t : Nat) : (tsTo t s).useCount = s.useCount := rfl
@[simp] theorem tsTo_fcBuffer (t : Nat) : (tsTo t s).fcBuffer = s.fcBuffer := rfl
@[simp] theorem tsTo_rangeOps (t : Nat) : (tsTo t s).rangeOps = s.rangeOps := rfl
@[simp] theorem tsTo_pinWin (t : Nat) : (tsTo t s).pinWin = s.pinWin := rfl
@[simp] theorem tsTo_pinNow (t : Nat) : (tsTo t s).pinNow = s.pinNow := rfl
@[simp] theorem tsTo_models (t : Nat) : (tsTo t s).models = s.models := rfl
@[simp] theorem tsTo_coreSets (t : Nat) : (tsTo t s).coreSets = s.coreSets := rfl
@[simp] theorem tsTo_sgroups (t : Nat) : (tsTo t s).sgroups = s.sgroups := rfl
@[simp] theorem tsTo_ops (t : Nat) : (tsTo t s).ops = s.ops := rfl
@[simp] theorem tsTo_opNext (t : Nat) : (tsTo t s).opNext = s.opNext := rfl
@[simp] theorem tsTo_dma (t : Nat) : (tsTo t s).dma = s.dma := rfl
@[simp] theorem tsTo_dmaBusy (t : Nat) : (tsTo t s).dmaBusy = s.dmaBusy := rfl
@[simp] theorem tsTo_harts (t : Nat) : (tsTo t s).harts = s.harts := rfl
@[simp] theorem tsTo_l2 (t : Nat) : (tsTo t s).l2 = s.l2 := rfl
@[simp] theorem tsTo_evOwner (t : Nat) : (tsTo t s).evOwner = s.evOwner := rfl
@[simp] theorem tsTo_mboxes (t : Nat) : (tsTo t s).mboxes = s.mboxes := rfl
@[simp] theorem tsTo_sup (t : Nat) : (tsTo t s).sup = s.sup := rfl
@[simp] theorem tsTo_flash (t : Nat) : (tsTo t s).flash = s.flash := rfl
@[simp] theorem tsTo_xk (t : Nat) : (tsTo t s).xk = s.xk := rfl
@[simp] theorem tsTo_pwr (t : Nat) : (tsTo t s).pwr = s.pwr := rfl
@[simp] theorem tsTo_jtag (t : Nat) : (tsTo t s).jtag = s.jtag := rfl

/-! ## dmaMod -/

@[simp] theorem dmaMod_pending (n : Nat) (f : DmaCh → DmaCh) : (dmaMod n f s).pending = s.pending := rfl
@[simp] theorem dmaMod_free (n : Nat) (f : DmaCh → DmaCh) : (dmaMod n f s).free = s.free := rfl
@[simp] theorem dmaMod_ts (n : Nat) (f : DmaCh → DmaCh) : (dmaMod n f s).ts = s.ts := rfl
@[simp] theorem dmaMod_regs (n : Nat) (f : DmaCh → DmaCh) : (dmaMod n f s).regs = s.regs := rfl
@[simp] theorem dmaMod_latches (n : Nat) (f : DmaCh → DmaCh) : (dmaMod n f s).latches = s.latches := rfl
@[simp] theorem dmaMod_staging (n : Nat) (f : DmaCh → DmaCh) : (dmaMod n f s).staging = s.staging := rfl
@[simp] theorem dmaMod_replies (n : Nat) (f : DmaCh → DmaCh) : (dmaMod n f s).replies = s.replies := rfl
@[simp] theorem dmaMod_emitted (n : Nat) (f : DmaCh → DmaCh) : (dmaMod n f s).emitted = s.emitted := rfl
@[simp] theorem dmaMod_irqArmed (n : Nat) (f : DmaCh → DmaCh) : (dmaMod n f s).irqArmed = s.irqArmed := rfl
@[simp] theorem dmaMod_msix (n : Nat) (f : DmaCh → DmaCh) : (dmaMod n f s).msix = s.msix := rfl
@[simp] theorem dmaMod_pba (n : Nat) (f : DmaCh → DmaCh) : (dmaMod n f s).pba = s.pba := rfl
@[simp] theorem dmaMod_funcMask (n : Nat) (f : DmaCh → DmaCh) : (dmaMod n f s).funcMask = s.funcMask := rfl
@[simp] theorem dmaMod_tic (n : Nat) (f : DmaCh → DmaCh) : (dmaMod n f s).tic = s.tic := rfl
@[simp] theorem dmaMod_log (n : Nat) (f : DmaCh → DmaCh) : (dmaMod n f s).log = s.log := rfl
@[simp] theorem dmaMod_lastCe (n : Nat) (f : DmaCh → DmaCh) : (dmaMod n f s).lastCe = s.lastCe := rfl
@[simp] theorem dmaMod_lt (n : Nat) (f : DmaCh → DmaCh) : (dmaMod n f s).lt = s.lt := rfl
@[simp] theorem dmaMod_cal (n : Nat) (f : DmaCh → DmaCh) : (dmaMod n f s).cal = s.cal := rfl
@[simp] theorem dmaMod_strobes (n : Nat) (f : DmaCh → DmaCh) : (dmaMod n f s).strobes = s.strobes := rfl
@[simp] theorem dmaMod_ports (n : Nat) (f : DmaCh → DmaCh) : (dmaMod n f s).ports = s.ports := rfl
@[simp] theorem dmaMod_streams (n : Nat) (f : DmaCh → DmaCh) : (dmaMod n f s).streams = s.streams := rfl
@[simp] theorem dmaMod_cols (n : Nat) (f : DmaCh → DmaCh) : (dmaMod n f s).cols = s.cols := rfl
@[simp] theorem dmaMod_mem (n : Nat) (f : DmaCh → DmaCh) : (dmaMod n f s).mem = s.mem := rfl
@[simp] theorem dmaMod_ecc (n : Nat) (f : DmaCh → DmaCh) : (dmaMod n f s).ecc = s.ecc := rfl
@[simp] theorem dmaMod_groups (n : Nat) (f : DmaCh → DmaCh) : (dmaMod n f s).groups = s.groups := rfl
@[simp] theorem dmaMod_autowake (n : Nat) (f : DmaCh → DmaCh) : (dmaMod n f s).autowake = s.autowake := rfl
@[simp] theorem dmaMod_bankMap (n : Nat) (f : DmaCh → DmaCh) : (dmaMod n f s).bankMap = s.bankMap := rfl
@[simp] theorem dmaMod_bankOut (n : Nat) (f : DmaCh → DmaCh) : (dmaMod n f s).bankOut = s.bankOut := rfl
@[simp] theorem dmaMod_copy (n : Nat) (f : DmaCh → DmaCh) : (dmaMod n f s).copy = s.copy := rfl
@[simp] theorem dmaMod_limp (n : Nat) (f : DmaCh → DmaCh) : (dmaMod n f s).limp = s.limp := rfl
@[simp] theorem dmaMod_handles (n : Nat) (f : DmaCh → DmaCh) : (dmaMod n f s).handles = s.handles := rfl
@[simp] theorem dmaMod_reloc (n : Nat) (f : DmaCh → DmaCh) : (dmaMod n f s).reloc = s.reloc := rfl
@[simp] theorem dmaMod_sems (n : Nat) (f : DmaCh → DmaCh) : (dmaMod n f s).sems = s.sems := rfl
@[simp] theorem dmaMod_arrivals (n : Nat) (f : DmaCh → DmaCh) : (dmaMod n f s).arrivals = s.arrivals := rfl
@[simp] theorem dmaMod_rings (n : Nat) (f : DmaCh → DmaCh) : (dmaMod n f s).rings = s.rings := rfl
@[simp] theorem dmaMod_windows (n : Nat) (f : DmaCh → DmaCh) : (dmaMod n f s).windows = s.windows := rfl
@[simp] theorem dmaMod_tokens (n : Nat) (f : DmaCh → DmaCh) : (dmaMod n f s).tokens = s.tokens := rfl
@[simp] theorem dmaMod_lastRefill (n : Nat) (f : DmaCh → DmaCh) : (dmaMod n f s).lastRefill = s.lastRefill := rfl
@[simp] theorem dmaMod_cores (n : Nat) (f : DmaCh → DmaCh) : (dmaMod n f s).cores = s.cores := rfl
@[simp] theorem dmaMod_coreMap (n : Nat) (f : DmaCh → DmaCh) : (dmaMod n f s).coreMap = s.coreMap := rfl
@[simp] theorem dmaMod_near (n : Nat) (f : DmaCh → DmaCh) : (dmaMod n f s).near = s.near := rfl
@[simp] theorem dmaMod_nearEcc (n : Nat) (f : DmaCh → DmaCh) : (dmaMod n f s).nearEcc = s.nearEcc := rfl
@[simp] theorem dmaMod_accs (n : Nat) (f : DmaCh → DmaCh) : (dmaMod n f s).accs = s.accs := rfl
@[simp] theorem dmaMod_tcache (n : Nat) (f : DmaCh → DmaCh) : (dmaMod n f s).tcache = s.tcache := rfl
@[simp] theorem dmaMod_fcache (n : Nat) (f : DmaCh → DmaCh) : (dmaMod n f s).fcache = s.fcache := rfl
@[simp] theorem dmaMod_fills (n : Nat) (f : DmaCh → DmaCh) : (dmaMod n f s).fills = s.fills := rfl
@[simp] theorem dmaMod_held (n : Nat) (f : DmaCh → DmaCh) : (dmaMod n f s).held = s.held := rfl
@[simp] theorem dmaMod_useCount (n : Nat) (f : DmaCh → DmaCh) : (dmaMod n f s).useCount = s.useCount := rfl
@[simp] theorem dmaMod_fcBuffer (n : Nat) (f : DmaCh → DmaCh) : (dmaMod n f s).fcBuffer = s.fcBuffer := rfl
@[simp] theorem dmaMod_rangeOps (n : Nat) (f : DmaCh → DmaCh) : (dmaMod n f s).rangeOps = s.rangeOps := rfl
@[simp] theorem dmaMod_pinWin (n : Nat) (f : DmaCh → DmaCh) : (dmaMod n f s).pinWin = s.pinWin := rfl
@[simp] theorem dmaMod_pinNow (n : Nat) (f : DmaCh → DmaCh) : (dmaMod n f s).pinNow = s.pinNow := rfl
@[simp] theorem dmaMod_models (n : Nat) (f : DmaCh → DmaCh) : (dmaMod n f s).models = s.models := rfl
@[simp] theorem dmaMod_coreSets (n : Nat) (f : DmaCh → DmaCh) : (dmaMod n f s).coreSets = s.coreSets := rfl
@[simp] theorem dmaMod_sgroups (n : Nat) (f : DmaCh → DmaCh) : (dmaMod n f s).sgroups = s.sgroups := rfl
@[simp] theorem dmaMod_ops (n : Nat) (f : DmaCh → DmaCh) : (dmaMod n f s).ops = s.ops := rfl
@[simp] theorem dmaMod_opNext (n : Nat) (f : DmaCh → DmaCh) : (dmaMod n f s).opNext = s.opNext := rfl
@[simp] theorem dmaMod_dmaBusy (n : Nat) (f : DmaCh → DmaCh) : (dmaMod n f s).dmaBusy = s.dmaBusy := rfl
@[simp] theorem dmaMod_harts (n : Nat) (f : DmaCh → DmaCh) : (dmaMod n f s).harts = s.harts := rfl
@[simp] theorem dmaMod_l2 (n : Nat) (f : DmaCh → DmaCh) : (dmaMod n f s).l2 = s.l2 := rfl
@[simp] theorem dmaMod_evOwner (n : Nat) (f : DmaCh → DmaCh) : (dmaMod n f s).evOwner = s.evOwner := rfl
@[simp] theorem dmaMod_mboxes (n : Nat) (f : DmaCh → DmaCh) : (dmaMod n f s).mboxes = s.mboxes := rfl
@[simp] theorem dmaMod_sup (n : Nat) (f : DmaCh → DmaCh) : (dmaMod n f s).sup = s.sup := rfl
@[simp] theorem dmaMod_flash (n : Nat) (f : DmaCh → DmaCh) : (dmaMod n f s).flash = s.flash := rfl
@[simp] theorem dmaMod_xk (n : Nat) (f : DmaCh → DmaCh) : (dmaMod n f s).xk = s.xk := rfl
@[simp] theorem dmaMod_pwr (n : Nat) (f : DmaCh → DmaCh) : (dmaMod n f s).pwr = s.pwr := rfl
@[simp] theorem dmaMod_jtag (n : Nat) (f : DmaCh → DmaCh) : (dmaMod n f s).jtag = s.jtag := rfl

/-! ## hartPut -/

@[simp] theorem hartPut_pending (i : Nat) (h : Hart) : (hartPut i h s).pending = s.pending := rfl
@[simp] theorem hartPut_free (i : Nat) (h : Hart) : (hartPut i h s).free = s.free := rfl
@[simp] theorem hartPut_ts (i : Nat) (h : Hart) : (hartPut i h s).ts = s.ts := rfl
@[simp] theorem hartPut_regs (i : Nat) (h : Hart) : (hartPut i h s).regs = s.regs := rfl
@[simp] theorem hartPut_latches (i : Nat) (h : Hart) : (hartPut i h s).latches = s.latches := rfl
@[simp] theorem hartPut_staging (i : Nat) (h : Hart) : (hartPut i h s).staging = s.staging := rfl
@[simp] theorem hartPut_replies (i : Nat) (h : Hart) : (hartPut i h s).replies = s.replies := rfl
@[simp] theorem hartPut_emitted (i : Nat) (h : Hart) : (hartPut i h s).emitted = s.emitted := rfl
@[simp] theorem hartPut_irqArmed (i : Nat) (h : Hart) : (hartPut i h s).irqArmed = s.irqArmed := rfl
@[simp] theorem hartPut_msix (i : Nat) (h : Hart) : (hartPut i h s).msix = s.msix := rfl
@[simp] theorem hartPut_pba (i : Nat) (h : Hart) : (hartPut i h s).pba = s.pba := rfl
@[simp] theorem hartPut_funcMask (i : Nat) (h : Hart) : (hartPut i h s).funcMask = s.funcMask := rfl
@[simp] theorem hartPut_tic (i : Nat) (h : Hart) : (hartPut i h s).tic = s.tic := rfl
@[simp] theorem hartPut_log (i : Nat) (h : Hart) : (hartPut i h s).log = s.log := rfl
@[simp] theorem hartPut_lastCe (i : Nat) (h : Hart) : (hartPut i h s).lastCe = s.lastCe := rfl
@[simp] theorem hartPut_lt (i : Nat) (h : Hart) : (hartPut i h s).lt = s.lt := rfl
@[simp] theorem hartPut_cal (i : Nat) (h : Hart) : (hartPut i h s).cal = s.cal := rfl
@[simp] theorem hartPut_strobes (i : Nat) (h : Hart) : (hartPut i h s).strobes = s.strobes := rfl
@[simp] theorem hartPut_ports (i : Nat) (h : Hart) : (hartPut i h s).ports = s.ports := rfl
@[simp] theorem hartPut_streams (i : Nat) (h : Hart) : (hartPut i h s).streams = s.streams := rfl
@[simp] theorem hartPut_cols (i : Nat) (h : Hart) : (hartPut i h s).cols = s.cols := rfl
@[simp] theorem hartPut_mem (i : Nat) (h : Hart) : (hartPut i h s).mem = s.mem := rfl
@[simp] theorem hartPut_ecc (i : Nat) (h : Hart) : (hartPut i h s).ecc = s.ecc := rfl
@[simp] theorem hartPut_groups (i : Nat) (h : Hart) : (hartPut i h s).groups = s.groups := rfl
@[simp] theorem hartPut_autowake (i : Nat) (h : Hart) : (hartPut i h s).autowake = s.autowake := rfl
@[simp] theorem hartPut_bankMap (i : Nat) (h : Hart) : (hartPut i h s).bankMap = s.bankMap := rfl
@[simp] theorem hartPut_bankOut (i : Nat) (h : Hart) : (hartPut i h s).bankOut = s.bankOut := rfl
@[simp] theorem hartPut_copy (i : Nat) (h : Hart) : (hartPut i h s).copy = s.copy := rfl
@[simp] theorem hartPut_limp (i : Nat) (h : Hart) : (hartPut i h s).limp = s.limp := rfl
@[simp] theorem hartPut_handles (i : Nat) (h : Hart) : (hartPut i h s).handles = s.handles := rfl
@[simp] theorem hartPut_reloc (i : Nat) (h : Hart) : (hartPut i h s).reloc = s.reloc := rfl
@[simp] theorem hartPut_sems (i : Nat) (h : Hart) : (hartPut i h s).sems = s.sems := rfl
@[simp] theorem hartPut_arrivals (i : Nat) (h : Hart) : (hartPut i h s).arrivals = s.arrivals := rfl
@[simp] theorem hartPut_rings (i : Nat) (h : Hart) : (hartPut i h s).rings = s.rings := rfl
@[simp] theorem hartPut_windows (i : Nat) (h : Hart) : (hartPut i h s).windows = s.windows := rfl
@[simp] theorem hartPut_tokens (i : Nat) (h : Hart) : (hartPut i h s).tokens = s.tokens := rfl
@[simp] theorem hartPut_lastRefill (i : Nat) (h : Hart) : (hartPut i h s).lastRefill = s.lastRefill := rfl
@[simp] theorem hartPut_cores (i : Nat) (h : Hart) : (hartPut i h s).cores = s.cores := rfl
@[simp] theorem hartPut_coreMap (i : Nat) (h : Hart) : (hartPut i h s).coreMap = s.coreMap := rfl
@[simp] theorem hartPut_near (i : Nat) (h : Hart) : (hartPut i h s).near = s.near := rfl
@[simp] theorem hartPut_nearEcc (i : Nat) (h : Hart) : (hartPut i h s).nearEcc = s.nearEcc := rfl
@[simp] theorem hartPut_accs (i : Nat) (h : Hart) : (hartPut i h s).accs = s.accs := rfl
@[simp] theorem hartPut_tcache (i : Nat) (h : Hart) : (hartPut i h s).tcache = s.tcache := rfl
@[simp] theorem hartPut_fcache (i : Nat) (h : Hart) : (hartPut i h s).fcache = s.fcache := rfl
@[simp] theorem hartPut_fills (i : Nat) (h : Hart) : (hartPut i h s).fills = s.fills := rfl
@[simp] theorem hartPut_held (i : Nat) (h : Hart) : (hartPut i h s).held = s.held := rfl
@[simp] theorem hartPut_useCount (i : Nat) (h : Hart) : (hartPut i h s).useCount = s.useCount := rfl
@[simp] theorem hartPut_fcBuffer (i : Nat) (h : Hart) : (hartPut i h s).fcBuffer = s.fcBuffer := rfl
@[simp] theorem hartPut_rangeOps (i : Nat) (h : Hart) : (hartPut i h s).rangeOps = s.rangeOps := rfl
@[simp] theorem hartPut_pinWin (i : Nat) (h : Hart) : (hartPut i h s).pinWin = s.pinWin := rfl
@[simp] theorem hartPut_pinNow (i : Nat) (h : Hart) : (hartPut i h s).pinNow = s.pinNow := rfl
@[simp] theorem hartPut_models (i : Nat) (h : Hart) : (hartPut i h s).models = s.models := rfl
@[simp] theorem hartPut_coreSets (i : Nat) (h : Hart) : (hartPut i h s).coreSets = s.coreSets := rfl
@[simp] theorem hartPut_sgroups (i : Nat) (h : Hart) : (hartPut i h s).sgroups = s.sgroups := rfl
@[simp] theorem hartPut_ops (i : Nat) (h : Hart) : (hartPut i h s).ops = s.ops := rfl
@[simp] theorem hartPut_opNext (i : Nat) (h : Hart) : (hartPut i h s).opNext = s.opNext := rfl
@[simp] theorem hartPut_dma (i : Nat) (h : Hart) : (hartPut i h s).dma = s.dma := rfl
@[simp] theorem hartPut_dmaBusy (i : Nat) (h : Hart) : (hartPut i h s).dmaBusy = s.dmaBusy := rfl
@[simp] theorem hartPut_l2 (i : Nat) (h : Hart) : (hartPut i h s).l2 = s.l2 := rfl
@[simp] theorem hartPut_evOwner (i : Nat) (h : Hart) : (hartPut i h s).evOwner = s.evOwner := rfl
@[simp] theorem hartPut_mboxes (i : Nat) (h : Hart) : (hartPut i h s).mboxes = s.mboxes := rfl
@[simp] theorem hartPut_sup (i : Nat) (h : Hart) : (hartPut i h s).sup = s.sup := rfl
@[simp] theorem hartPut_flash (i : Nat) (h : Hart) : (hartPut i h s).flash = s.flash := rfl
@[simp] theorem hartPut_xk (i : Nat) (h : Hart) : (hartPut i h s).xk = s.xk := rfl
@[simp] theorem hartPut_pwr (i : Nat) (h : Hart) : (hartPut i h s).pwr = s.pwr := rfl
@[simp] theorem hartPut_jtag (i : Nat) (h : Hart) : (hartPut i h s).jtag = s.jtag := rfl

/-! ## hartMod -/

@[simp] theorem hartMod_pending (i : Nat) (f : Hart → Hart) : (hartMod i f s).pending = s.pending := rfl
@[simp] theorem hartMod_free (i : Nat) (f : Hart → Hart) : (hartMod i f s).free = s.free := rfl
@[simp] theorem hartMod_ts (i : Nat) (f : Hart → Hart) : (hartMod i f s).ts = s.ts := rfl
@[simp] theorem hartMod_regs (i : Nat) (f : Hart → Hart) : (hartMod i f s).regs = s.regs := rfl
@[simp] theorem hartMod_latches (i : Nat) (f : Hart → Hart) : (hartMod i f s).latches = s.latches := rfl
@[simp] theorem hartMod_staging (i : Nat) (f : Hart → Hart) : (hartMod i f s).staging = s.staging := rfl
@[simp] theorem hartMod_replies (i : Nat) (f : Hart → Hart) : (hartMod i f s).replies = s.replies := rfl
@[simp] theorem hartMod_emitted (i : Nat) (f : Hart → Hart) : (hartMod i f s).emitted = s.emitted := rfl
@[simp] theorem hartMod_irqArmed (i : Nat) (f : Hart → Hart) : (hartMod i f s).irqArmed = s.irqArmed := rfl
@[simp] theorem hartMod_msix (i : Nat) (f : Hart → Hart) : (hartMod i f s).msix = s.msix := rfl
@[simp] theorem hartMod_pba (i : Nat) (f : Hart → Hart) : (hartMod i f s).pba = s.pba := rfl
@[simp] theorem hartMod_funcMask (i : Nat) (f : Hart → Hart) : (hartMod i f s).funcMask = s.funcMask := rfl
@[simp] theorem hartMod_tic (i : Nat) (f : Hart → Hart) : (hartMod i f s).tic = s.tic := rfl
@[simp] theorem hartMod_log (i : Nat) (f : Hart → Hart) : (hartMod i f s).log = s.log := rfl
@[simp] theorem hartMod_lastCe (i : Nat) (f : Hart → Hart) : (hartMod i f s).lastCe = s.lastCe := rfl
@[simp] theorem hartMod_lt (i : Nat) (f : Hart → Hart) : (hartMod i f s).lt = s.lt := rfl
@[simp] theorem hartMod_cal (i : Nat) (f : Hart → Hart) : (hartMod i f s).cal = s.cal := rfl
@[simp] theorem hartMod_strobes (i : Nat) (f : Hart → Hart) : (hartMod i f s).strobes = s.strobes := rfl
@[simp] theorem hartMod_ports (i : Nat) (f : Hart → Hart) : (hartMod i f s).ports = s.ports := rfl
@[simp] theorem hartMod_streams (i : Nat) (f : Hart → Hart) : (hartMod i f s).streams = s.streams := rfl
@[simp] theorem hartMod_cols (i : Nat) (f : Hart → Hart) : (hartMod i f s).cols = s.cols := rfl
@[simp] theorem hartMod_mem (i : Nat) (f : Hart → Hart) : (hartMod i f s).mem = s.mem := rfl
@[simp] theorem hartMod_ecc (i : Nat) (f : Hart → Hart) : (hartMod i f s).ecc = s.ecc := rfl
@[simp] theorem hartMod_groups (i : Nat) (f : Hart → Hart) : (hartMod i f s).groups = s.groups := rfl
@[simp] theorem hartMod_autowake (i : Nat) (f : Hart → Hart) : (hartMod i f s).autowake = s.autowake := rfl
@[simp] theorem hartMod_bankMap (i : Nat) (f : Hart → Hart) : (hartMod i f s).bankMap = s.bankMap := rfl
@[simp] theorem hartMod_bankOut (i : Nat) (f : Hart → Hart) : (hartMod i f s).bankOut = s.bankOut := rfl
@[simp] theorem hartMod_copy (i : Nat) (f : Hart → Hart) : (hartMod i f s).copy = s.copy := rfl
@[simp] theorem hartMod_limp (i : Nat) (f : Hart → Hart) : (hartMod i f s).limp = s.limp := rfl
@[simp] theorem hartMod_handles (i : Nat) (f : Hart → Hart) : (hartMod i f s).handles = s.handles := rfl
@[simp] theorem hartMod_reloc (i : Nat) (f : Hart → Hart) : (hartMod i f s).reloc = s.reloc := rfl
@[simp] theorem hartMod_sems (i : Nat) (f : Hart → Hart) : (hartMod i f s).sems = s.sems := rfl
@[simp] theorem hartMod_arrivals (i : Nat) (f : Hart → Hart) : (hartMod i f s).arrivals = s.arrivals := rfl
@[simp] theorem hartMod_rings (i : Nat) (f : Hart → Hart) : (hartMod i f s).rings = s.rings := rfl
@[simp] theorem hartMod_windows (i : Nat) (f : Hart → Hart) : (hartMod i f s).windows = s.windows := rfl
@[simp] theorem hartMod_tokens (i : Nat) (f : Hart → Hart) : (hartMod i f s).tokens = s.tokens := rfl
@[simp] theorem hartMod_lastRefill (i : Nat) (f : Hart → Hart) : (hartMod i f s).lastRefill = s.lastRefill := rfl
@[simp] theorem hartMod_cores (i : Nat) (f : Hart → Hart) : (hartMod i f s).cores = s.cores := rfl
@[simp] theorem hartMod_coreMap (i : Nat) (f : Hart → Hart) : (hartMod i f s).coreMap = s.coreMap := rfl
@[simp] theorem hartMod_near (i : Nat) (f : Hart → Hart) : (hartMod i f s).near = s.near := rfl
@[simp] theorem hartMod_nearEcc (i : Nat) (f : Hart → Hart) : (hartMod i f s).nearEcc = s.nearEcc := rfl
@[simp] theorem hartMod_accs (i : Nat) (f : Hart → Hart) : (hartMod i f s).accs = s.accs := rfl
@[simp] theorem hartMod_tcache (i : Nat) (f : Hart → Hart) : (hartMod i f s).tcache = s.tcache := rfl
@[simp] theorem hartMod_fcache (i : Nat) (f : Hart → Hart) : (hartMod i f s).fcache = s.fcache := rfl
@[simp] theorem hartMod_fills (i : Nat) (f : Hart → Hart) : (hartMod i f s).fills = s.fills := rfl
@[simp] theorem hartMod_held (i : Nat) (f : Hart → Hart) : (hartMod i f s).held = s.held := rfl
@[simp] theorem hartMod_useCount (i : Nat) (f : Hart → Hart) : (hartMod i f s).useCount = s.useCount := rfl
@[simp] theorem hartMod_fcBuffer (i : Nat) (f : Hart → Hart) : (hartMod i f s).fcBuffer = s.fcBuffer := rfl
@[simp] theorem hartMod_rangeOps (i : Nat) (f : Hart → Hart) : (hartMod i f s).rangeOps = s.rangeOps := rfl
@[simp] theorem hartMod_pinWin (i : Nat) (f : Hart → Hart) : (hartMod i f s).pinWin = s.pinWin := rfl
@[simp] theorem hartMod_pinNow (i : Nat) (f : Hart → Hart) : (hartMod i f s).pinNow = s.pinNow := rfl
@[simp] theorem hartMod_models (i : Nat) (f : Hart → Hart) : (hartMod i f s).models = s.models := rfl
@[simp] theorem hartMod_coreSets (i : Nat) (f : Hart → Hart) : (hartMod i f s).coreSets = s.coreSets := rfl
@[simp] theorem hartMod_sgroups (i : Nat) (f : Hart → Hart) : (hartMod i f s).sgroups = s.sgroups := rfl
@[simp] theorem hartMod_ops (i : Nat) (f : Hart → Hart) : (hartMod i f s).ops = s.ops := rfl
@[simp] theorem hartMod_opNext (i : Nat) (f : Hart → Hart) : (hartMod i f s).opNext = s.opNext := rfl
@[simp] theorem hartMod_dma (i : Nat) (f : Hart → Hart) : (hartMod i f s).dma = s.dma := rfl
@[simp] theorem hartMod_dmaBusy (i : Nat) (f : Hart → Hart) : (hartMod i f s).dmaBusy = s.dmaBusy := rfl
@[simp] theorem hartMod_l2 (i : Nat) (f : Hart → Hart) : (hartMod i f s).l2 = s.l2 := rfl
@[simp] theorem hartMod_evOwner (i : Nat) (f : Hart → Hart) : (hartMod i f s).evOwner = s.evOwner := rfl
@[simp] theorem hartMod_mboxes (i : Nat) (f : Hart → Hart) : (hartMod i f s).mboxes = s.mboxes := rfl
@[simp] theorem hartMod_sup (i : Nat) (f : Hart → Hart) : (hartMod i f s).sup = s.sup := rfl
@[simp] theorem hartMod_flash (i : Nat) (f : Hart → Hart) : (hartMod i f s).flash = s.flash := rfl
@[simp] theorem hartMod_xk (i : Nat) (f : Hart → Hart) : (hartMod i f s).xk = s.xk := rfl
@[simp] theorem hartMod_pwr (i : Nat) (f : Hart → Hart) : (hartMod i f s).pwr = s.pwr := rfl
@[simp] theorem hartMod_jtag (i : Nat) (f : Hart → Hart) : (hartMod i f s).jtag = s.jtag := rfl

/-! ## trTo -/

@[simp] theorem trTo_pending (i : Nat) (x : TrState) : (trTo i x s).pending = s.pending := rfl
@[simp] theorem trTo_free (i : Nat) (x : TrState) : (trTo i x s).free = s.free := rfl
@[simp] theorem trTo_ts (i : Nat) (x : TrState) : (trTo i x s).ts = s.ts := rfl
@[simp] theorem trTo_regs (i : Nat) (x : TrState) : (trTo i x s).regs = s.regs := rfl
@[simp] theorem trTo_latches (i : Nat) (x : TrState) : (trTo i x s).latches = s.latches := rfl
@[simp] theorem trTo_staging (i : Nat) (x : TrState) : (trTo i x s).staging = s.staging := rfl
@[simp] theorem trTo_replies (i : Nat) (x : TrState) : (trTo i x s).replies = s.replies := rfl
@[simp] theorem trTo_emitted (i : Nat) (x : TrState) : (trTo i x s).emitted = s.emitted := rfl
@[simp] theorem trTo_irqArmed (i : Nat) (x : TrState) : (trTo i x s).irqArmed = s.irqArmed := rfl
@[simp] theorem trTo_msix (i : Nat) (x : TrState) : (trTo i x s).msix = s.msix := rfl
@[simp] theorem trTo_pba (i : Nat) (x : TrState) : (trTo i x s).pba = s.pba := rfl
@[simp] theorem trTo_funcMask (i : Nat) (x : TrState) : (trTo i x s).funcMask = s.funcMask := rfl
@[simp] theorem trTo_tic (i : Nat) (x : TrState) : (trTo i x s).tic = s.tic := rfl
@[simp] theorem trTo_log (i : Nat) (x : TrState) : (trTo i x s).log = s.log := rfl
@[simp] theorem trTo_lastCe (i : Nat) (x : TrState) : (trTo i x s).lastCe = s.lastCe := rfl
@[simp] theorem trTo_lt (i : Nat) (x : TrState) : (trTo i x s).lt = s.lt := rfl
@[simp] theorem trTo_cal (i : Nat) (x : TrState) : (trTo i x s).cal = s.cal := rfl
@[simp] theorem trTo_strobes (i : Nat) (x : TrState) : (trTo i x s).strobes = s.strobes := rfl
@[simp] theorem trTo_ports (i : Nat) (x : TrState) : (trTo i x s).ports = s.ports := rfl
@[simp] theorem trTo_streams (i : Nat) (x : TrState) : (trTo i x s).streams = s.streams := rfl
@[simp] theorem trTo_cols (i : Nat) (x : TrState) : (trTo i x s).cols = s.cols := rfl
@[simp] theorem trTo_mem (i : Nat) (x : TrState) : (trTo i x s).mem = s.mem := rfl
@[simp] theorem trTo_ecc (i : Nat) (x : TrState) : (trTo i x s).ecc = s.ecc := rfl
@[simp] theorem trTo_groups (i : Nat) (x : TrState) : (trTo i x s).groups = s.groups := rfl
@[simp] theorem trTo_autowake (i : Nat) (x : TrState) : (trTo i x s).autowake = s.autowake := rfl
@[simp] theorem trTo_bankMap (i : Nat) (x : TrState) : (trTo i x s).bankMap = s.bankMap := rfl
@[simp] theorem trTo_bankOut (i : Nat) (x : TrState) : (trTo i x s).bankOut = s.bankOut := rfl
@[simp] theorem trTo_copy (i : Nat) (x : TrState) : (trTo i x s).copy = s.copy := rfl
@[simp] theorem trTo_limp (i : Nat) (x : TrState) : (trTo i x s).limp = s.limp := rfl
@[simp] theorem trTo_handles (i : Nat) (x : TrState) : (trTo i x s).handles = s.handles := rfl
@[simp] theorem trTo_reloc (i : Nat) (x : TrState) : (trTo i x s).reloc = s.reloc := rfl
@[simp] theorem trTo_sems (i : Nat) (x : TrState) : (trTo i x s).sems = s.sems := rfl
@[simp] theorem trTo_arrivals (i : Nat) (x : TrState) : (trTo i x s).arrivals = s.arrivals := rfl
@[simp] theorem trTo_rings (i : Nat) (x : TrState) : (trTo i x s).rings = s.rings := rfl
@[simp] theorem trTo_windows (i : Nat) (x : TrState) : (trTo i x s).windows = s.windows := rfl
@[simp] theorem trTo_tokens (i : Nat) (x : TrState) : (trTo i x s).tokens = s.tokens := rfl
@[simp] theorem trTo_lastRefill (i : Nat) (x : TrState) : (trTo i x s).lastRefill = s.lastRefill := rfl
@[simp] theorem trTo_cores (i : Nat) (x : TrState) : (trTo i x s).cores = s.cores := rfl
@[simp] theorem trTo_coreMap (i : Nat) (x : TrState) : (trTo i x s).coreMap = s.coreMap := rfl
@[simp] theorem trTo_near (i : Nat) (x : TrState) : (trTo i x s).near = s.near := rfl
@[simp] theorem trTo_nearEcc (i : Nat) (x : TrState) : (trTo i x s).nearEcc = s.nearEcc := rfl
@[simp] theorem trTo_accs (i : Nat) (x : TrState) : (trTo i x s).accs = s.accs := rfl
@[simp] theorem trTo_tcache (i : Nat) (x : TrState) : (trTo i x s).tcache = s.tcache := rfl
@[simp] theorem trTo_fcache (i : Nat) (x : TrState) : (trTo i x s).fcache = s.fcache := rfl
@[simp] theorem trTo_fills (i : Nat) (x : TrState) : (trTo i x s).fills = s.fills := rfl
@[simp] theorem trTo_held (i : Nat) (x : TrState) : (trTo i x s).held = s.held := rfl
@[simp] theorem trTo_useCount (i : Nat) (x : TrState) : (trTo i x s).useCount = s.useCount := rfl
@[simp] theorem trTo_fcBuffer (i : Nat) (x : TrState) : (trTo i x s).fcBuffer = s.fcBuffer := rfl
@[simp] theorem trTo_rangeOps (i : Nat) (x : TrState) : (trTo i x s).rangeOps = s.rangeOps := rfl
@[simp] theorem trTo_pinWin (i : Nat) (x : TrState) : (trTo i x s).pinWin = s.pinWin := rfl
@[simp] theorem trTo_pinNow (i : Nat) (x : TrState) : (trTo i x s).pinNow = s.pinNow := rfl
@[simp] theorem trTo_models (i : Nat) (x : TrState) : (trTo i x s).models = s.models := rfl
@[simp] theorem trTo_coreSets (i : Nat) (x : TrState) : (trTo i x s).coreSets = s.coreSets := rfl
@[simp] theorem trTo_sgroups (i : Nat) (x : TrState) : (trTo i x s).sgroups = s.sgroups := rfl
@[simp] theorem trTo_ops (i : Nat) (x : TrState) : (trTo i x s).ops = s.ops := rfl
@[simp] theorem trTo_opNext (i : Nat) (x : TrState) : (trTo i x s).opNext = s.opNext := rfl
@[simp] theorem trTo_dma (i : Nat) (x : TrState) : (trTo i x s).dma = s.dma := rfl
@[simp] theorem trTo_dmaBusy (i : Nat) (x : TrState) : (trTo i x s).dmaBusy = s.dmaBusy := rfl
@[simp] theorem trTo_l2 (i : Nat) (x : TrState) : (trTo i x s).l2 = s.l2 := rfl
@[simp] theorem trTo_evOwner (i : Nat) (x : TrState) : (trTo i x s).evOwner = s.evOwner := rfl
@[simp] theorem trTo_mboxes (i : Nat) (x : TrState) : (trTo i x s).mboxes = s.mboxes := rfl
@[simp] theorem trTo_sup (i : Nat) (x : TrState) : (trTo i x s).sup = s.sup := rfl
@[simp] theorem trTo_flash (i : Nat) (x : TrState) : (trTo i x s).flash = s.flash := rfl
@[simp] theorem trTo_xk (i : Nat) (x : TrState) : (trTo i x s).xk = s.xk := rfl
@[simp] theorem trTo_pwr (i : Nat) (x : TrState) : (trTo i x s).pwr = s.pwr := rfl
@[simp] theorem trTo_jtag (i : Nat) (x : TrState) : (trTo i x s).jtag = s.jtag := rfl

/-! ## mbMod -/

@[simp] theorem mbMod_pending (n : Nat) (f : Mailbox → Mailbox) : (mbMod n f s).pending = s.pending := rfl
@[simp] theorem mbMod_free (n : Nat) (f : Mailbox → Mailbox) : (mbMod n f s).free = s.free := rfl
@[simp] theorem mbMod_ts (n : Nat) (f : Mailbox → Mailbox) : (mbMod n f s).ts = s.ts := rfl
@[simp] theorem mbMod_regs (n : Nat) (f : Mailbox → Mailbox) : (mbMod n f s).regs = s.regs := rfl
@[simp] theorem mbMod_latches (n : Nat) (f : Mailbox → Mailbox) : (mbMod n f s).latches = s.latches := rfl
@[simp] theorem mbMod_staging (n : Nat) (f : Mailbox → Mailbox) : (mbMod n f s).staging = s.staging := rfl
@[simp] theorem mbMod_replies (n : Nat) (f : Mailbox → Mailbox) : (mbMod n f s).replies = s.replies := rfl
@[simp] theorem mbMod_emitted (n : Nat) (f : Mailbox → Mailbox) : (mbMod n f s).emitted = s.emitted := rfl
@[simp] theorem mbMod_irqArmed (n : Nat) (f : Mailbox → Mailbox) : (mbMod n f s).irqArmed = s.irqArmed := rfl
@[simp] theorem mbMod_msix (n : Nat) (f : Mailbox → Mailbox) : (mbMod n f s).msix = s.msix := rfl
@[simp] theorem mbMod_pba (n : Nat) (f : Mailbox → Mailbox) : (mbMod n f s).pba = s.pba := rfl
@[simp] theorem mbMod_funcMask (n : Nat) (f : Mailbox → Mailbox) : (mbMod n f s).funcMask = s.funcMask := rfl
@[simp] theorem mbMod_tic (n : Nat) (f : Mailbox → Mailbox) : (mbMod n f s).tic = s.tic := rfl
@[simp] theorem mbMod_log (n : Nat) (f : Mailbox → Mailbox) : (mbMod n f s).log = s.log := rfl
@[simp] theorem mbMod_lastCe (n : Nat) (f : Mailbox → Mailbox) : (mbMod n f s).lastCe = s.lastCe := rfl
@[simp] theorem mbMod_lt (n : Nat) (f : Mailbox → Mailbox) : (mbMod n f s).lt = s.lt := rfl
@[simp] theorem mbMod_cal (n : Nat) (f : Mailbox → Mailbox) : (mbMod n f s).cal = s.cal := rfl
@[simp] theorem mbMod_strobes (n : Nat) (f : Mailbox → Mailbox) : (mbMod n f s).strobes = s.strobes := rfl
@[simp] theorem mbMod_ports (n : Nat) (f : Mailbox → Mailbox) : (mbMod n f s).ports = s.ports := rfl
@[simp] theorem mbMod_streams (n : Nat) (f : Mailbox → Mailbox) : (mbMod n f s).streams = s.streams := rfl
@[simp] theorem mbMod_cols (n : Nat) (f : Mailbox → Mailbox) : (mbMod n f s).cols = s.cols := rfl
@[simp] theorem mbMod_mem (n : Nat) (f : Mailbox → Mailbox) : (mbMod n f s).mem = s.mem := rfl
@[simp] theorem mbMod_ecc (n : Nat) (f : Mailbox → Mailbox) : (mbMod n f s).ecc = s.ecc := rfl
@[simp] theorem mbMod_groups (n : Nat) (f : Mailbox → Mailbox) : (mbMod n f s).groups = s.groups := rfl
@[simp] theorem mbMod_autowake (n : Nat) (f : Mailbox → Mailbox) : (mbMod n f s).autowake = s.autowake := rfl
@[simp] theorem mbMod_bankMap (n : Nat) (f : Mailbox → Mailbox) : (mbMod n f s).bankMap = s.bankMap := rfl
@[simp] theorem mbMod_bankOut (n : Nat) (f : Mailbox → Mailbox) : (mbMod n f s).bankOut = s.bankOut := rfl
@[simp] theorem mbMod_copy (n : Nat) (f : Mailbox → Mailbox) : (mbMod n f s).copy = s.copy := rfl
@[simp] theorem mbMod_limp (n : Nat) (f : Mailbox → Mailbox) : (mbMod n f s).limp = s.limp := rfl
@[simp] theorem mbMod_handles (n : Nat) (f : Mailbox → Mailbox) : (mbMod n f s).handles = s.handles := rfl
@[simp] theorem mbMod_reloc (n : Nat) (f : Mailbox → Mailbox) : (mbMod n f s).reloc = s.reloc := rfl
@[simp] theorem mbMod_sems (n : Nat) (f : Mailbox → Mailbox) : (mbMod n f s).sems = s.sems := rfl
@[simp] theorem mbMod_arrivals (n : Nat) (f : Mailbox → Mailbox) : (mbMod n f s).arrivals = s.arrivals := rfl
@[simp] theorem mbMod_rings (n : Nat) (f : Mailbox → Mailbox) : (mbMod n f s).rings = s.rings := rfl
@[simp] theorem mbMod_windows (n : Nat) (f : Mailbox → Mailbox) : (mbMod n f s).windows = s.windows := rfl
@[simp] theorem mbMod_tokens (n : Nat) (f : Mailbox → Mailbox) : (mbMod n f s).tokens = s.tokens := rfl
@[simp] theorem mbMod_lastRefill (n : Nat) (f : Mailbox → Mailbox) : (mbMod n f s).lastRefill = s.lastRefill := rfl
@[simp] theorem mbMod_cores (n : Nat) (f : Mailbox → Mailbox) : (mbMod n f s).cores = s.cores := rfl
@[simp] theorem mbMod_coreMap (n : Nat) (f : Mailbox → Mailbox) : (mbMod n f s).coreMap = s.coreMap := rfl
@[simp] theorem mbMod_near (n : Nat) (f : Mailbox → Mailbox) : (mbMod n f s).near = s.near := rfl
@[simp] theorem mbMod_nearEcc (n : Nat) (f : Mailbox → Mailbox) : (mbMod n f s).nearEcc = s.nearEcc := rfl
@[simp] theorem mbMod_accs (n : Nat) (f : Mailbox → Mailbox) : (mbMod n f s).accs = s.accs := rfl
@[simp] theorem mbMod_tcache (n : Nat) (f : Mailbox → Mailbox) : (mbMod n f s).tcache = s.tcache := rfl
@[simp] theorem mbMod_fcache (n : Nat) (f : Mailbox → Mailbox) : (mbMod n f s).fcache = s.fcache := rfl
@[simp] theorem mbMod_fills (n : Nat) (f : Mailbox → Mailbox) : (mbMod n f s).fills = s.fills := rfl
@[simp] theorem mbMod_held (n : Nat) (f : Mailbox → Mailbox) : (mbMod n f s).held = s.held := rfl
@[simp] theorem mbMod_useCount (n : Nat) (f : Mailbox → Mailbox) : (mbMod n f s).useCount = s.useCount := rfl
@[simp] theorem mbMod_fcBuffer (n : Nat) (f : Mailbox → Mailbox) : (mbMod n f s).fcBuffer = s.fcBuffer := rfl
@[simp] theorem mbMod_rangeOps (n : Nat) (f : Mailbox → Mailbox) : (mbMod n f s).rangeOps = s.rangeOps := rfl
@[simp] theorem mbMod_pinWin (n : Nat) (f : Mailbox → Mailbox) : (mbMod n f s).pinWin = s.pinWin := rfl
@[simp] theorem mbMod_pinNow (n : Nat) (f : Mailbox → Mailbox) : (mbMod n f s).pinNow = s.pinNow := rfl
@[simp] theorem mbMod_models (n : Nat) (f : Mailbox → Mailbox) : (mbMod n f s).models = s.models := rfl
@[simp] theorem mbMod_coreSets (n : Nat) (f : Mailbox → Mailbox) : (mbMod n f s).coreSets = s.coreSets := rfl
@[simp] theorem mbMod_sgroups (n : Nat) (f : Mailbox → Mailbox) : (mbMod n f s).sgroups = s.sgroups := rfl
@[simp] theorem mbMod_ops (n : Nat) (f : Mailbox → Mailbox) : (mbMod n f s).ops = s.ops := rfl
@[simp] theorem mbMod_opNext (n : Nat) (f : Mailbox → Mailbox) : (mbMod n f s).opNext = s.opNext := rfl
@[simp] theorem mbMod_dma (n : Nat) (f : Mailbox → Mailbox) : (mbMod n f s).dma = s.dma := rfl
@[simp] theorem mbMod_dmaBusy (n : Nat) (f : Mailbox → Mailbox) : (mbMod n f s).dmaBusy = s.dmaBusy := rfl
@[simp] theorem mbMod_harts (n : Nat) (f : Mailbox → Mailbox) : (mbMod n f s).harts = s.harts := rfl
@[simp] theorem mbMod_l2 (n : Nat) (f : Mailbox → Mailbox) : (mbMod n f s).l2 = s.l2 := rfl
@[simp] theorem mbMod_evOwner (n : Nat) (f : Mailbox → Mailbox) : (mbMod n f s).evOwner = s.evOwner := rfl
@[simp] theorem mbMod_sup (n : Nat) (f : Mailbox → Mailbox) : (mbMod n f s).sup = s.sup := rfl
@[simp] theorem mbMod_flash (n : Nat) (f : Mailbox → Mailbox) : (mbMod n f s).flash = s.flash := rfl
@[simp] theorem mbMod_xk (n : Nat) (f : Mailbox → Mailbox) : (mbMod n f s).xk = s.xk := rfl
@[simp] theorem mbMod_pwr (n : Nat) (f : Mailbox → Mailbox) : (mbMod n f s).pwr = s.pwr := rfl
@[simp] theorem mbMod_jtag (n : Nat) (f : Mailbox → Mailbox) : (mbMod n f s).jtag = s.jtag := rfl

/-! ## longDone -/

@[simp] theorem longDone_pending (sel : LongCmd → Bool) (st d : Nat) (r : List Byte) : (longDone sel st d r s).pending = s.pending := rfl
@[simp] theorem longDone_free (sel : LongCmd → Bool) (st d : Nat) (r : List Byte) : (longDone sel st d r s).free = s.free := rfl
@[simp] theorem longDone_ts (sel : LongCmd → Bool) (st d : Nat) (r : List Byte) : (longDone sel st d r s).ts = s.ts := rfl
@[simp] theorem longDone_regs (sel : LongCmd → Bool) (st d : Nat) (r : List Byte) : (longDone sel st d r s).regs = s.regs := rfl
@[simp] theorem longDone_latches (sel : LongCmd → Bool) (st d : Nat) (r : List Byte) : (longDone sel st d r s).latches = s.latches := rfl
@[simp] theorem longDone_staging (sel : LongCmd → Bool) (st d : Nat) (r : List Byte) : (longDone sel st d r s).staging = s.staging := rfl
@[simp] theorem longDone_replies (sel : LongCmd → Bool) (st d : Nat) (r : List Byte) : (longDone sel st d r s).replies = s.replies := rfl
@[simp] theorem longDone_emitted (sel : LongCmd → Bool) (st d : Nat) (r : List Byte) : (longDone sel st d r s).emitted = s.emitted := rfl
@[simp] theorem longDone_irqArmed (sel : LongCmd → Bool) (st d : Nat) (r : List Byte) : (longDone sel st d r s).irqArmed = s.irqArmed := rfl
@[simp] theorem longDone_msix (sel : LongCmd → Bool) (st d : Nat) (r : List Byte) : (longDone sel st d r s).msix = s.msix := rfl
@[simp] theorem longDone_pba (sel : LongCmd → Bool) (st d : Nat) (r : List Byte) : (longDone sel st d r s).pba = s.pba := rfl
@[simp] theorem longDone_funcMask (sel : LongCmd → Bool) (st d : Nat) (r : List Byte) : (longDone sel st d r s).funcMask = s.funcMask := rfl
@[simp] theorem longDone_tic (sel : LongCmd → Bool) (st d : Nat) (r : List Byte) : (longDone sel st d r s).tic = s.tic := rfl
@[simp] theorem longDone_log (sel : LongCmd → Bool) (st d : Nat) (r : List Byte) : (longDone sel st d r s).log = s.log := rfl
@[simp] theorem longDone_lastCe (sel : LongCmd → Bool) (st d : Nat) (r : List Byte) : (longDone sel st d r s).lastCe = s.lastCe := rfl
@[simp] theorem longDone_lt (sel : LongCmd → Bool) (st d : Nat) (r : List Byte) : (longDone sel st d r s).lt = s.lt := rfl
@[simp] theorem longDone_cal (sel : LongCmd → Bool) (st d : Nat) (r : List Byte) : (longDone sel st d r s).cal = s.cal := rfl
@[simp] theorem longDone_strobes (sel : LongCmd → Bool) (st d : Nat) (r : List Byte) : (longDone sel st d r s).strobes = s.strobes := rfl
@[simp] theorem longDone_ports (sel : LongCmd → Bool) (st d : Nat) (r : List Byte) : (longDone sel st d r s).ports = s.ports := rfl
@[simp] theorem longDone_streams (sel : LongCmd → Bool) (st d : Nat) (r : List Byte) : (longDone sel st d r s).streams = s.streams := rfl
@[simp] theorem longDone_cols (sel : LongCmd → Bool) (st d : Nat) (r : List Byte) : (longDone sel st d r s).cols = s.cols := rfl
@[simp] theorem longDone_mem (sel : LongCmd → Bool) (st d : Nat) (r : List Byte) : (longDone sel st d r s).mem = s.mem := rfl
@[simp] theorem longDone_ecc (sel : LongCmd → Bool) (st d : Nat) (r : List Byte) : (longDone sel st d r s).ecc = s.ecc := rfl
@[simp] theorem longDone_groups (sel : LongCmd → Bool) (st d : Nat) (r : List Byte) : (longDone sel st d r s).groups = s.groups := rfl
@[simp] theorem longDone_autowake (sel : LongCmd → Bool) (st d : Nat) (r : List Byte) : (longDone sel st d r s).autowake = s.autowake := rfl
@[simp] theorem longDone_bankMap (sel : LongCmd → Bool) (st d : Nat) (r : List Byte) : (longDone sel st d r s).bankMap = s.bankMap := rfl
@[simp] theorem longDone_bankOut (sel : LongCmd → Bool) (st d : Nat) (r : List Byte) : (longDone sel st d r s).bankOut = s.bankOut := rfl
@[simp] theorem longDone_copy (sel : LongCmd → Bool) (st d : Nat) (r : List Byte) : (longDone sel st d r s).copy = s.copy := rfl
@[simp] theorem longDone_limp (sel : LongCmd → Bool) (st d : Nat) (r : List Byte) : (longDone sel st d r s).limp = s.limp := rfl
@[simp] theorem longDone_handles (sel : LongCmd → Bool) (st d : Nat) (r : List Byte) : (longDone sel st d r s).handles = s.handles := rfl
@[simp] theorem longDone_reloc (sel : LongCmd → Bool) (st d : Nat) (r : List Byte) : (longDone sel st d r s).reloc = s.reloc := rfl
@[simp] theorem longDone_sems (sel : LongCmd → Bool) (st d : Nat) (r : List Byte) : (longDone sel st d r s).sems = s.sems := rfl
@[simp] theorem longDone_arrivals (sel : LongCmd → Bool) (st d : Nat) (r : List Byte) : (longDone sel st d r s).arrivals = s.arrivals := rfl
@[simp] theorem longDone_rings (sel : LongCmd → Bool) (st d : Nat) (r : List Byte) : (longDone sel st d r s).rings = s.rings := rfl
@[simp] theorem longDone_windows (sel : LongCmd → Bool) (st d : Nat) (r : List Byte) : (longDone sel st d r s).windows = s.windows := rfl
@[simp] theorem longDone_tokens (sel : LongCmd → Bool) (st d : Nat) (r : List Byte) : (longDone sel st d r s).tokens = s.tokens := rfl
@[simp] theorem longDone_lastRefill (sel : LongCmd → Bool) (st d : Nat) (r : List Byte) : (longDone sel st d r s).lastRefill = s.lastRefill := rfl
@[simp] theorem longDone_cores (sel : LongCmd → Bool) (st d : Nat) (r : List Byte) : (longDone sel st d r s).cores = s.cores := rfl
@[simp] theorem longDone_coreMap (sel : LongCmd → Bool) (st d : Nat) (r : List Byte) : (longDone sel st d r s).coreMap = s.coreMap := rfl
@[simp] theorem longDone_near (sel : LongCmd → Bool) (st d : Nat) (r : List Byte) : (longDone sel st d r s).near = s.near := rfl
@[simp] theorem longDone_nearEcc (sel : LongCmd → Bool) (st d : Nat) (r : List Byte) : (longDone sel st d r s).nearEcc = s.nearEcc := rfl
@[simp] theorem longDone_accs (sel : LongCmd → Bool) (st d : Nat) (r : List Byte) : (longDone sel st d r s).accs = s.accs := rfl
@[simp] theorem longDone_tcache (sel : LongCmd → Bool) (st d : Nat) (r : List Byte) : (longDone sel st d r s).tcache = s.tcache := rfl
@[simp] theorem longDone_fcache (sel : LongCmd → Bool) (st d : Nat) (r : List Byte) : (longDone sel st d r s).fcache = s.fcache := rfl
@[simp] theorem longDone_fills (sel : LongCmd → Bool) (st d : Nat) (r : List Byte) : (longDone sel st d r s).fills = s.fills := rfl
@[simp] theorem longDone_held (sel : LongCmd → Bool) (st d : Nat) (r : List Byte) : (longDone sel st d r s).held = s.held := rfl
@[simp] theorem longDone_useCount (sel : LongCmd → Bool) (st d : Nat) (r : List Byte) : (longDone sel st d r s).useCount = s.useCount := rfl
@[simp] theorem longDone_fcBuffer (sel : LongCmd → Bool) (st d : Nat) (r : List Byte) : (longDone sel st d r s).fcBuffer = s.fcBuffer := rfl
@[simp] theorem longDone_rangeOps (sel : LongCmd → Bool) (st d : Nat) (r : List Byte) : (longDone sel st d r s).rangeOps = s.rangeOps := rfl
@[simp] theorem longDone_pinWin (sel : LongCmd → Bool) (st d : Nat) (r : List Byte) : (longDone sel st d r s).pinWin = s.pinWin := rfl
@[simp] theorem longDone_pinNow (sel : LongCmd → Bool) (st d : Nat) (r : List Byte) : (longDone sel st d r s).pinNow = s.pinNow := rfl
@[simp] theorem longDone_models (sel : LongCmd → Bool) (st d : Nat) (r : List Byte) : (longDone sel st d r s).models = s.models := rfl
@[simp] theorem longDone_coreSets (sel : LongCmd → Bool) (st d : Nat) (r : List Byte) : (longDone sel st d r s).coreSets = s.coreSets := rfl
@[simp] theorem longDone_sgroups (sel : LongCmd → Bool) (st d : Nat) (r : List Byte) : (longDone sel st d r s).sgroups = s.sgroups := rfl
@[simp] theorem longDone_ops (sel : LongCmd → Bool) (st d : Nat) (r : List Byte) : (longDone sel st d r s).ops = s.ops := rfl
@[simp] theorem longDone_opNext (sel : LongCmd → Bool) (st d : Nat) (r : List Byte) : (longDone sel st d r s).opNext = s.opNext := rfl
@[simp] theorem longDone_dma (sel : LongCmd → Bool) (st d : Nat) (r : List Byte) : (longDone sel st d r s).dma = s.dma := rfl
@[simp] theorem longDone_dmaBusy (sel : LongCmd → Bool) (st d : Nat) (r : List Byte) : (longDone sel st d r s).dmaBusy = s.dmaBusy := rfl
@[simp] theorem longDone_harts (sel : LongCmd → Bool) (st d : Nat) (r : List Byte) : (longDone sel st d r s).harts = s.harts := rfl
@[simp] theorem longDone_l2 (sel : LongCmd → Bool) (st d : Nat) (r : List Byte) : (longDone sel st d r s).l2 = s.l2 := rfl
@[simp] theorem longDone_evOwner (sel : LongCmd → Bool) (st d : Nat) (r : List Byte) : (longDone sel st d r s).evOwner = s.evOwner := rfl
@[simp] theorem longDone_mboxes (sel : LongCmd → Bool) (st d : Nat) (r : List Byte) : (longDone sel st d r s).mboxes = s.mboxes := rfl
@[simp] theorem longDone_flash (sel : LongCmd → Bool) (st d : Nat) (r : List Byte) : (longDone sel st d r s).flash = s.flash := rfl
@[simp] theorem longDone_xk (sel : LongCmd → Bool) (st d : Nat) (r : List Byte) : (longDone sel st d r s).xk = s.xk := rfl
@[simp] theorem longDone_pwr (sel : LongCmd → Bool) (st d : Nat) (r : List Byte) : (longDone sel st d r s).pwr = s.pwr := rfl
@[simp] theorem longDone_jtag (sel : LongCmd → Bool) (st d : Nat) (r : List Byte) : (longDone sel st d r s).jtag = s.jtag := rfl

/-! ## groupPut -/

@[simp] theorem groupPut_pending (g : Nat) (x : Group) : (groupPut g x s).pending = s.pending := rfl
@[simp] theorem groupPut_free (g : Nat) (x : Group) : (groupPut g x s).free = s.free := rfl
@[simp] theorem groupPut_ts (g : Nat) (x : Group) : (groupPut g x s).ts = s.ts := rfl
@[simp] theorem groupPut_regs (g : Nat) (x : Group) : (groupPut g x s).regs = s.regs := rfl
@[simp] theorem groupPut_latches (g : Nat) (x : Group) : (groupPut g x s).latches = s.latches := rfl
@[simp] theorem groupPut_staging (g : Nat) (x : Group) : (groupPut g x s).staging = s.staging := rfl
@[simp] theorem groupPut_replies (g : Nat) (x : Group) : (groupPut g x s).replies = s.replies := rfl
@[simp] theorem groupPut_emitted (g : Nat) (x : Group) : (groupPut g x s).emitted = s.emitted := rfl
@[simp] theorem groupPut_irqArmed (g : Nat) (x : Group) : (groupPut g x s).irqArmed = s.irqArmed := rfl
@[simp] theorem groupPut_msix (g : Nat) (x : Group) : (groupPut g x s).msix = s.msix := rfl
@[simp] theorem groupPut_pba (g : Nat) (x : Group) : (groupPut g x s).pba = s.pba := rfl
@[simp] theorem groupPut_funcMask (g : Nat) (x : Group) : (groupPut g x s).funcMask = s.funcMask := rfl
@[simp] theorem groupPut_tic (g : Nat) (x : Group) : (groupPut g x s).tic = s.tic := rfl
@[simp] theorem groupPut_log (g : Nat) (x : Group) : (groupPut g x s).log = s.log := rfl
@[simp] theorem groupPut_lastCe (g : Nat) (x : Group) : (groupPut g x s).lastCe = s.lastCe := rfl
@[simp] theorem groupPut_lt (g : Nat) (x : Group) : (groupPut g x s).lt = s.lt := rfl
@[simp] theorem groupPut_cal (g : Nat) (x : Group) : (groupPut g x s).cal = s.cal := rfl
@[simp] theorem groupPut_strobes (g : Nat) (x : Group) : (groupPut g x s).strobes = s.strobes := rfl
@[simp] theorem groupPut_ports (g : Nat) (x : Group) : (groupPut g x s).ports = s.ports := rfl
@[simp] theorem groupPut_streams (g : Nat) (x : Group) : (groupPut g x s).streams = s.streams := rfl
@[simp] theorem groupPut_cols (g : Nat) (x : Group) : (groupPut g x s).cols = s.cols := rfl
@[simp] theorem groupPut_mem (g : Nat) (x : Group) : (groupPut g x s).mem = s.mem := rfl
@[simp] theorem groupPut_ecc (g : Nat) (x : Group) : (groupPut g x s).ecc = s.ecc := rfl
@[simp] theorem groupPut_groups (g : Nat) (x : Group) : (groupPut g x s).groups = s.groups := rfl
@[simp] theorem groupPut_autowake (g : Nat) (x : Group) : (groupPut g x s).autowake = s.autowake := rfl
@[simp] theorem groupPut_bankMap (g : Nat) (x : Group) : (groupPut g x s).bankMap = s.bankMap := rfl
@[simp] theorem groupPut_bankOut (g : Nat) (x : Group) : (groupPut g x s).bankOut = s.bankOut := rfl
@[simp] theorem groupPut_copy (g : Nat) (x : Group) : (groupPut g x s).copy = s.copy := rfl
@[simp] theorem groupPut_limp (g : Nat) (x : Group) : (groupPut g x s).limp = s.limp := rfl
@[simp] theorem groupPut_handles (g : Nat) (x : Group) : (groupPut g x s).handles = s.handles := rfl
@[simp] theorem groupPut_reloc (g : Nat) (x : Group) : (groupPut g x s).reloc = s.reloc := rfl
@[simp] theorem groupPut_sems (g : Nat) (x : Group) : (groupPut g x s).sems = s.sems := rfl
@[simp] theorem groupPut_arrivals (g : Nat) (x : Group) : (groupPut g x s).arrivals = s.arrivals := rfl
@[simp] theorem groupPut_rings (g : Nat) (x : Group) : (groupPut g x s).rings = s.rings := rfl
@[simp] theorem groupPut_windows (g : Nat) (x : Group) : (groupPut g x s).windows = s.windows := rfl
@[simp] theorem groupPut_tokens (g : Nat) (x : Group) : (groupPut g x s).tokens = s.tokens := rfl
@[simp] theorem groupPut_lastRefill (g : Nat) (x : Group) : (groupPut g x s).lastRefill = s.lastRefill := rfl
@[simp] theorem groupPut_cores (g : Nat) (x : Group) : (groupPut g x s).cores = s.cores := rfl
@[simp] theorem groupPut_coreMap (g : Nat) (x : Group) : (groupPut g x s).coreMap = s.coreMap := rfl
@[simp] theorem groupPut_near (g : Nat) (x : Group) : (groupPut g x s).near = s.near := rfl
@[simp] theorem groupPut_nearEcc (g : Nat) (x : Group) : (groupPut g x s).nearEcc = s.nearEcc := rfl
@[simp] theorem groupPut_accs (g : Nat) (x : Group) : (groupPut g x s).accs = s.accs := rfl
@[simp] theorem groupPut_tcache (g : Nat) (x : Group) : (groupPut g x s).tcache = s.tcache := rfl
@[simp] theorem groupPut_fcache (g : Nat) (x : Group) : (groupPut g x s).fcache = s.fcache := rfl
@[simp] theorem groupPut_fills (g : Nat) (x : Group) : (groupPut g x s).fills = s.fills := rfl
@[simp] theorem groupPut_held (g : Nat) (x : Group) : (groupPut g x s).held = s.held := rfl
@[simp] theorem groupPut_useCount (g : Nat) (x : Group) : (groupPut g x s).useCount = s.useCount := rfl
@[simp] theorem groupPut_fcBuffer (g : Nat) (x : Group) : (groupPut g x s).fcBuffer = s.fcBuffer := rfl
@[simp] theorem groupPut_rangeOps (g : Nat) (x : Group) : (groupPut g x s).rangeOps = s.rangeOps := rfl
@[simp] theorem groupPut_pinWin (g : Nat) (x : Group) : (groupPut g x s).pinWin = s.pinWin := rfl
@[simp] theorem groupPut_pinNow (g : Nat) (x : Group) : (groupPut g x s).pinNow = s.pinNow := rfl
@[simp] theorem groupPut_models (g : Nat) (x : Group) : (groupPut g x s).models = s.models := rfl
@[simp] theorem groupPut_coreSets (g : Nat) (x : Group) : (groupPut g x s).coreSets = s.coreSets := rfl
@[simp] theorem groupPut_ops (g : Nat) (x : Group) : (groupPut g x s).ops = s.ops := rfl
@[simp] theorem groupPut_opNext (g : Nat) (x : Group) : (groupPut g x s).opNext = s.opNext := rfl
@[simp] theorem groupPut_dma (g : Nat) (x : Group) : (groupPut g x s).dma = s.dma := rfl
@[simp] theorem groupPut_dmaBusy (g : Nat) (x : Group) : (groupPut g x s).dmaBusy = s.dmaBusy := rfl
@[simp] theorem groupPut_harts (g : Nat) (x : Group) : (groupPut g x s).harts = s.harts := rfl
@[simp] theorem groupPut_l2 (g : Nat) (x : Group) : (groupPut g x s).l2 = s.l2 := rfl
@[simp] theorem groupPut_evOwner (g : Nat) (x : Group) : (groupPut g x s).evOwner = s.evOwner := rfl
@[simp] theorem groupPut_mboxes (g : Nat) (x : Group) : (groupPut g x s).mboxes = s.mboxes := rfl
@[simp] theorem groupPut_sup (g : Nat) (x : Group) : (groupPut g x s).sup = s.sup := rfl
@[simp] theorem groupPut_flash (g : Nat) (x : Group) : (groupPut g x s).flash = s.flash := rfl
@[simp] theorem groupPut_xk (g : Nat) (x : Group) : (groupPut g x s).xk = s.xk := rfl
@[simp] theorem groupPut_pwr (g : Nat) (x : Group) : (groupPut g x s).pwr = s.pwr := rfl
@[simp] theorem groupPut_jtag (g : Nat) (x : Group) : (groupPut g x s).jtag = s.jtag := rfl

end Sys2Proof.Machine
end

