-- ==== Sys2Proof/Laws/Tab.lean ====
section
/-! SUPPORT. The sparse table as a finite map: what a write reads back as, and that every write keeps the canonical form
(keys strictly rising, no default listed). The memories of the model are such tables. -/

namespace Sys2Proof.Machine

open Sys2Proof

variable {α : Type}

/-! ## Read after write -/

theorem tabGet?_tabSet (t : Tab α) (k : Nat) (v : α) (j : Nat) :
    tabGet? (tabSet t k v) j = if j = k then some v else tabGet? t j := by
  induction t with
  | nil => simp [tabSet, tabGet?]
  | cons e t ih =>
    obtain ⟨k', v'⟩ := e
    unfold tabSet
    split
    · simp [tabGet?]
    · split
      · subst k'; simp only [tabGet?]; split <;> rfl
      · rename_i h1 h2
        simp only [tabGet?, ih]
        by_cases h : j = k' <;> by_cases h' : j = k <;> simp_all

theorem tabGet?_tabDel (t : Tab α) (k j : Nat) :
    tabGet? (tabDel t k) j = if j = k then none else tabGet? t j := by
  induction t with
  | nil => simp [tabDel, tabGet?]
  | cons e t ih =>
    obtain ⟨k', v'⟩ := e
    unfold tabDel
    split
    · subst k'; rw [ih]; by_cases h : j = k <;> simp [h, tabGet?]
    · rename_i h1
      simp only [tabGet?, ih]
      by_cases h : j = k' <;> by_cases h' : j = k <;> simp_all

@[simp] theorem tabGet?_tabSet_self (t : Tab α) (k : Nat) (v : α) : tabGet? (tabSet t k v) k = some v := by
  simp [tabGet?_tabSet]

@[simp] theorem tabGet_tabSet_self (d : α) (t : Tab α) (k : Nat) (v : α) : tabGet d (tabSet t k v) k = v := by
  simp [tabGet]

@[simp] theorem tabGet?_tabDel_self (t : Tab α) (k : Nat) : tabGet? (tabDel t k) k = none := by
  simp [tabGet?_tabDel]

variable [DecidableEq α]

/-- What a table reads as after a write: the value at the key, and every other key as before. -/
theorem tabGet_tabPut (d : α) (t : Tab α) (k : Nat) (v : α) (j : Nat) :
    tabGet d (tabPut d t k v) j = if j = k then v else tabGet d t j := by
  unfold tabPut tabGet
  by_cases hv : v = d
  · rw [if_pos hv, tabGet?_tabDel]; by_cases h : j = k <;> simp [h, hv]
  · rw [if_neg hv, tabGet?_tabSet]; by_cases h : j = k <;> simp [h]

@[simp] theorem tabGet_tabPut_self (d : α) (t : Tab α) (k : Nat) (v : α) : tabGet d (tabPut d t k v) k = v := by
  rw [tabGet_tabPut, if_pos rfl]

theorem tabGet_tabPut_other (d : α) (t : Tab α) {k j : Nat} (v : α) (h : j ≠ k) :
    tabGet d (tabPut d t k v) j = tabGet d t j := by
  rw [tabGet_tabPut, if_neg h]

@[simp] theorem tabGet_tabMod_self (d : α) (t : Tab α) (k : Nat) (f : α → α) :
    tabGet d (tabMod d t k f) k = f (tabGet d t k) := by
  simp [tabMod]

theorem tabGet_tabMod_other (d : α) (t : Tab α) {k j : Nat} (f : α → α) (h : j ≠ k) :
    tabGet d (tabMod d t k f) j = tabGet d t j := tabGet_tabPut_other d t _ h

/-! ## The canonical form -/

omit [DecidableEq α] in
theorem tabSortedFrom_mono {lo lo' : Nat} (t : Tab α) (h : lo ≤ lo') (hs : tabSortedFrom lo' t = true) :
    tabSortedFrom lo t = true := by
  cases t with
  | nil => rfl
  | cons e t =>
    simp only [tabSortedFrom, Bool.and_eq_true, decide_eq_true_eq] at hs ⊢
    exact ⟨by omega, hs.2⟩

omit [DecidableEq α] in
theorem tabSortedFrom_tabSet (t : Tab α) (lo k : Nat) (v : α) (hk : lo ≤ k) (hs : tabSortedFrom lo t = true) :
    tabSortedFrom lo (tabSet t k v) = true := by
  induction t generalizing lo with
  | nil => simp [tabSet, tabSortedFrom, hk]
  | cons e t ih =>
    obtain ⟨k', v'⟩ := e
    simp only [tabSortedFrom, Bool.and_eq_true, decide_eq_true_eq] at hs
    unfold tabSet
    split
    · rename_i h; simp [tabSortedFrom, hk, hs.2]; omega
    · split
      · rename_i h; subst h; simp [tabSortedFrom, hk, hs.2]
      · simp only [tabSortedFrom, Bool.and_eq_true, decide_eq_true_eq]
        exact ⟨hs.1, ih _ (by omega) hs.2⟩

omit [DecidableEq α] in
theorem tabSortedFrom_tabDel (t : Tab α) (lo k : Nat) (hs : tabSortedFrom lo t = true) :
    tabSortedFrom lo (tabDel t k) = true := by
  induction t generalizing lo with
  | nil => rfl
  | cons e t ih =>
    obtain ⟨k', v'⟩ := e
    simp only [tabSortedFrom, Bool.and_eq_true, decide_eq_true_eq] at hs
    unfold tabDel
    split
    · exact ih _ (tabSortedFrom_mono _ (by omega) hs.2)
    · simp only [tabSortedFrom, Bool.and_eq_true, decide_eq_true_eq]
      exact ⟨hs.1, ih _ hs.2⟩

theorem all_tabSet (d : α) (t : Tab α) (k : Nat) (v : α) (hv : v ≠ d)
    (h : t.all (fun e => decide (e.2 ≠ d)) = true) : (tabSet t k v).all (fun e => decide (e.2 ≠ d)) = true := by
  induction t with
  | nil => simp [tabSet, hv]
  | cons e t ih =>
    obtain ⟨k', v'⟩ := e
    simp only [List.all_cons, Bool.and_eq_true] at h
    unfold tabSet
    split
    · simp only [List.all_cons, Bool.and_eq_true]; exact ⟨by simp [hv], h⟩
    · split
      · simp only [List.all_cons, Bool.and_eq_true]; exact ⟨by simp [hv], h.2⟩
      · simp only [List.all_cons, Bool.and_eq_true]; exact ⟨h.1, ih h.2⟩

theorem all_tabDel (d : α) (t : Tab α) (k : Nat) (h : t.all (fun e => decide (e.2 ≠ d)) = true) :
    (tabDel t k).all (fun e => decide (e.2 ≠ d)) = true := by
  induction t with
  | nil => rfl
  | cons e t ih =>
    obtain ⟨k', v'⟩ := e
    simp only [List.all_cons, Bool.and_eq_true] at h
    unfold tabDel
    split
    · exact ih h.2
    · simp only [List.all_cons, Bool.and_eq_true]; exact ⟨h.1, ih h.2⟩

/-- A write keeps the canonical form. -/
theorem tabWf_tabPut (d : α) (t : Tab α) (k : Nat) (v : α) (h : tabWf d t = true) : tabWf d (tabPut d t k v) = true := by
  simp only [tabWf, Bool.and_eq_true] at h ⊢
  unfold tabPut
  split
  · exact ⟨tabSortedFrom_tabDel _ _ _ h.1, all_tabDel _ _ _ h.2⟩
  · rename_i hv; exact ⟨tabSortedFrom_tabSet _ _ _ _ (Nat.zero_le _) h.1, all_tabSet _ _ _ _ hv h.2⟩

end Sys2Proof.Machine
end

