-- ==== Sys2Proof/Laws/Settle.lean ====
section
/-! SUPPORT. What `settle` can do: it moves ARMED flags, pending bits and messages only; and what `done` answers. -/

namespace Sys2Proof.Machine

open Sys2Proof

/-- One source changes ARMED, the pending bits and the messages only. -/
theorem irqOne_eq (i : Nat) (s : State) : ∃ a p e, irqOne i s = { s with irqArmed := a, pba := p, emitted := e } := by
  unfold irqOne msixSend emit
  split
  · dsimp only
    split
    · exact ⟨_, _, _, rfl⟩
    · exact ⟨_, _, _, rfl⟩
  · exact ⟨s.irqArmed, s.pba, s.emitted, rfl⟩

/-- Everything `settle` can do. -/
theorem settle_eq (s : State) : ∃ a p e, settle s = { s with irqArmed := a, pba := p, emitted := e } := by
  unfold settle
  generalize natsFrom 0 48 = l
  induction l generalizing s with
  | nil => exact ⟨s.irqArmed, s.pba, s.emitted, rfl⟩
  | cons i l ih =>
    obtain ⟨a, p, e, h⟩ := irqOne_eq i s
    obtain ⟨a', p', e', h'⟩ := ih (irqOne i s)
    exact ⟨a', p', e', by rw [List.foldl_cons, h', h]⟩

@[simp] theorem settle_pending (s : State) : (settle s).pending = s.pending := by
  obtain ⟨a, p, e, h⟩ := settle_eq s; rw [h]
@[simp] theorem settle_free (s : State) : (settle s).free = s.free := by
  obtain ⟨a, p, e, h⟩ := settle_eq s; rw [h]
@[simp] theorem settle_ts (s : State) : (settle s).ts = s.ts := by
  obtain ⟨a, p, e, h⟩ := settle_eq s; rw [h]
@[simp] theorem settle_regs (s : State) : (settle s).regs = s.regs := by
  obtain ⟨a, p, e, h⟩ := settle_eq s; rw [h]
@[simp] theorem settle_latches (s : State) : (settle s).latches = s.latches := by
  obtain ⟨a, p, e, h⟩ := settle_eq s; rw [h]
@[simp] theorem settle_staging (s : State) : (settle s).staging = s.staging := by
  obtain ⟨a, p, e, h⟩ := settle_eq s; rw [h]
@[simp] theorem settle_replies (s : State) : (settle s).replies = s.replies := by
  obtain ⟨a, p, e, h⟩ := settle_eq s; rw [h]
@[simp] theorem settle_msix (s : State) : (settle s).msix = s.msix := by
  obtain ⟨a, p, e, h⟩ := settle_eq s; rw [h]
@[simp] theorem settle_funcMask (s : State) : (settle s).funcMask = s.funcMask := by
  obtain ⟨a, p, e, h⟩ := settle_eq s; rw [h]
@[simp] theorem settle_tic (s : State) : (settle s).tic = s.tic := by
  obtain ⟨a, p, e, h⟩ := settle_eq s; rw [h]
@[simp] theorem settle_log (s : State) : (settle s).log = s.log := by
  obtain ⟨a, p, e, h⟩ := settle_eq s; rw [h]
@[simp] theorem settle_lastCe (s : State) : (settle s).lastCe = s.lastCe := by
  obtain ⟨a, p, e, h⟩ := settle_eq s; rw [h]
@[simp] theorem settle_lt (s : State) : (settle s).lt = s.lt := by
  obtain ⟨a, p, e, h⟩ := settle_eq s; rw [h]
@[simp] theorem settle_cal (s : State) : (settle s).cal = s.cal := by
  obtain ⟨a, p, e, h⟩ := settle_eq s; rw [h]
@[simp] theorem settle_strobes (s : State) : (settle s).strobes = s.strobes := by
  obtain ⟨a, p, e, h⟩ := settle_eq s; rw [h]
@[simp] theorem settle_ports (s : State) : (settle s).ports = s.ports := by
  obtain ⟨a, p, e, h⟩ := settle_eq s; rw [h]
@[simp] theorem settle_streams (s : State) : (settle s).streams = s.streams := by
  obtain ⟨a, p, e, h⟩ := settle_eq s; rw [h]
@[simp] theorem settle_cols (s : State) : (settle s).cols = s.cols := by
  obtain ⟨a, p, e, h⟩ := settle_eq s; rw [h]
@[simp] theorem settle_mem (s : State) : (settle s).mem = s.mem := by
  obtain ⟨a, p, e, h⟩ := settle_eq s; rw [h]
@[simp] theorem settle_ecc (s : State) : (settle s).ecc = s.ecc := by
  obtain ⟨a, p, e, h⟩ := settle_eq s; rw [h]
@[simp] theorem settle_groups (s : State) : (settle s).groups = s.groups := by
  obtain ⟨a, p, e, h⟩ := settle_eq s; rw [h]
@[simp] theorem settle_autowake (s : State) : (settle s).autowake = s.autowake := by
  obtain ⟨a, p, e, h⟩ := settle_eq s; rw [h]
@[simp] theorem settle_bankMap (s : State) : (settle s).bankMap = s.bankMap := by
  obtain ⟨a, p, e, h⟩ := settle_eq s; rw [h]
@[simp] theorem settle_bankOut (s : State) : (settle s).bankOut = s.bankOut := by
  obtain ⟨a, p, e, h⟩ := settle_eq s; rw [h]
@[simp] theorem settle_copy (s : State) : (settle s).copy = s.copy := by
  obtain ⟨a, p, e, h⟩ := settle_eq s; rw [h]
@[simp] theorem settle_limp (s : State) : (settle s).limp = s.limp := by
  obtain ⟨a, p, e, h⟩ := settle_eq s; rw [h]
@[simp] theorem settle_handles (s : State) : (settle s).handles = s.handles := by
  obtain ⟨a, p, e, h⟩ := settle_eq s; rw [h]
@[simp] theorem settle_reloc (s : State) : (settle s).reloc = s.reloc := by
  obtain ⟨a, p, e, h⟩ := settle_eq s; rw [h]
@[simp] theorem settle_sems (s : State) : (settle s).sems = s.sems := by
  obtain ⟨a, p, e, h⟩ := settle_eq s; rw [h]
@[simp] theorem settle_arrivals (s : State) : (settle s).arrivals = s.arrivals := by
  obtain ⟨a, p, e, h⟩ := settle_eq s; rw [h]
@[simp] theorem settle_rings (s : State) : (settle s).rings = s.rings := by
  obtain ⟨a, p, e, h⟩ := settle_eq s; rw [h]
@[simp] theorem settle_windows (s : State) : (settle s).windows = s.windows := by
  obtain ⟨a, p, e, h⟩ := settle_eq s; rw [h]
@[simp] theorem settle_tokens (s : State) : (settle s).tokens = s.tokens := by
  obtain ⟨a, p, e, h⟩ := settle_eq s; rw [h]
@[simp] theorem settle_lastRefill (s : State) : (settle s).lastRefill = s.lastRefill := by
  obtain ⟨a, p, e, h⟩ := settle_eq s; rw [h]
@[simp] theorem settle_cores (s : State) : (settle s).cores = s.cores := by
  obtain ⟨a, p, e, h⟩ := settle_eq s; rw [h]
@[simp] theorem settle_coreMap (s : State) : (settle s).coreMap = s.coreMap := by
  obtain ⟨a, p, e, h⟩ := settle_eq s; rw [h]
@[simp] theorem settle_near (s : State) : (settle s).near = s.near := by
  obtain ⟨a, p, e, h⟩ := settle_eq s; rw [h]
@[simp] theorem settle_nearEcc (s : State) : (settle s).nearEcc = s.nearEcc := by
  obtain ⟨a, p, e, h⟩ := settle_eq s; rw [h]
@[simp] theorem settle_accs (s : State) : (settle s).accs = s.accs := by
  obtain ⟨a, p, e, h⟩ := settle_eq s; rw [h]
@[simp] theorem settle_tcache (s : State) : (settle s).tcache = s.tcache := by
  obtain ⟨a, p, e, h⟩ := settle_eq s; rw [h]
@[simp] theorem settle_fcache (s : State) : (settle s).fcache = s.fcache := by
  obtain ⟨a, p, e, h⟩ := settle_eq s; rw [h]
@[simp] theorem settle_useCount (s : State) : (settle s).useCount = s.useCount := by
  obtain ⟨a, p, e, h⟩ := settle_eq s; rw [h]
@[simp] theorem settle_fcBuffer (s : State) : (settle s).fcBuffer = s.fcBuffer := by
  obtain ⟨a, p, e, h⟩ := settle_eq s; rw [h]
@[simp] theorem settle_rangeOps (s : State) : (settle s).rangeOps = s.rangeOps := by
  obtain ⟨a, p, e, h⟩ := settle_eq s; rw [h]
@[simp] theorem settle_pinWin (s : State) : (settle s).pinWin = s.pinWin := by
  obtain ⟨a, p, e, h⟩ := settle_eq s; rw [h]
@[simp] theorem settle_pinNow (s : State) : (settle s).pinNow = s.pinNow := by
  obtain ⟨a, p, e, h⟩ := settle_eq s; rw [h]
@[simp] theorem settle_models (s : State) : (settle s).models = s.models := by
  obtain ⟨a, p, e, h⟩ := settle_eq s; rw [h]
@[simp] theorem settle_coreSets (s : State) : (settle s).coreSets = s.coreSets := by
  obtain ⟨a, p, e, h⟩ := settle_eq s; rw [h]
@[simp] theorem settle_sgroups (s : State) : (settle s).sgroups = s.sgroups := by
  obtain ⟨a, p, e, h⟩ := settle_eq s; rw [h]
@[simp] theorem settle_ops (s : State) : (settle s).ops = s.ops := by
  obtain ⟨a, p, e, h⟩ := settle_eq s; rw [h]
@[simp] theorem settle_opNext (s : State) : (settle s).opNext = s.opNext := by
  obtain ⟨a, p, e, h⟩ := settle_eq s; rw [h]
@[simp] theorem settle_dma (s : State) : (settle s).dma = s.dma := by
  obtain ⟨a, p, e, h⟩ := settle_eq s; rw [h]
@[simp] theorem settle_dmaBusy (s : State) : (settle s).dmaBusy = s.dmaBusy := by
  obtain ⟨a, p, e, h⟩ := settle_eq s; rw [h]
@[simp] theorem settle_harts (s : State) : (settle s).harts = s.harts := by
  obtain ⟨a, p, e, h⟩ := settle_eq s; rw [h]
@[simp] theorem settle_l2 (s : State) : (settle s).l2 = s.l2 := by
  obtain ⟨a, p, e, h⟩ := settle_eq s; rw [h]
@[simp] theorem settle_evOwner (s : State) : (settle s).evOwner = s.evOwner := by
  obtain ⟨a, p, e, h⟩ := settle_eq s; rw [h]
@[simp] theorem settle_mboxes (s : State) : (settle s).mboxes = s.mboxes := by
  obtain ⟨a, p, e, h⟩ := settle_eq s; rw [h]
@[simp] theorem settle_sup (s : State) : (settle s).sup = s.sup := by
  obtain ⟨a, p, e, h⟩ := settle_eq s; rw [h]
@[simp] theorem settle_flash (s : State) : (settle s).flash = s.flash := by
  obtain ⟨a, p, e, h⟩ := settle_eq s; rw [h]
@[simp] theorem settle_xk (s : State) : (settle s).xk = s.xk := by
  obtain ⟨a, p, e, h⟩ := settle_eq s; rw [h]
@[simp] theorem settle_pwr (s : State) : (settle s).pwr = s.pwr := by
  obtain ⟨a, p, e, h⟩ := settle_eq s; rw [h]
@[simp] theorem settle_jtag (s : State) : (settle s).jtag = s.jtag := by
  obtain ⟨a, p, e, h⟩ := settle_eq s; rw [h]

/-- Every command goes on with a state that its effect and the interrupt controller make. -/
theorem done_next (s : State) : done s = .next (settle s) := rfl

/-- A register as the interrupt controller leaves it. -/
@[simp] theorem regGet_settle (s : State) (o : Nat) : regGet (settle s) o = regGet s o := by
  simp [regGet]

@[simp] theorem regBits_settle (s : State) (o lo n : Nat) : regBits (settle s) o lo n = regBits s o lo n := by
  simp [regBits]

/-! ## Registers -/

theorem regGet_regSet (s : State) (o j : Nat) (v : Word) : regGet (regSet o v s) j = if j = o then v else regGet s j := by
  unfold regGet regSet
  by_cases h : j = o
  · subst h; simp
  · simp only [if_neg h]; by_cases hd : resetOf o = resetOf j
    · rw [hd]; exact tabGet_tabPut_other _ _ _ h
    · unfold tabPut tabGet
      split <;> simp [tabGet?_tabDel, tabGet?_tabSet, h]

@[simp] theorem regGet_regSet_self (s : State) (o : Nat) (v : Word) : regGet (regSet o v s) o = v := by
  rw [regGet_regSet, if_pos rfl]

theorem regGet_regSet_other (s : State) {o j : Nat} (v : Word) (h : j ≠ o) : regGet (regSet o v s) j = regGet s j := by
  rw [regGet_regSet, if_neg h]

@[simp] theorem regGet_regMod_self (s : State) (o : Nat) (f : Word → Word) : regGet (regMod o f s) o = f (regGet s o) := by
  simp [regMod]

theorem regGet_regMod_other (s : State) {o j : Nat} (f : Word → Word) (h : j ≠ o) :
    regGet (regMod o f s) j = regGet s j := by
  simp [regMod, regGet_regSet, h]

end Sys2Proof.Machine
end

