-- ==== Sys2Proof/Laws/Cmd.lean ====
section
/-! SUPPORT. What a supervisor command row can do (R699): a request that is served is committed with its status, and the
state is the command's own but for the mailbox, its sequence register and what posting the response moves. -/

namespace Sys2Proof.Machine

open Sys2Proof

theorem foldl_same {α β : Type} (f : α → β → α) (l : List β) (a : α) (h : ∀ e ∈ l, f a e = a) : l.foldl f a = a := by
  induction l with
  | nil => rfl
  | cons x t ih =>
    rw [List.foldl_cons, h x (by simp)]
    exact ih fun e he => h e (by simp [he])

theorem tabGet?_mem {α : Type} {t : Tab α} {k : Nat} {x : α} (h : tabGet? t k = some x) : (k, x) ∈ t := by
  induction t with
  | nil => cases h
  | cons e t ih =>
    obtain ⟨a, b⟩ := e
    unfold tabGet? at h
    split at h
    · cases h; simp_all
    · exact List.mem_cons_of_mem _ (ih h)

/-- A core that waits for no access in flight does not leave. -/
theorem coreDepart_none {s : State} (h : NoneDeparts s) (p : Nat) : coreDepart p s = s := by
  have hd : ((tabGet {} s.cores p).disable.map (·.due)).getD false = false := by
    unfold tabGet
    cases hx : tabGet? s.cores p with
    | none => rfl
    | some x =>
      cases hk : x.disable with
      | none => simp [hk]
      | some d => simpa [hk] using h _ (tabGet?_mem hx) d (by simp [hk])
  simp [coreDepart, hd]

/-- With no slot held, no wait failed, no stripe, drain or abort in work and no core that waits to leave, the scheduler
does nothing. -/
theorem schedTick_calm {s : State} (h : Calm s) : schedTick s = s := by
  obtain ⟨ho, hg, hc⟩ := h
  have h1 : issuedStripes s = s := by
    refine foldl_same _ _ _ fun e he => ?_
    dsimp only
    split
    · simp [(ho e he).1]
    · rfl
  have h2 : failedOps s = s := by
    refine foldl_same _ _ _ fun e he => ?_
    simp [(ho e he).2]
  have h3 : ∀ g, stripesProgress g s = s := by
    intro g
    unfold stripesProgress
    split
    · rfl
    · rename_i x t hx
      split
      · rfl
      · split
        · rfl
        · have ht : t.stripes = [] := by
            unfold taskOf groupGet at hx
            split at hx
            · rename_i y hy
              simp only [Option.map_eq_some_iff] at hx
              obtain ⟨t', h4, h5⟩ := hx
              cases h5
              exact (hg _ (tabGet?_mem hy)).2.2 _ (Option.mem_def.mpr h4)
            · cases hx
          simp only [ht, List.foldl_nil, List.length_nil, publishStripes, hx]
          split
          · rename_i h5
            simp [tabGet?] at h5
          · rfl
  have h4 : ∀ g, drainGroup g s = s := by
    intro g
    unfold drainGroup groupGet
    split
    · rfl
    · rename_i x hx
      have h6 : x.drains = [] := (hg _ (tabGet?_mem hx)).1
      simp [h6]
  have h5 : ∀ g, abortOver g s = s := by
    intro g
    unfold abortOver groupGet
    split
    · rfl
    · rename_i x hx
      have : (x.phase == .aborting) = false := by simpa using (hg _ (tabGet?_mem hx)).2.1
      simp [this]
  unfold schedTick
  simp only [h1, h2]
  have h6 : s.sgroups.foldl (fun s' e => abortOver e.1 (drainGroup e.1 (stripesProgress e.1 s'))) s = s :=
    foldl_same _ _ _ fun e _ => by simp [h3, h4, h5]
  rw [h6]
  exact foldl_same _ _ _ fun e _ => coreDepart_none hc e.1

/-- A state with no tile-op and no stream group has nothing for the scheduler. -/
theorem Quiet.calm {s : State} (h : Quiet s) : Calm s := by
  obtain ⟨ho, hg, hc⟩ := h
  refine ⟨?_, ?_, hc⟩ <;> simp [ho, hg]

/-- With no tile-op and no stream group the scheduler does nothing. -/
theorem schedTick_quiet {s : State} (h : Quiet s) : schedTick s = s := schedTick_calm h.calm

/-! ## Posting a response -/

/-- The parts of the state that a step of the relay through MB_7 and the posting of a response may change. -/
def PostChange (s t : State) : Prop :=
  ∃ e m r u x, t = { s with emitted := e, mboxes := m, regs := r, sup := u, xk := x }

theorem PostChange.refl (s : State) : PostChange s s := ⟨s.emitted, s.mboxes, s.regs, s.sup, s.xk, rfl⟩

theorem PostChange.trans {a b c : State} (h : PostChange a b) (h' : PostChange b c) : PostChange a c := by
  obtain ⟨e, m, r, u, x, rfl⟩ := h
  obtain ⟨e', m', r', u', x', rfl⟩ := h'
  exact ⟨e', m', r', u', x', rfl⟩

theorem postChange_regSet (s : State) (o : Nat) (v : Word) : PostChange s (regSet o v s) :=
  ⟨s.emitted, s.mboxes, _, s.sup, s.xk, rfl⟩

theorem postChange_mbMod (s : State) (n : Nat) (f : Mailbox → Mailbox) : PostChange s (mbMod n f s) :=
  ⟨s.emitted, _, s.regs, s.sup, s.xk, rfl⟩

theorem postChange_xkMod (s : State) (f : Xk → Xk) : PostChange s (xkMod f s) :=
  ⟨s.emitted, s.mboxes, s.regs, s.sup, _, rfl⟩

theorem postChange_sup (s : State) (u : Sup) : PostChange s { s with sup := u } :=
  ⟨s.emitted, s.mboxes, s.regs, u, s.xk, rfl⟩

theorem postChange_emit (s : State) (e : Emit) : PostChange s (emit e s) :=
  ⟨_, s.mboxes, s.regs, s.sup, s.xk, rfl⟩

theorem postChange_mbFill (n o : Nat) (d : List Byte) (s : State) : PostChange s (mbFill n o d s) := by
  unfold mbFill
  split
  · exact postChange_mbMod _ _ _
  · exact postChange_regSet _ _ _

theorem postChange_mbGo (n : Nat) (s : State) : PostChange s (mbGo n s) := by
  unfold mbGo
  split
  · refine PostChange.trans ?_ (postChange_mbMod _ _ _)
    refine PostChange.trans ?_ (postChange_sup _ _)
    exact (postChange_regSet _ _ _).trans (postChange_regSet _ _ _)
  · exact postChange_regSet _ _ _

theorem postChange_relayNext (s : State) : PostChange s (relayNext s) := by
  unfold relayNext
  split
  · split
    · exact ((postChange_xkMod _ _).trans (postChange_mbFill _ _ _ _)).trans (postChange_mbGo _ _)
    · exact .refl _
  · exact .refl _

theorem postChange_longDoneAt (k st d : Nat) (r : List Byte) (s : State) : PostChange s (longDoneAt k st d r s) := by
  unfold longDoneAt
  split
  · exact postChange_sup _ _
  · exact .refl _

theorem postChange_relayDone (src : Nat) (d : List Byte) (s : State) : PostChange s (relayDone src d s) := by
  unfold relayDone
  split
  · exact .refl _
  · exact (postChange_xkMod _ _).trans (postChange_longDoneAt _ _ _ _ _)

theorem postChange_relayBack (src : Nat) (d : List Byte) (s : State) : PostChange s (relayBack src d s) := by
  unfold relayBack
  refine PostChange.trans (postChange_xkMod s (fun x => { x with relayBusy := none })) ?_
  dsimp only
  split
  · exact (postChange_relayDone _ _ _).trans (postChange_relayNext _)
  · exact (postChange_xkMod _ _).trans (postChange_relayNext _)

/-- Everything that posting a response can do. -/
theorem postChange_mbPost (n : Nat) (q : Bool) (d : List Byte) (s : State) : PostChange s (mbPost n q d s) := by
  have h1 : PostChange s (regField (mbBase n + 0x104) 0 3 3 (mbMod n (fun m => { m with rsp := d }) s)) :=
    PostChange.trans (postChange_mbMod s n fun m => { m with rsp := d }) (postChange_regSet _ _ _)
  have h2 : ∀ t : State, PostChange t (if q then t else regOr (mbBase n + 0x104) 8 t) := by
    intro t; split
    · exact .refl _
    · exact postChange_regSet _ _ _
  have h3 : ∀ (t : State) (c : Bool) (x : Emit), PostChange t (if c then emit x t else t) := by
    intro t c x; split
    · exact postChange_emit _ _
    · exact .refl _
  unfold mbPost
  dsimp only
  split
  · exact ((h1.trans (h2 _)).trans (h3 _ _ _)).trans (postChange_relayBack _ _ _)
  · exact (h1.trans (h2 _)).trans (h3 _ _ _)

theorem mbPost_eq (n : Nat) (q : Bool) (d : List Byte) (s : State) :
    ∃ e m r u x, mbPost n q d s = { s with emitted := e, mboxes := m, regs := r, sup := u, xk := x } :=
  postChange_mbPost n q d s

@[simp] theorem mbPost_pending (n : Nat) (q : Bool) (d : List Byte) (s : State) : (mbPost n q d s).pending = s.pending := by
  obtain ⟨e, m, r, u, x, h⟩ := mbPost_eq n q d s; rw [h]
@[simp] theorem mbPost_free (n : Nat) (q : Bool) (d : List Byte) (s : State) : (mbPost n q d s).free = s.free := by
  obtain ⟨e, m, r, u, x, h⟩ := mbPost_eq n q d s; rw [h]
@[simp] theorem mbPost_ts (n : Nat) (q : Bool) (d : List Byte) (s : State) : (mbPost n q d s).ts = s.ts := by
  obtain ⟨e, m, r, u, x, h⟩ := mbPost_eq n q d s; rw [h]
@[simp] theorem mbPost_latches (n : Nat) (q : Bool) (d : List Byte) (s : State) : (mbPost n q d s).latches = s.latches := by
  obtain ⟨e, m, r, u, x, h⟩ := mbPost_eq n q d s; rw [h]
@[simp] theorem mbPost_staging (n : Nat) (q : Bool) (d : List Byte) (s : State) : (mbPost n q d s).staging = s.staging := by
  obtain ⟨e, m, r, u, x, h⟩ := mbPost_eq n q d s; rw [h]
@[simp] theorem mbPost_replies (n : Nat) (q : Bool) (d : List Byte) (s : State) : (mbPost n q d s).replies = s.replies := by
  obtain ⟨e, m, r, u, x, h⟩ := mbPost_eq n q d s; rw [h]
@[simp] theorem mbPost_irqArmed (n : Nat) (q : Bool) (d : List Byte) (s : State) : (mbPost n q d s).irqArmed = s.irqArmed := by
  obtain ⟨e, m, r, u, x, h⟩ := mbPost_eq n q d s; rw [h]
@[simp] theorem mbPost_msix (n : Nat) (q : Bool) (d : List Byte) (s : State) : (mbPost n q d s).msix = s.msix := by
  obtain ⟨e, m, r, u, x, h⟩ := mbPost_eq n q d s; rw [h]
@[simp] theorem mbPost_pba (n : Nat) (q : Bool) (d : List Byte) (s : State) : (mbPost n q d s).pba = s.pba := by
  obtain ⟨e, m, r, u, x, h⟩ := mbPost_eq n q d s; rw [h]
@[simp] theorem mbPost_funcMask (n : Nat) (q : Bool) (d : List Byte) (s : State) : (mbPost n q d s).funcMask = s.funcMask := by
  obtain ⟨e, m, r, u, x, h⟩ := mbPost_eq n q d s; rw [h]
@[simp] theorem mbPost_tic (n : Nat) (q : Bool) (d : List Byte) (s : State) : (mbPost n q d s).tic = s.tic := by
  obtain ⟨e, m, r, u, x, h⟩ := mbPost_eq n q d s; rw [h]
@[simp] theorem mbPost_log (n : Nat) (q : Bool) (d : List Byte) (s : State) : (mbPost n q d s).log = s.log := by
  obtain ⟨e, m, r, u, x, h⟩ := mbPost_eq n q d s; rw [h]
@[simp] theorem mbPost_lastCe (n : Nat) (q : Bool) (d : List Byte) (s : State) : (mbPost n q d s).lastCe = s.lastCe := by
  obtain ⟨e, m, r, u, x, h⟩ := mbPost_eq n q d s; rw [h]
@[simp] theorem mbPost_lt (n : Nat) (q : Bool) (d : List Byte) (s : State) : (mbPost n q d s).lt = s.lt := by
  obtain ⟨e, m, r, u, x, h⟩ := mbPost_eq n q d s; rw [h]
@[simp] theorem mbPost_cal (n : Nat) (q : Bool) (d : List Byte) (s : State) : (mbPost n q d s).cal = s.cal := by
  obtain ⟨e, m, r, u, x, h⟩ := mbPost_eq n q d s; rw [h]
@[simp] theorem mbPost_strobes (n : Nat) (q : Bool) (d : List Byte) (s : State) : (mbPost n q d s).strobes = s.strobes := by
  obtain ⟨e, m, r, u, x, h⟩ := mbPost_eq n q d s; rw [h]
@[simp] theorem mbPost_ports (n : Nat) (q : Bool) (d : List Byte) (s : State) : (mbPost n q d s).ports = s.ports := by
  obtain ⟨e, m, r, u, x, h⟩ := mbPost_eq n q d s; rw [h]
@[simp] theorem mbPost_streams (n : Nat) (q : Bool) (d : List Byte) (s : State) : (mbPost n q d s).streams = s.streams := by
  obtain ⟨e, m, r, u, x, h⟩ := mbPost_eq n q d s; rw [h]
@[simp] theorem mbPost_cols (n : Nat) (q : Bool) (d : List Byte) (s : State) : (mbPost n q d s).cols = s.cols := by
  obtain ⟨e, m, r, u, x, h⟩ := mbPost_eq n q d s; rw [h]
@[simp] theorem mbPost_mem (n : Nat) (q : Bool) (d : List Byte) (s : State) : (mbPost n q d s).mem = s.mem := by
  obtain ⟨e, m, r, u, x, h⟩ := mbPost_eq n q d s; rw [h]
@[simp] theorem mbPost_ecc (n : Nat) (q : Bool) (d : List Byte) (s : State) : (mbPost n q d s).ecc = s.ecc := by
  obtain ⟨e, m, r, u, x, h⟩ := mbPost_eq n q d s; rw [h]
@[simp] theorem mbPost_groups (n : Nat) (q : Bool) (d : List Byte) (s : State) : (mbPost n q d s).groups = s.groups := by
  obtain ⟨e, m, r, u, x, h⟩ := mbPost_eq n q d s; rw [h]
@[simp] theorem mbPost_autowake (n : Nat) (q : Bool) (d : List Byte) (s : State) : (mbPost n q d s).autowake = s.autowake := by
  obtain ⟨e, m, r, u, x, h⟩ := mbPost_eq n q d s; rw [h]
@[simp] theorem mbPost_bankMap (n : Nat) (q : Bool) (d : List Byte) (s : State) : (mbPost n q d s).bankMap = s.bankMap := by
  obtain ⟨e, m, r, u, x, h⟩ := mbPost_eq n q d s; rw [h]
@[simp] theorem mbPost_bankOut (n : Nat) (q : Bool) (d : List Byte) (s : State) : (mbPost n q d s).bankOut = s.bankOut := by
  obtain ⟨e, m, r, u, x, h⟩ := mbPost_eq n q d s; rw [h]
@[simp] theorem mbPost_copy (n : Nat) (q : Bool) (d : List Byte) (s : State) : (mbPost n q d s).copy = s.copy := by
  obtain ⟨e, m, r, u, x, h⟩ := mbPost_eq n q d s; rw [h]
@[simp] theorem mbPost_limp (n : Nat) (q : Bool) (d : List Byte) (s : State) : (mbPost n q d s).limp = s.limp := by
  obtain ⟨e, m, r, u, x, h⟩ := mbPost_eq n q d s; rw [h]
@[simp] theorem mbPost_handles (n : Nat) (q : Bool) (d : List Byte) (s : State) : (mbPost n q d s).handles = s.handles := by
  obtain ⟨e, m, r, u, x, h⟩ := mbPost_eq n q d s; rw [h]
@[simp] theorem mbPost_reloc (n : Nat) (q : Bool) (d : List Byte) (s : State) : (mbPost n q d s).reloc = s.reloc := by
  obtain ⟨e, m, r, u, x, h⟩ := mbPost_eq n q d s; rw [h]
@[simp] theorem mbPost_sems (n : Nat) (q : Bool) (d : List Byte) (s : State) : (mbPost n q d s).sems = s.sems := by
  obtain ⟨e, m, r, u, x, h⟩ := mbPost_eq n q d s; rw [h]
@[simp] theorem mbPost_arrivals (n : Nat) (q : Bool) (d : List Byte) (s : State) : (mbPost n q d s).arrivals = s.arrivals := by
  obtain ⟨e, m, r, u, x, h⟩ := mbPost_eq n q d s; rw [h]
@[simp] theorem mbPost_rings (n : Nat) (q : Bool) (d : List Byte) (s : State) : (mbPost n q d s).rings = s.rings := by
  obtain ⟨e, m, r, u, x, h⟩ := mbPost_eq n q d s; rw [h]
@[simp] theorem mbPost_windows (n : Nat) (q : Bool) (d : List Byte) (s : State) : (mbPost n q d s).windows = s.windows := by
  obtain ⟨e, m, r, u, x, h⟩ := mbPost_eq n q d s; rw [h]
@[simp] theorem mbPost_tokens (n : Nat) (q : Bool) (d : List Byte) (s : State) : (mbPost n q d s).tokens = s.tokens := by
  obtain ⟨e, m, r, u, x, h⟩ := mbPost_eq n q d s; rw [h]
@[simp] theorem mbPost_lastRefill (n : Nat) (q : Bool) (d : List Byte) (s : State) : (mbPost n q d s).lastRefill = s.lastRefill := by
  obtain ⟨e, m, r, u, x, h⟩ := mbPost_eq n q d s; rw [h]
@[simp] theorem mbPost_cores (n : Nat) (q : Bool) (d : List Byte) (s : State) : (mbPost n q d s).cores = s.cores := by
  obtain ⟨e, m, r, u, x, h⟩ := mbPost_eq n q d s; rw [h]
@[simp] theorem mbPost_coreMap (n : Nat) (q : Bool) (d : List Byte) (s : State) : (mbPost n q d s).coreMap = s.coreMap := by
  obtain ⟨e, m, r, u, x, h⟩ := mbPost_eq n q d s; rw [h]
@[simp] theorem mbPost_near (n : Nat) (q : Bool) (d : List Byte) (s : State) : (mbPost n q d s).near = s.near := by
  obtain ⟨e, m, r, u, x, h⟩ := mbPost_eq n q d s; rw [h]
@[simp] theorem mbPost_nearEcc (n : Nat) (q : Bool) (d : List Byte) (s : State) : (mbPost n q d s).nearEcc = s.nearEcc := by
  obtain ⟨e, m, r, u, x, h⟩ := mbPost_eq n q d s; rw [h]
@[simp] theorem mbPost_accs (n : Nat) (q : Bool) (d : List Byte) (s : State) : (mbPost n q d s).accs = s.accs := by
  obtain ⟨e, m, r, u, x, h⟩ := mbPost_eq n q d s; rw [h]
@[simp] theorem mbPost_tcache (n : Nat) (q : Bool) (d : List Byte) (s : State) : (mbPost n q d s).tcache = s.tcache := by
  obtain ⟨e, m, r, u, x, h⟩ := mbPost_eq n q d s; rw [h]
@[simp] theorem mbPost_fcache (n : Nat) (q : Bool) (d : List Byte) (s : State) : (mbPost n q d s).fcache = s.fcache := by
  obtain ⟨e, m, r, u, x, h⟩ := mbPost_eq n q d s; rw [h]
@[simp] theorem mbPost_useCount (n : Nat) (q : Bool) (d : List Byte) (s : State) : (mbPost n q d s).useCount = s.useCount := by
  obtain ⟨e, m, r, u, x, h⟩ := mbPost_eq n q d s; rw [h]
@[simp] theorem mbPost_fcBuffer (n : Nat) (q : Bool) (d : List Byte) (s : State) : (mbPost n q d s).fcBuffer = s.fcBuffer := by
  obtain ⟨e, m, r, u, x, h⟩ := mbPost_eq n q d s; rw [h]
@[simp] theorem mbPost_rangeOps (n : Nat) (q : Bool) (d : List Byte) (s : State) : (mbPost n q d s).rangeOps = s.rangeOps := by
  obtain ⟨e, m, r, u, x, h⟩ := mbPost_eq n q d s; rw [h]
@[simp] theorem mbPost_pinWin (n : Nat) (q : Bool) (d : List Byte) (s : State) : (mbPost n q d s).pinWin = s.pinWin := by
  obtain ⟨e, m, r, u, x, h⟩ := mbPost_eq n q d s; rw [h]
@[simp] theorem mbPost_pinNow (n : Nat) (q : Bool) (d : List Byte) (s : State) : (mbPost n q d s).pinNow = s.pinNow := by
  obtain ⟨e, m, r, u, x, h⟩ := mbPost_eq n q d s; rw [h]
@[simp] theorem mbPost_models (n : Nat) (q : Bool) (d : List Byte) (s : State) : (mbPost n q d s).models = s.models := by
  obtain ⟨e, m, r, u, x, h⟩ := mbPost_eq n q d s; rw [h]
@[simp] theorem mbPost_coreSets (n : Nat) (q : Bool) (d : List Byte) (s : State) : (mbPost n q d s).coreSets = s.coreSets := by
  obtain ⟨e, m, r, u, x, h⟩ := mbPost_eq n q d s; rw [h]
@[simp] theorem mbPost_sgroups (n : Nat) (q : Bool) (d : List Byte) (s : State) : (mbPost n q d s).sgroups = s.sgroups := by
  obtain ⟨e, m, r, u, x, h⟩ := mbPost_eq n q d s; rw [h]
@[simp] theorem mbPost_ops (n : Nat) (q : Bool) (d : List Byte) (s : State) : (mbPost n q d s).ops = s.ops := by
  obtain ⟨e, m, r, u, x, h⟩ := mbPost_eq n q d s; rw [h]
@[simp] theorem mbPost_opNext (n : Nat) (q : Bool) (d : List Byte) (s : State) : (mbPost n q d s).opNext = s.opNext := by
  obtain ⟨e, m, r, u, x, h⟩ := mbPost_eq n q d s; rw [h]
@[simp] theorem mbPost_dma (n : Nat) (q : Bool) (d : List Byte) (s : State) : (mbPost n q d s).dma = s.dma := by
  obtain ⟨e, m, r, u, x, h⟩ := mbPost_eq n q d s; rw [h]
@[simp] theorem mbPost_dmaBusy (n : Nat) (q : Bool) (d : List Byte) (s : State) : (mbPost n q d s).dmaBusy = s.dmaBusy := by
  obtain ⟨e, m, r, u, x, h⟩ := mbPost_eq n q d s; rw [h]
@[simp] theorem mbPost_harts (n : Nat) (q : Bool) (d : List Byte) (s : State) : (mbPost n q d s).harts = s.harts := by
  obtain ⟨e, m, r, u, x, h⟩ := mbPost_eq n q d s; rw [h]
@[simp] theorem mbPost_l2 (n : Nat) (q : Bool) (d : List Byte) (s : State) : (mbPost n q d s).l2 = s.l2 := by
  obtain ⟨e, m, r, u, x, h⟩ := mbPost_eq n q d s; rw [h]
@[simp] theorem mbPost_evOwner (n : Nat) (q : Bool) (d : List Byte) (s : State) : (mbPost n q d s).evOwner = s.evOwner := by
  obtain ⟨e, m, r, u, x, h⟩ := mbPost_eq n q d s; rw [h]
@[simp] theorem mbPost_flash (n : Nat) (q : Bool) (d : List Byte) (s : State) : (mbPost n q d s).flash = s.flash := by
  obtain ⟨e, m, r, u, x, h⟩ := mbPost_eq n q d s; rw [h]
@[simp] theorem mbPost_pwr (n : Nat) (q : Bool) (d : List Byte) (s : State) : (mbPost n q d s).pwr = s.pwr := by
  obtain ⟨e, m, r, u, x, h⟩ := mbPost_eq n q d s; rw [h]
@[simp] theorem mbPost_jtag (n : Nat) (q : Bool) (d : List Byte) (s : State) : (mbPost n q d s).jtag = s.jtag := by
  obtain ⟨e, m, r, u, x, h⟩ := mbPost_eq n q d s; rw [h]

/-! ## What the mailboxes keep when a response is posted -/

theorem mbMod_field {β : Type} {g : Mailbox → β} {n : Nat} {f : Mailbox → Mailbox} (hf : ∀ m, g (f m) = g m) (s : State)
    (j : Nat) : g (mbOf (mbMod n f s) j) = g (mbOf s j) := by
  unfold mbOf mbMod
  by_cases h : j = n
  · subst h; simp [hf]
  · simp [tabGet_tabMod_other _ _ _ h]

/-- A field of a mailbox that filling its request buffer and ringing its doorbell leave alone. -/
def Steady {β : Type} (g : Mailbox → β) : Prop := ∀ m r o, g { m with req := r } = g m ∧ g { m with order := o } = g m

theorem steady_record : Steady (·.record) := fun _ _ _ => ⟨rfl, rfl⟩
theorem steady_rsp : Steady (·.rsp) := fun _ _ _ => ⟨rfl, rfl⟩

section
variable {β : Type} {g : Mailbox → β} (hg : Steady g)
include hg

theorem mbFill_steady (n o : Nat) (d : List Byte) (s : State) (j : Nat) : g (mbOf (mbFill n o d s) j) = g (mbOf s j) := by
  unfold mbFill
  split
  · exact mbMod_field (fun m => (hg m _ 0).1) _ _
  · rfl

theorem mbGo_steady (n : Nat) (s : State) (j : Nat) : g (mbOf (mbGo n s) j) = g (mbOf s j) := by
  unfold mbGo
  split
  · exact mbMod_field (fun m => (hg m m.req _).2) _ _
  · rfl

theorem relayNext_steady (s : State) (j : Nat) : g (mbOf (relayNext s) j) = g (mbOf s j) := by
  unfold relayNext
  split
  · split
    · rw [mbGo_steady hg, mbFill_steady hg]; rfl
    · rfl
  · rfl

theorem relayBack_steady (src : Nat) (d : List Byte) (s : State) (j : Nat) :
    g (mbOf (relayBack src d s) j) = g (mbOf s j) := by
  have h : ∀ s : State, mbOf (relayDone src d s) j = mbOf s j := by
    intro s
    unfold relayDone longDoneAt
    split
    · rfl
    · dsimp only; split <;> rfl
  unfold relayBack
  dsimp only
  rw [relayNext_steady hg]
  split
  · rw [h]; rfl
  · rfl

/-- Posting a response only fills the response buffer, as far as such a field goes. -/
theorem mbPost_steady (n : Nat) (q : Bool) (d : List Byte) (s : State) (j : Nat) :
    g (mbOf (mbPost n q d s) j) = g (mbOf (mbMod n (fun m => { m with rsp := d }) s) j) := by
  have h1 : ∀ t : State, mbOf (if q then t else regOr (mbBase n + 0x104) 8 t) j = mbOf t j := by
    intro t; split <;> rfl
  have h2 : ∀ (t : State) (c : Bool) (x : Emit), mbOf (if c then emit x t else t) j = mbOf t j := by
    intro t c x; split <;> rfl
  unfold mbPost
  dsimp only
  split
  · rw [relayBack_steady hg, h2, h1]; rfl
  · rw [h2, h1]; rfl

end

/-- What a posted and committed answer leaves in its mailbox (R691, R698). -/
theorem mbPost_answered (op status : Nat) (data : List Byte) (h : Hdr) (q : Bool) (s : State)
    (hr : (mbOf s h.mb).record = msgBytes op h.seq.toNat status data) :
    Answered op status data h (mbPost h.mb q (msgBytes op h.seq.toNat status data) s) := by
  refine ⟨?_, ?_⟩
  · rw [mbPost_steady steady_record]
    exact (mbMod_field (g := (·.record)) (f := fun m => { m with rsp := msgBytes op h.seq.toNat status data }) (fun _ => rfl) _ _).trans hr
  · rw [mbPost_steady steady_rsp]; simp [mbOf, mbMod]

/-! ## A command row -/

/-- The state after a commit (R698), before the response is posted. -/
def committed (op status : Nat) (data : List Byte) (h : Hdr) (s : State) : State :=
  mbMod h.mb (fun m => { m with record := msgBytes op h.seq.toNat status data })
    (regSet (mbBase h.mb + 0x108) (w32 h.seq.toNat) s)

theorem mbCommit_eq (op status : Nat) (data : List Byte) (h : Hdr) (s : State) :
    mbCommit h op status data s = (committed op status data h s, msgBytes op h.seq.toNat status data) := rfl

@[simp] theorem committed_pending (op st : Nat) (d : List Byte) (h : Hdr) (s : State) : (committed op st d h s).pending = s.pending := by simp [committed]
@[simp] theorem committed_free (op st : Nat) (d : List Byte) (h : Hdr) (s : State) : (committed op st d h s).free = s.free := by simp [committed]
@[simp] theorem committed_ts (op st : Nat) (d : List Byte) (h : Hdr) (s : State) : (committed op st d h s).ts = s.ts := by simp [committed]
@[simp] theorem committed_latches (op st : Nat) (d : List Byte) (h : Hdr) (s : State) : (committed op st d h s).latches = s.latches := by simp [committed]
@[simp] theorem committed_staging (op st : Nat) (d : List Byte) (h : Hdr) (s : State) : (committed op st d h s).staging = s.staging := by simp [committed]
@[simp] theorem committed_replies (op st : Nat) (d : List Byte) (h : Hdr) (s : State) : (committed op st d h s).replies = s.replies := by simp [committed]
@[simp] theorem committed_emitted (op st : Nat) (d : List Byte) (h : Hdr) (s : State) : (committed op st d h s).emitted = s.emitted := by simp [committed]
@[simp] theorem committed_irqArmed (op st : Nat) (d : List Byte) (h : Hdr) (s : State) : (committed op st d h s).irqArmed = s.irqArmed := by simp [committed]
@[simp] theorem committed_msix (op st : Nat) (d : List Byte) (h : Hdr) (s : State) : (committed op st d h s).msix = s.msix := by simp [committed]
@[simp] theorem committed_pba (op st : Nat) (d : List Byte) (h : Hdr) (s : State) : (committed op st d h s).pba = s.pba := by simp [committed]
@[simp] theorem committed_funcMask (op st : Nat) (d : List Byte) (h : Hdr) (s : State) : (committed op st d h s).funcMask = s.funcMask := by simp [committed]
@[simp] theorem committed_tic (op st : Nat) (d : List Byte) (h : Hdr) (s : State) : (committed op st d h s).tic = s.tic := by simp [committed]
@[simp] theorem committed_log (op st : Nat) (d : List Byte) (h : Hdr) (s : State) : (committed op st d h s).log = s.log := by simp [committed]
@[simp] theorem committed_lastCe (op st : Nat) (d : List Byte) (h : Hdr) (s : State) : (committed op st d h s).lastCe = s.lastCe := by simp [committed]
@[simp] theorem committed_lt (op st : Nat) (d : List Byte) (h : Hdr) (s : State) : (committed op st d h s).lt = s.lt := by simp [committed]
@[simp] theorem committed_cal (op st : Nat) (d : List Byte) (h : Hdr) (s : State) : (committed op st d h s).cal = s.cal := by simp [committed]
@[simp] theorem committed_strobes (op st : Nat) (d : List Byte) (h : Hdr) (s : State) : (committed op st d h s).strobes = s.strobes := by simp [committed]
@[simp] theorem committed_ports (op st : Nat) (d : List Byte) (h : Hdr) (s : State) : (committed op st d h s).ports = s.ports := by simp [committed]
@[simp] theorem committed_streams (op st : Nat) (d : List Byte) (h : Hdr) (s : State) : (committed op st d h s).streams = s.streams := by simp [committed]
@[simp] theorem committed_cols (op st : Nat) (d : List Byte) (h : Hdr) (s : State) : (committed op st d h s).cols = s.cols := by simp [committed]
@[simp] theorem committed_mem (op st : Nat) (d : List Byte) (h : Hdr) (s : State) : (committed op st d h s).mem = s.mem := by simp [committed]
@[simp] theorem committed_ecc (op st : Nat) (d : List Byte) (h : Hdr) (s : State) : (committed op st d h s).ecc = s.ecc := by simp [committed]
@[simp] theorem committed_groups (op st : Nat) (d : List Byte) (h : Hdr) (s : State) : (committed op st d h s).groups = s.groups := by simp [committed]
@[simp] theorem committed_autowake (op st : Nat) (d : List Byte) (h : Hdr) (s : State) : (committed op st d h s).autowake = s.autowake := by simp [committed]
@[simp] theorem committed_bankMap (op st : Nat) (d : List Byte) (h : Hdr) (s : State) : (committed op st d h s).bankMap = s.bankMap := by simp [committed]
@[simp] theorem committed_bankOut (op st : Nat) (d : List Byte) (h : Hdr) (s : State) : (committed op st d h s).bankOut = s.bankOut := by simp [committed]
@[simp] theorem committed_copy (op st : Nat) (d : List Byte) (h : Hdr) (s : State) : (committed op st d h s).copy = s.copy := by simp [committed]
@[simp] theorem committed_limp (op st : Nat) (d : List Byte) (h : Hdr) (s : State) : (committed op st d h s).limp = s.limp := by simp [committed]
@[simp] theorem committed_handles (op st : Nat) (d : List Byte) (h : Hdr) (s : State) : (committed op st d h s).handles = s.handles := by simp [committed]
@[simp] theorem committed_reloc (op st : Nat) (d : List Byte) (h : Hdr) (s : State) : (committed op st d h s).reloc = s.reloc := by simp [committed]
@[simp] theorem committed_sems (op st : Nat) (d : List Byte) (h : Hdr) (s : State) : (committed op st d h s).sems = s.sems := by simp [committed]
@[simp] theorem committed_arrivals (op st : Nat) (d : List Byte) (h : Hdr) (s : State) : (committed op st d h s).arrivals = s.arrivals := by simp [committed]
@[simp] theorem committed_rings (op st : Nat) (d : List Byte) (h : Hdr) (s : State) : (committed op st d h s).rings = s.rings := by simp [committed]
@[simp] theorem committed_windows (op st : Nat) (d : List Byte) (h : Hdr) (s : State) : (committed op st d h s).windows = s.windows := by simp [committed]
@[simp] theorem committed_tokens (op st : Nat) (d : List Byte) (h : Hdr) (s : State) : (committed op st d h s).tokens = s.tokens := by simp [committed]
@[simp] theorem committed_lastRefill (op st : Nat) (d : List Byte) (h : Hdr) (s : State) : (committed op st d h s).lastRefill = s.lastRefill := by simp [committed]
@[simp] theorem committed_cores (op st : Nat) (d : List Byte) (h : Hdr) (s : State) : (committed op st d h s).cores = s.cores := by simp [committed]
@[simp] theorem committed_coreMap (op st : Nat) (d : List Byte) (h : Hdr) (s : State) : (committed op st d h s).coreMap = s.coreMap := by simp [committed]
@[simp] theorem committed_near (op st : Nat) (d : List Byte) (h : Hdr) (s : State) : (committed op st d h s).near = s.near := by simp [committed]
@[simp] theorem committed_nearEcc (op st : Nat) (d : List Byte) (h : Hdr) (s : State) : (committed op st d h s).nearEcc = s.nearEcc := by simp [committed]
@[simp] theorem committed_accs (op st : Nat) (d : List Byte) (h : Hdr) (s : State) : (committed op st d h s).accs = s.accs := by simp [committed]
@[simp] theorem committed_tcache (op st : Nat) (d : List Byte) (h : Hdr) (s : State) : (committed op st d h s).tcache = s.tcache := by simp [committed]
@[simp] theorem committed_fcache (op st : Nat) (d : List Byte) (h : Hdr) (s : State) : (committed op st d h s).fcache = s.fcache := by simp [committed]
@[simp] theorem committed_useCount (op st : Nat) (d : List Byte) (h : Hdr) (s : State) : (committed op st d h s).useCount = s.useCount := by simp [committed]
@[simp] theorem committed_fcBuffer (op st : Nat) (d : List Byte) (h : Hdr) (s : State) : (committed op st d h s).fcBuffer = s.fcBuffer := by simp [committed]
@[simp] theorem committed_rangeOps (op st : Nat) (d : List Byte) (h : Hdr) (s : State) : (committed op st d h s).rangeOps = s.rangeOps := by simp [committed]
@[simp] theorem committed_pinWin (op st : Nat) (d : List Byte) (h : Hdr) (s : State) : (committed op st d h s).pinWin = s.pinWin := by simp [committed]
@[simp] theorem committed_pinNow (op st : Nat) (d : List Byte) (h : Hdr) (s : State) : (committed op st d h s).pinNow = s.pinNow := by simp [committed]
@[simp] theorem committed_models (op st : Nat) (d : List Byte) (h : Hdr) (s : State) : (committed op st d h s).models = s.models := by simp [committed]
@[simp] theorem committed_coreSets (op st : Nat) (d : List Byte) (h : Hdr) (s : State) : (committed op st d h s).coreSets = s.coreSets := by simp [committed]
@[simp] theorem committed_sgroups (op st : Nat) (d : List Byte) (h : Hdr) (s : State) : (committed op st d h s).sgroups = s.sgroups := by simp [committed]
@[simp] theorem committed_ops (op st : Nat) (d : List Byte) (h : Hdr) (s : State) : (committed op st d h s).ops = s.ops := by simp [committed]
@[simp] theorem committed_opNext (op st : Nat) (d : List Byte) (h : Hdr) (s : State) : (committed op st d h s).opNext = s.opNext := by simp [committed]
@[simp] theorem committed_dma (op st : Nat) (d : List Byte) (h : Hdr) (s : State) : (committed op st d h s).dma = s.dma := by simp [committed]
@[simp] theorem committed_dmaBusy (op st : Nat) (d : List Byte) (h : Hdr) (s : State) : (committed op st d h s).dmaBusy = s.dmaBusy := by simp [committed]
@[simp] theorem committed_harts (op st : Nat) (d : List Byte) (h : Hdr) (s : State) : (committed op st d h s).harts = s.harts := by simp [committed]
@[simp] theorem committed_l2 (op st : Nat) (d : List Byte) (h : Hdr) (s : State) : (committed op st d h s).l2 = s.l2 := by simp [committed]
@[simp] theorem committed_evOwner (op st : Nat) (d : List Byte) (h : Hdr) (s : State) : (committed op st d h s).evOwner = s.evOwner := by simp [committed]
@[simp] theorem committed_sup (op st : Nat) (d : List Byte) (h : Hdr) (s : State) : (committed op st d h s).sup = s.sup := by simp [committed]
@[simp] theorem committed_flash (op st : Nat) (d : List Byte) (h : Hdr) (s : State) : (committed op st d h s).flash = s.flash := by simp [committed]
@[simp] theorem committed_xk (op st : Nat) (d : List Byte) (h : Hdr) (s : State) : (committed op st d h s).xk = s.xk := by simp [committed]
@[simp] theorem committed_pwr (op st : Nat) (d : List Byte) (h : Hdr) (s : State) : (committed op st d h s).pwr = s.pwr := by simp [committed]
@[simp] theorem committed_jtag (op st : Nat) (d : List Byte) (h : Hdr) (s : State) : (committed op st d h s).jtag = s.jtag := by simp [committed]

theorem committed_record (op status : Nat) (data : List Byte) (h : Hdr) (s : State) :
    (mbOf (committed op status data h s) h.mb).record = msgBytes op h.seq.toNat status data := by
  simp [committed, mbOf, mbMod]

/-- A request that is served and ends with OK: the command's own state, committed and answered. -/
theorem cmdRow_ok {op : Nat} {right : Option Nat} {f : CmdFun} {h : Hdr} {p : List Byte} {s s' : State} {data : List Byte}
    (hs : Served right h p s) (hf : f h p s = .ok s' data) (hq : Calm s') :
    cmdRow op right f h p s =
      mbPost h.mb (bitAt h.flags.toNat 0) (msgBytes op h.seq.toNat 0 data) (committed op 0 data h s') := by
  obtain ⟨h1, h2, h3, h4⟩ := hs
  have hlen : ¬ 248 < p.length := by omega
  have e : cmdRow op right f h p s = schedTick (mbPost h.mb (bitAt h.flags.toNat 0) (msgBytes op h.seq.toNat 0 data)
      (committed op 0 data h s')) := by
    simp [cmdRow, h1, serveOne, serveCommit, hlen, serveChecked, h3, h4, hf, mbCommit_eq]
  rw [e, schedTick_calm]
  exact ⟨by simpa using hq.1, by simpa using hq.2⟩

/-- A request that is served and accepted as a long command. -/
theorem cmdRow_accepted {op : Nat} {right : Option Nat} {f : CmdFun} {h : Hdr} {p : List Byte} {s s' : State}
    (hs : Served right h p s) (hf : f h p s = .accepted s') (hq : Calm s') :
    cmdRow op right f h p s =
      mbPost h.mb (bitAt h.flags.toNat 0) (msgBytes op h.seq.toNat 1 []) (committed op 1 [] h s') := by
  obtain ⟨h1, h2, h3, h4⟩ := hs
  have hlen : ¬ 248 < p.length := by omega
  have e : cmdRow op right f h p s = schedTick (mbPost h.mb (bitAt h.flags.toNat 0) (msgBytes op h.seq.toNat 1 [])
      (committed op 1 [] h s')) := by
    simp [cmdRow, h1, serveOne, serveCommit, hlen, serveChecked, h3, h4, hf, mbCommit_eq]
  rw [e, schedTick_calm]
  exact ⟨by simpa using hq.1, by simpa using hq.2⟩

/-- The outcome of a served command that ends with OK. -/
theorem answered_ok {op : Nat} {right : Option Nat} {f : CmdFun} {h : Hdr} {p : List Byte} {s s' : State} {data : List Byte}
    (hs : Served right h p s) (hf : f h p s = .ok s' data) (hq : Calm s') :
    Answered op 0 data h (settle (cmdRow op right f h p s)) := by
  rw [cmdRow_ok hs hf hq]
  have e := mbPost_answered op 0 data h (bitAt h.flags.toNat 0) _ (committed_record op 0 data h s')
  unfold Answered mbOf at e ⊢
  rwa [settle_mboxes]

/-- The outcome of a served long command. -/
theorem answered_accepted {op : Nat} {right : Option Nat} {f : CmdFun} {h : Hdr} {p : List Byte} {s s' : State}
    (hs : Served right h p s) (hf : f h p s = .accepted s') (hq : Calm s') :
    Answered op 1 [] h (settle (cmdRow op right f h p s)) := by
  rw [cmdRow_accepted hs hf hq]
  have e := mbPost_answered op 1 [] h (bitAt h.flags.toNat 0) _ (committed_record op 1 [] h s')
  unfold Answered mbOf at e ⊢
  rwa [settle_mboxes]

/-! ## Long commands that run -/

theorem longDoneAt_runs {op : Nat} {h : Hdr} {p : List Byte} {s : State} (k st d : Nat) (r : List Byte)
    (hl : LongRuns op h p s) : LongRuns op h p (longDoneAt k st d r s) := by
  obtain ⟨k', l, hk, ho⟩ := hl
  unfold longDoneAt
  split
  · rename_i l' hl'
    by_cases e : k' = k
    · subst e
      rw [hl'] at hk; cases hk
      exact ⟨k', _, tabGet?_tabSet_self _ _ _, ho⟩
    · exact ⟨k', l, by simp [tabGet?_tabSet, e, hk], ho⟩
  · exact ⟨k', l, hk, ho⟩

theorem relayNext_longs (s : State) : (relayNext s).sup.longs = s.sup.longs := by
  unfold relayNext
  split
  · split
    · unfold mbGo mbFill; (repeat' split) <;> rfl
    · rfl
  · rfl

theorem relayBack_runs {op : Nat} {h : Hdr} {p : List Byte} {s : State} (src : Nat) (d : List Byte)
    (hl : LongRuns op h p s) : LongRuns op h p (relayBack src d s) := by
  have hx : LongRuns op h p (xkMod (fun x => { x with relayBusy := none }) s) := hl
  unfold relayBack
  dsimp only
  unfold LongRuns
  rw [relayNext_longs]
  split
  · show LongRuns op h p _
    unfold relayDone
    split
    · exact hx
    · exact longDoneAt_runs _ _ _ _ hx
  · exact hx

theorem mbPost_runs {op : Nat} {h : Hdr} {p : List Byte} {s : State} (n : Nat) (q : Bool) (d : List Byte)
    (hl : LongRuns op h p s) : LongRuns op h p (mbPost n q d s) := by
  have h1 : ∀ t : State, LongRuns op h p t → LongRuns op h p (if q then t else regOr (mbBase n + 0x104) 8 t) := by
    intro t ht; split <;> exact ht
  have h2 : ∀ (t : State) (c : Bool) (x : Emit), LongRuns op h p t → LongRuns op h p (if c then emit x t else t) := by
    intro t c x ht; split <;> exact ht
  have h0 : LongRuns op h p (regField (mbBase n + 0x104) 0 3 3 (mbMod n (fun m => { m with rsp := d }) s)) := hl
  unfold mbPost
  dsimp only
  split
  · exact relayBack_runs _ _ (h2 _ _ _ (h1 _ h0))
  · exact h2 _ _ _ (h1 _ h0)

/-- A served long command runs until its completion. -/
theorem runs_accepted {op : Nat} {right : Option Nat} {f : CmdFun} {h : Hdr} {p : List Byte} {s s' : State}
    (hs : Served right h p s) (hf : f h p s = .accepted s') (hq : Calm s') (hl : LongRuns op h p s') :
    LongRuns op h p (settle (cmdRow op right f h p s)) := by
  rw [cmdRow_accepted hs hf hq]
  unfold LongRuns
  rw [settle_sup]
  exact mbPost_runs _ _ _ hl

/-- Accepting a command enters it. -/
theorem accept_runs (h : Hdr) (op obj : Nat) (p : List Byte) (dl : Option Nat) (aux : Nat) (s : State) :
    LongRuns op h p (accept h op obj p dl aux s).1 :=
  ⟨s.sup.nextCmd, _, tabGet?_tabSet_self _ _ _, rfl, rfl, rfl, rfl⟩

end Sys2Proof.Machine
end

