-- ==== Sys2Proof/Laws/Mem.lean ====
section
/-! SUPPORT. The memories: what a write reads back as, and that every operation on a memory keeps its canonical form. -/

namespace Sys2Proof.Machine

open Sys2Proof

/-! ## Read after write -/

theorem tabGet_cellsWrite (a : Nat) (d : List Byte) (t : Tab Byte) (j : Nat) :
    tabGet 0 (cellsWrite a d t) j = if a ≤ j ∧ j < a + d.length then d.getD (j - a) 0 else tabGet 0 t j := by
  induction d generalizing a t with
  | nil => rw [cellsWrite, if_neg (by simp)]
  | cons b d ih =>
    rw [cellsWrite, ih]
    by_cases h : a + 1 ≤ j ∧ j < a + 1 + d.length
    · have e : j - a = (j - (a + 1)) + 1 := by omega
      rw [if_pos h, if_pos (by simp; omega), e, List.getD_cons_succ]
    · rw [if_neg h, tabGet_tabPut]
      by_cases k : j = a
      · subst k; simp
      · rw [if_neg k, if_neg (by simp; omega)]

/-- A byte of the Deep Store after a write. -/
theorem memByte_memWrite (a : Nat) (d : List Byte) (s : State) (j : Nat) :
    memByte (memWrite a d s) j = if a ≤ j ∧ j < a + d.length then d.getD (j - a) 0 else memByte s j :=
  tabGet_cellsWrite a d s.mem j

/-! ## The canonical form -/

theorem tabWf_cellsWrite (a : Nat) (d : List Byte) (t : Tab Byte) (h : tabWf 0 t = true) :
    tabWf 0 (cellsWrite a d t) = true := by
  induction d generalizing a t with
  | nil => exact h
  | cons b d ih => exact ih _ _ (tabWf_tabPut _ _ _ _ h)

theorem tabWf_flashCells (a : Nat) (d : List Byte) (t : Tab Byte) (h : tabWf 0xFF t = true) :
    tabWf 0xFF (flashCells a d t) = true := by
  induction d generalizing a t with
  | nil => exact h
  | cons b d ih => exact ih _ _ (tabWf_tabPut _ _ _ _ h)

theorem tabSortedFrom_filter {α : Type} (p : Nat × α → Bool) (t : Tab α) (lo : Nat) (h : tabSortedFrom lo t = true) :
    tabSortedFrom lo (t.filter p) = true := by
  induction t generalizing lo with
  | nil => rfl
  | cons e t ih =>
    obtain ⟨k, v⟩ := e
    simp only [tabSortedFrom, Bool.and_eq_true, decide_eq_true_eq] at h
    by_cases hp : p (k, v) = true
    · rw [List.filter_cons_of_pos hp]
      simp only [tabSortedFrom, Bool.and_eq_true, decide_eq_true_eq]
      exact ⟨h.1, ih _ h.2⟩
    · rw [List.filter_cons_of_neg hp]
      exact ih _ (tabSortedFrom_mono _ (by omega) h.2)

/-- Cells that are erased leave the form. -/
theorem tabWf_filter {α : Type} [DecidableEq α] (d : α) (p : Nat × α → Bool) (t : Tab α) (h : tabWf d t = true) :
    tabWf d (t.filter p) = true := by
  simp only [tabWf, Bool.and_eq_true] at h ⊢
  refine ⟨tabSortedFrom_filter p t 0 h.1, ?_⟩
  rw [List.all_eq_true] at *
  exact fun e he => h.2 e (List.mem_filter.1 he).1

theorem tabWf_tabSet {α : Type} [DecidableEq α] (d : α) (t : Tab α) (k : Nat) (v : α) (hv : v ≠ d) (h : tabWf d t = true) :
    tabWf d (tabSet t k v) = true := by
  simp only [tabWf, Bool.and_eq_true] at h ⊢
  exact ⟨tabSortedFrom_tabSet _ _ _ _ (Nat.zero_le _) h.1, all_tabSet _ _ _ _ hv h.2⟩

/-- So does the move of a relocated buffer. -/
theorem tabWf_tabMove {α : Type} [DecidableEq α] (d : α) (a n b : Nat) (t : Tab α) (h : tabWf d t = true) :
    tabWf d (tabMove a n b t) = true := by
  have key : ∀ (l t' : Tab α), (∀ e ∈ l, e.2 ≠ d) → tabWf d t' = true →
      tabWf d (l.foldl (fun t' e => tabSet t' (b + (e.1 - a)) e.2) t') = true := by
    intro l
    induction l with
    | nil => exact fun _ _ h => h
    | cons e l ih =>
      intro t' hl ht
      exact ih _ (fun x hx => hl x (List.mem_cons_of_mem _ hx))
        (tabWf_tabSet _ _ _ _ (hl e List.mem_cons_self) ht)
  have ha := h
  simp only [tabWf, Bool.and_eq_true, List.all_eq_true, decide_eq_true_eq] at ha
  exact key _ _ (fun e he => ha.2 e (List.mem_filter.1 he).1) (tabWf_filter d _ t h)

theorem wf_memWrite (a : Nat) (d : List Byte) (s : State) (h : Memory.wf 0 s.mem = true) :
    Memory.wf 0 (memWrite a d s).mem = true := tabWf_cellsWrite a d s.mem h

theorem wf_nearWrite (a : Nat) (d : List Byte) (s : State) (h : Memory.wf 0 s.near = true) :
    Memory.wf 0 (cellsWrite a d s.near) = true := tabWf_cellsWrite a d s.near h

theorem wf_flashWrite (a n : Nat) (d : List Byte) (s : State) (h : Memory.wf 0xFF s.flash = true) :
    Memory.wf 0xFF (flashWrite a n d s).flash = true := tabWf_flashCells a d _ (tabWf_filter _ _ _ h)

theorem wf_erase (p : Host.Cell → Bool) (m : List Host.Cell) (h : Memory.wf 0 m = true) :
    Memory.wf 0 (m.filter p) = true := tabWf_filter 0 p m h

theorem wf_move (a n b : Nat) (m : List Host.Cell) (h : Memory.wf 0 m = true) :
    Memory.wf 0 (tabMove a n b m) = true := tabWf_tabMove 0 a n b m h

theorem wf_reset :
    Memory.wf 0 State.reset.mem = true ∧ Memory.wf 0 State.reset.near = true ∧ Memory.wf 0xFF State.reset.flash = true :=
  ⟨rfl, rfl, rfl⟩

end Sys2Proof.Machine
end

