-- ==== Sys2Proof/WellFormed.lean ====
section
/-! DEFINITION. Which commands are well formed, where the types of their operands do not say it already: sizes of
accesses and the data that belongs to them, lengths of payloads, frames and tables. The meanings are total, so a
command that breaks one of these is not refused by `exec`; it stands for something that cannot reach the block. -/

namespace Sys2Proof

/-- Sizes that a fabric access can have: 1, 2, 4 or 8 B narrow, 64 B wide (R225, R226). An access of another size or
alignment is well formed too: the block answers it with ALIGN. What must hold is that a write brings its bytes. -/
def dsReqOk (a : DsReq) : Bool :=
  decide (a.tag < 64) && (!a.write || decide (a.data.length = a.size)) && decide (a.size ≤ 64)

/-- A supervisor payload fits the buffer (R691). -/
def payloadOk (p : List Byte) : Bool := decide (p.length ≤ 248)

/-- A stream packet: the longest line of R166 and R170 packs into 2^18 bytes. -/
def pktOk (k : StreamPkt) : Bool := decide (k.first + k.payload.length ≤ 2 ^ 18)

/-- Well-formedness of a command. -/
def wellFormed : Instr → Bool
  | .deepStoreAccess a => dsReqOk a
  | .fabricTimeout a => dsReqOk a
  | .farAccess a => dsReqOk a
  | .hostBar2Read a n => decide (a + n ≤ 2 ^ 30)
  | .hostBar2Write a d => decide (a + d.length ≤ 2 ^ 30)
  | .streamPacket _ _ k _ => pktOk k
  | .discoveryDone _ l _ => decide (l.length ≤ 4)
  | .thermalSample l _ => decide (l.length = 8)
  | .detection l _ => decide (l.length = 256)
  | .qualification l _ => decide (l.length ≤ 128 + 12 * 128)
  | .longTrainingSync l _ => decide (l.length ≤ 2000 + 2 * 1024)
  | .headerDecode l _ => decide (1280 ≤ l.length ∧ l.length ≤ 1288)
  | .bodyDecode b l _ => decide (b.length ≤ 8) && decide (l.length ≤ 4095 * 1280 + 8)
  | .statusFrame _ p => decide (p.length = 128)
  | .beacon _ p _ => decide (p.length = 32)
  | .mapFrame _ _ p => decide (p.length = 256)
  | .soundFrame _ l => decide (8 * 1152 ≤ l.length ∧ l.length ≤ 8 * 1280 + 8)
  | .powerGood b _ =>
      b.banks.all (· < 272) && (b.cores.all (· < 68) && b.ports.all (· < 6))
  | .registerWrite _ off size _ => decide (off < 2 ^ 18) && decide (size ≤ 64)
  | .registerRead _ off size => decide (off < 2 ^ 18) && decide (size ≤ 64)
  | .nopCmd _ p | .getInfo _ p | .sysReset _ p | .timeMap _ p | .portSet _ p | .streamSet _ p
  | .streamStart _ p | .streamStop _ p | .colUpload _ p | .camRead _ p | .camWrite _ p | .modelLoad _ p
  | .modelUnload _ p | .modelBindExt _ p | .coresetForm _ p | .coresetDissolve _ p | .groupBind _ p
  | .groupStart _ p | .groupStop _ p | .groupSwap _ p | .groupUnbind _ p | .taskAbort _ p | .epochCancel _ p
  | .handleAlloc _ p | .handleFree _ p | .handleQuery _ p | .handleLock _ p | .handleSet _ p | .compact _ p
  | .semSet _ p | .semQuery _ p | .arrivalBind _ p | .arrivalUnbind _ p | .ringDeclare _ p
  | .ringUndeclare _ p | .ringReset _ p | .fcSize _ p | .bwrSet _ p | .ltSet _ p | .calWrite _ p
  | .calRead _ p | .calDisable _ p | .phaseAdjust _ p | .xkConfig _ p | .xkJoin _ p | .xkLeave _ p
  | .xkSound _ p | .xkRxSet _ p | .xkStats _ p | .xkRelay _ p | .xkModelBcast _ p | .scrubSet _ p
  | .coreDisable _ p | .coreRelease _ p | .coreMap _ p | .bankSpare _ p | .bankTest _ p | .repairRecord _ p
  | .supRelease _ p | .errInject _ p | .dsGroupPower _ p | .corePower _ p | .portPower _ p
  | .trestlePower _ p | .xkPower _ p | .pocxpSet _ p | .thermalSet _ p | .powerStatus _ p | .cfgGet _ p
  | .cfgSet _ p | .cfgCommit _ p | .cfgDiscard _ p | .fwStage _ p | .fwHandover _ p | .trBoot _ p
  | .trHalt _ p | .trEvOwner _ p => payloadOk p
  | _ => true

end Sys2Proof
end

