-- ==== Sys2Proof/Tests/Slice0.lean ====
section
/-! SUPPORT. Tests: well-formedness refuses an ill-formed command for each of its checks, no word decodes, and for every
obligation with hypotheses a theorem `wit_<Name>` that shows, clause by clause, a state and operands that meet all the
hypotheses of the clause. The states are made by the helpers at the start. Each test runs by evaluation in the kernel. -/

set_option maxRecDepth 100000
set_option Elab.async false

namespace Sys2Proof.Tests

open Sys2Proof Sys2Proof.Machine

/-! ## Helpers -/

/-- A working device: TS 1 µs, READY, mailbox 0 with every right and LAST 0xFFFF, every bank group ON, three buffers
(16 KiB for everyone, a 16 KiB ring buffer, one unit that the host may read). -/
def tS : State :=
  { State.reset with
    ts := 1000
    regs := [(0x20, 1), (0x1108, 0xFFFF), (0x110C, 0xFF)]
    groups := (List.range 17).map fun g => (g, .on)
    handles := [(0, { valid := true, units := 4, rights := 15, owner := 0x1FFFFFFF }),
      (1, { valid := true, base := 0x4000, units := 4, rights := 15, owner := 0x1FFFFFFF, ring := true }),
      (2, { valid := true, base := 0x8000, units := 1, rights := 1, owner := 0x1000000 })] }

/-- An operand table entry (R485): AUX is the scale table, none. -/
def tOpd (kind fmt ndim slot elem off : Nat) (counts strides : List Nat) : List Byte :=
  [b8 kind, b8 fmt, 0, b8 ndim] ++ leBytes 2 slot ++ leBytes 2 elem ++ leBytes 4 off ++ counts.flatMap (leBytes 2) ++
    [0xFF, 0xFF] ++ strides.flatMap (leBytes 4)

/-- The operands of the tests: 0 to 2 two BF16 elements of the near store (destination, sources), 3 the parameter block
there, 4 one 64 B element and 5 the statistics of buffer slot 0, 6 one 64 B element of the near store, 7 one INT32 and 8 one
FP32 of buffer slot 0. -/
def tOpds : List Byte :=
  tOpd 3 1 1 0xFFFF 2 0x1000 [2, 1, 1] [2, 0, 0] ++ tOpd 3 1 1 0xFFFF 2 0 [2, 1, 1] [2, 0, 0] ++
    tOpd 3 1 1 0xFFFF 2 0x40 [2, 1, 1] [2, 0, 0] ++ tOpd 3 0 1 0xFFFF 32 0x2000 [1, 1, 1] [0, 0, 0] ++
    tOpd 1 0 1 0 64 0x40 [1, 1, 1] [64, 0, 0] ++ tOpd 1 3 1 0 16 0x100 [4, 1, 1] [16, 0, 0] ++
    tOpd 3 0 1 0xFFFF 64 0x1000 [1, 1, 1] [64, 0, 0] ++ tOpd 1 2 1 0 4 0x40 [1, 1, 1] [4, 0, 0] ++
    tOpd 1 3 1 0 4 0x40 [1, 1, 1] [4, 0, 0]

/-- A model image with one core and one STRIPE program (R493 to R499): header, section table, programs, operands. -/
def tImg (ops : List (Nat × Nat)) : List Byte :=
  let prog (phase n : Nat) : List Byte := [b8 phase, 0, 0, 0] ++ leBytes 4 48 ++ leBytes 4 n ++ leBytes 4 0
  List.replicate 16 0 ++ [2, 0, 0, 0, 0, 1] ++ List.replicate 26 0 ++ [0x40, 0, 0, 0] ++ List.replicate 12 0 ++
    ([1, 0, 0, 0] ++ leBytes 4 0x60 ++ leBytes 4 (48 + 16 * ops.length) ++ leBytes 4 0) ++
    ([2, 0, 0, 0] ++ leBytes 4 (0x90 + 16 * ops.length) ++ leBytes 4 tOpds.length ++ leBytes 4 0) ++
    (prog 0 0 ++ prog 1 ops.length ++ prog 2 0) ++ ops.flatMap (fun e => leBytes 8 e.1 ++ leBytes 8 e.2) ++ tOpds

/-- First word of a tile-op without semaphores, and second word: destination, sources, parameters (R482). -/
def tW0 (code : Nat) : Nat := code + 0xFFFFFF000000
def tW1 (d a b p : Nat) : Nat := d + a * 2 ^ 16 + b * 2 ^ 32 + p * 2 ^ 48

/-- Tile-op 7, on logical core 63 (physical 67), and its task, in group 15 of core set 15, and model 31. -/
def tOp (w0 w1 : Nat) (u : TileUnit) : TileOp :=
  { group := 15, member := 0, core := 63, phase := 1, stripe := 0, w0 := w0, w1 := w1, unit := u, dst := none, srcs := [],
    hold := 0 }
def tTask : Task := { rep := 0, tsStart := 0, lxStart := 0, qFirst := 0 }
def tGroup : Group :=
  { cs := 15, model := 31, started := true, journal := 2, jwords := 1024, phase := .running, task := some tTask }
def tModel (w0 w1 : Nat) : Model := ⟨tImg [(w0, w1)], 4000, [(0, 0x100)], [], [], [], (0, 0, 0, 0)⟩
def tCx (w0 w1 : Nat) (u : TileUnit) : OpCtx := ⟨7, tOp w0 w1 u, tGroup, tTask, tModel w0 w1⟩

/-- The tile-op waits to issue; the near store holds BF16 elements from 0 and the parameter block. -/
def tT (w0 w1 : Nat) (u : TileUnit) (p : List Byte) : State :=
  { tS with
    cores := [(67, { state := .mapped })]
    coreMap := [(63, 67)]
    coreSets := [(15, 2 ^ 63)]
    models := [(31, tModel w0 w1)]
    sgroups := [(15, tGroup)]
    ops := [(7, tOp w0 w1 u)]
    near := ([0, 0x40].flatMap fun o => [(o, 0xC0), (o + 1, 0x3F), (o + 2, 0x40), (o + 3, 0x40)] ++
      (((List.range 32).zip p).filter fun e => e.2 ≠ 0 && o ≠ 0).map fun e => (0x2000 + e.1, e.2)).map fun e =>
        (67 * 2 ^ 20 + e.1, e.2)
    opNext := 8 }

/-- A tile-op without semaphores, with destination, sources and parameters. -/
def tO (code d a b p : Nat) (u : TileUnit) (params : List Byte) : State := tT (tW0 code) (tW1 d a b p) u params
def tN (code : Nat) : State := tO code 0xFFFF 0xFFFF 0xFFFF 0xFFFF .control []

/-- Tile-op 7 with its context. -/
def tOf (s : State) : OpCtx := (opCtx s 7).getD (tCx 0 0 .control)

/-- An operand of the tests, of an image of one tile-op. -/
def tI (n : Nat) : Opd := imgOpd (tImg [(0, 0)]) n
def tTn (n : Nat) : Tensor := ⟨tI n, 67 * 2 ^ 20, []⟩

/-- The state in which the reads of the tile-op are made. -/
def tIs (s : State) : State := issuedOp s 7 (tOf s) true

/-- An operand of the tests as a tensor in the near store of core 67. -/
def tTen (w0 w1 n : Nat) : Tensor := ⟨imgOpd (tImg [(w0, w1)]) n, 67 * 2 ^ 20, []⟩

/-- Parameter blocks: CONV and MATMUL of two channels onto one element; soft maximum of one part, statistics operand 5;
normalization of one channel. -/
def tPc : List Byte := [1, 1, 1, 1, 1, 1, 0, 0, 0, 0x10, 1, 0, 2, 0, 0, 0, 1, 0, 1, 0] ++ List.replicate 12 0
def tPs : List Byte := [0, 0, 0x80, 0x3F, 1, 0, 1, 0, 0, 0, 0, 0, 5, 0] ++ List.replicate 18 0
def tPn : List Byte := [1, 0, 5, 0, 0xFF, 0xFF, 0, 0, 0xFF, 0xFF, 0xFF, 0xFF, 0xFF, 0xFF] ++ List.replicate 18 0

/-- The working device with further registers; with the state of semaphore 4095; with ring 127 in the second buffer. -/
def tR (l : Tab Word) : State := { tS with regs := (0x20, 1) :: l }
def tSem (v : Nat) (q : List SemWait) : State := { tS with sems := [(4095, { value := v, queue := q })] }
def tRing (r : Ring) : State := { tS with rings := [(127, r)] }

/-- Rings of four slots of one unit, of the host: nothing written; all written and none read; one FULL slot, of counter 65535,
as `x` has it. -/
def tR0 : Ring :=
  { declared := true, handle := 0x101, slots := 4, slotUnits := 1, producer := 0x18, refs := 2, head := 65535, tail := 65535,
    pub := 65535 }
def tRFull : Ring := { tR0 with head := 0, tail := 65532, pub := 65532 }
def tRSlot (x : Slot) : Ring := { tR0 with head := 0, tab := [(3, x)] }
def tR1 : Ring := { tRSlot { state := .full, rc := 2 } with pub := 0 }

/-- 2048 windows of other rings. -/
def tWins : List Window := List.replicate 2048 ⟨0, 0, 0, false, none⟩

theorem pair_get {α : Type} (x : State × Option α) (h : x.2.isSome = true) : x = (x.1, some (x.2.get h)) := by
  obtain ⟨a, b⟩ := x
  cases b
  · cases h
  · rfl

theorem reads_one {c : OpCtx} {i : State} {p : List Byte} {ta td : Tensor} (d a : Opd)
    (h : ctxDst c = some d ∧ ctxA c = some a ∧ readParam c i = (i, some p) ∧ tensorOf c a true i = (i, some ta) ∧
      tensorOf c d false i = (i, some td)) : Reads c none i p ta none td i := by
  obtain ⟨hd, ha, hp, hta, htd⟩ := h
  intro k
  simp [withOperands, hd, ha, hp, hta, htd]

theorem reads_two {c : OpCtx} {i : State} {p : List Byte} {ta tb td : Tensor} (d a b : Opd)
    (h : ctxDst c = some d ∧ ctxA c = some a ∧ ctxB c = some b ∧ readParam c i = (i, some p) ∧
      tensorOf c a true i = (i, some ta) ∧ tensorOf c b true i = (i, some tb) ∧ tensorOf c d false i = (i, some td)) :
    Reads c (ctxB c) i p ta (some tb) td i := by
  obtain ⟨hd, ha, hb, hp, hta, htb, htd⟩ := h
  intro k
  simp [withOperands, hd, ha, hb, hp, hta, htb, htd]

theorem reads_source {c : OpCtx} {i : State} {p : List Byte} {ta : Tensor} (a : Opd)
    (h : ctxA c = some a ∧ readParam c i = (i, some p) ∧ tensorOf c a true i = (i, some ta)) :
    ReadsSource c i p ta i := by
  obtain ⟨ha, hp, hta⟩ := h
  intro k
  simp [withSource, ha, hp, hta]

/-- Trestle core 7 in M mode at 0x3FFE, where the L2 holds instruction i across two of its lines. -/
def tCore (i : Nat) : State :=
  { tS with
    harts := [(7, { state := .running, pc := 0x3FFE, x := [(31, 5)], csr := [(0x300, 8), (0x341, 0x100)] })]
    l2 := [(255, ⟨List.replicate 62 0 ++ leBytes 2 (i % 65536), 0, 7, []⟩),
      (256, ⟨leBytes 2 (i / 65536) ++ List.replicate 62 0, 0, 7, []⟩)] }

theorem fetched_of {c : Nat} {s : State} {i : Nat}
    (h : Executes c s ∧ (hartOf s c).wfi = false ∧ trIrq c (hartOf s c) s = none ∧ i % 4 = 3 ∧
      trFetch c (hartOf s c) (hartOf s c).pc.toNat s = (s, .ok (i % 65536)) ∧
      trFetch c (hartOf s c) (((hartOf s c).pc.toNat + 2) % 2 ^ 64) s = (s, .ok (i / 65536))) : Fetched c s i s := by
  obtain ⟨a, b, d, e, f, g⟩ := h
  exact ⟨a, b, d, e, s, f, g⟩

/-- A sound image (R493 to R499): header with its CRC, one NOP that is the program of each phase, one EXTERNAL handle slot 1
and one EXTERNAL ring slot 2, 4095 semaphores. -/
def tLoadRaw (crc : Nat) : List Byte :=
  leBytes 4 0x464C444D ++ leBytes 2 1 ++ leBytes 2 64 ++ leBytes 4 384 ++ leBytes 4 crc ++ leBytes 2 4 ++ [0, 0, 0, 1] ++
    leBytes 2 4095 ++ List.replicate 16 0 ++ [2] ++ List.replicate 7 0 ++ leBytes 4 0x140 ++ List.replicate 12 0 ++
    -- programs at 0x40, operand table at 0x80, rings at 0xC0, handles at 0x100, section table at 0x140
    (List.range 3).flatMap (fun ph => [b8 ph, 0, 0, 0] ++ leBytes 4 48 ++ leBytes 4 1 ++ leBytes 4 0) ++ leBytes 8 (tW0 0) ++
    List.replicate 8 0xFF ++
    List.replicate 64 0 ++ ([2, 1, 0, 0] ++ List.replicate 60 0) ++ ([1, 2, 15, 0] ++ leBytes 4 1 ++ List.replicate 56 0) ++
    (leBytes 4 1 ++ leBytes 4 0x40 ++ leBytes 4 64 ++ leBytes 4 0) ++ (leBytes 4 2 ++ leBytes 4 0x80 ++ leBytes 4 32 ++ leBytes 4 0) ++
    (leBytes 4 5 ++ leBytes 4 0xC0 ++ leBytes 4 16 ++ leBytes 4 0) ++ (leBytes 4 6 ++ leBytes 4 0x100 ++ leBytes 4 16 ++ leBytes 4 0)
def tLoad : List Byte := tLoadRaw (imgCrc (tLoadRaw 0) 0xC)

/-- Memory that holds bytes from an address on. -/
def tMem (a : Nat) (d : List Byte) : List Host.Cell :=
  (((List.range d.length).zip d).filter fun e => e.2 ≠ 0).map fun e => (a + e.1, e.2)
def tH : Hdr := ⟨0, 0, 1⟩

/-- A Trestle image (R661): entry 124, boot information at 64, its CRC. -/
def tTrRaw (crc : Nat) : List Byte :=
  leBytes 4 0x54524553 ++ [1, 0, 0, 0] ++ leBytes 4 128 ++ leBytes 4 crc ++ leBytes 4 124 ++ leBytes 4 64 ++ List.replicate 104 0
def tTr : List Byte := tTrRaw (imgCrc (tTrRaw 0) 0xC)

/-- The unit at 0x8000 holds bytes; pair 94 ON, or as `on` says. -/
def tBoot (d : List Byte) (on : Bool) : State :=
  { tS with
    handles := [(2, { valid := true, base := 0x8000, units := 1, rights := 15, owner := 0x1FFFFFFF })]
    mem := tMem 0x8000 d
    pwr := { doms := [(94, { on := on })] } }

theorem triple_get (x : State × Nat × List Byte) (h : x.2.1 = 0) : x = (x.1, 0, x.2.2) := by
  obtain ⟨a, b, c⟩ := x
  cases h
  rfl

/-- Node 3 of a segment with node 15, its front end ON. -/
def tX (x : Xk) : State :=
  { tS with xk := { x with node := 3, present := 0x8008, master := 15 }, pwr := { doms := [(95, { on := true })] } }

/-- A header from node 15 to node 3 (R772): a FAR_REQ of 16 bytes, SEQ 4095. -/
def tHd : List Byte :=
  [0, 15, 3, 0, 16, 0, 1, 0, 4, 0xFF, 0x0F, 0, 0, 0, 0, 0] ++
    leBytes 2 (crc16 [0, 15, 3, 0, 16, 0, 1, 0, 4, 0xFF, 0x0F, 0, 0, 0, 0, 0])

theorem none_all {α : Type} {x : Option α} {P : α → Prop} (h : x = none) : ∀ e, x = some e → P e := by
  subst h
  intro e h
  cases h

theorem some_all {α : Type} {x : Option α} {P : α → Prop} {k : α} (h : x = some k) (p : P k) : ∀ e, x = some e → P e := by
  subst h
  intro e h
  cases h
  exact p

theorem no_out {u : State} (h : u.xk.peers = []) : ∀ n, (peerOf u n).out = [] := by
  intro n
  simp [peerOf, h, tabGet, tabGet?]

theorem opt_get {α : Type} {x : Option α} (h : x.isSome = true) : x = some (x.get h) := by
  cases x
  · cases h
  · rfl

/-- 27 dB on every carrier gives a tone map (R794). -/
theorem tMap_ok : (buildMap 0 (List.replicate 394 7000)).isSome = true := by decide +kernel

/-! ## Well-formedness, decoding, the queue -/

theorem test_wellFormed_refuses :
    ([.deepStoreAccess ⟨64, 0, .addr 0, false, false, 4, []⟩, .fabricTimeout ⟨0, 0, .addr 0, false, true, 4, [1]⟩,
      .farAccess ⟨0, 0, .addr 0, true, false, 65, []⟩, .hostBar2Read 0x3FFFFFFF 2, .hostBar2Write 0x40000000 [1],
      .streamPacket 0 0 ⟨0, true, true, true, 2 ^ 18, [0]⟩ 0,
      .discoveryDone 0 [⟨0, 0, 1, 0⟩, ⟨1, 1, 1, 0⟩, ⟨2, 2, 1, 0⟩, ⟨3, 3, 1, 0⟩, ⟨0, 0, 1, 0⟩] 0, .thermalSample [1, 2] 0,
      .detection [1] 0, .qualification (List.replicate 1665 0) 0, .longTrainingSync (List.replicate 4049 0) 0,
      .headerDecode (List.replicate 1279 0) 0, .bodyDecode (List.replicate 9 0) [] 0, .statusFrame 0 [1], .beacon 0 [1] 0, .mapFrame 0 0 [1], .soundFrame 0 [1],
      .powerGood ⟨false, false, [272], [], []⟩ 0, .powerGood ⟨false, false, [], [68], []⟩ 0,
      .powerGood ⟨false, false, [], [], [6]⟩ 0, .registerWrite .host 0x40000 4 0, .registerWrite .host 0 65 0,
      .registerRead .host 0x40000 4, .registerRead .host 0 65].all fun c => !wellFormed c) = true := by decide +kernel

theorem test_wellFormed_refuses_long_payloads :
    (let d := List.replicate 249 0
    [.nopCmd tH d, .getInfo tH d, .sysReset tH d, .timeMap tH d, .portSet tH d, .streamSet tH d, .streamStart tH d,
     .streamStop tH d, .colUpload tH d, .camRead tH d, .camWrite tH d, .modelLoad tH d, .modelUnload tH d,
     .modelBindExt tH d, .coresetForm tH d, .coresetDissolve tH d, .groupBind tH d, .groupStart tH d,
     .groupStop tH d, .groupSwap tH d, .groupUnbind tH d, .taskAbort tH d, .epochCancel tH d, .handleAlloc tH d,
     .handleFree tH d, .handleQuery tH d, .handleLock tH d, .handleSet tH d, .compact tH d, .semSet tH d,
     .semQuery tH d, .arrivalBind tH d, .arrivalUnbind tH d, .ringDeclare tH d, .ringUndeclare tH d, .ringReset tH d,
     .fcSize tH d, .bwrSet tH d, .ltSet tH d, .calWrite tH d, .calRead tH d, .calDisable tH d, .phaseAdjust tH d,
     .xkConfig tH d, .xkJoin tH d, .xkLeave tH d, .xkSound tH d, .xkRxSet tH d, .xkStats tH d, .xkRelay tH d,
     .xkModelBcast tH d, .scrubSet tH d, .coreDisable tH d, .coreRelease tH d, .coreMap tH d, .bankSpare tH d,
     .bankTest tH d, .repairRecord tH d, .supRelease tH d, .errInject tH d, .dsGroupPower tH d, .corePower tH d,
     .portPower tH d, .trestlePower tH d, .xkPower tH d, .pocxpSet tH d, .thermalSet tH d, .powerStatus tH d,
     .cfgGet tH d, .cfgSet tH d, .cfgCommit tH d, .cfgDiscard tH d, .fwStage tH d, .fwHandover tH d, .trBoot tH d,
     .trHalt tH d, .trEvOwner tH d].all fun c => !wellFormed c) = true := by
  decide +kernel

theorem test_wellFormed_accepts :
    ([.deepStoreAccess ⟨63, 0, .addr 0, true, false, 64, []⟩, .nopCmd tH (List.replicate 248 0), .beacon 0 (List.replicate 32 0) 0,
      .registerWrite .host 0x3FFFC 4 1].all wellFormed) = true := by decide +kernel

/-- The table gives no row any bits, so no word spells a command. -/
theorem test_decode_none : decodeTableWord 0 0 = none ∧ decodeTableWord 32 0xFFFFFFFF = none := by decide

/-- Check values that CRC-32C and CRC-16 with polynomial 0x1021 from 0xFFFF have for the digits 1 to 9. -/
theorem test_crc :
    crc32c (leBytes 9 0x393837363534333231) = 0xE3069283 ∧ crc16 (leBytes 9 0x393837363534333231) = 0x29B1 := by
  decide +kernel

/-- Two NOPs wait: one step runs the first, and the second is left. -/
theorem test_step_takes_the_front :
    (match step { tS with pending := [.nopCmd tH [7], .nopCmd tH [8]] } with
     | .next t => decide (t.pending = [.nopCmd tH [8]]) && decide ((mbOf t 0).record = [0, 1, 0, 0, 1, 0, 0, 0, 7])
     | _ => false) = true := by decide +kernel

/-! ## Witnesses -/

theorem wit_FrontCommandRuns :
    ∃ (s : State), s.pending = [] ∧ s.pwr.sysResetAt = none :=
  ⟨tS, by decide +kernel⟩

theorem wit_NoInterruptLeftDueKept :
    ∃ (s t : State), step s = Host.Outcome.next t ∧ NoIrqDue s :=
  ⟨tS, tS, rfl, by decide +kernel⟩

theorem wit_ArmedSourceSendsOneMessage :
    (∃ (i : Fin 48) (s : State), irqDue s ↑i = true) ∧
    (∃ (i : Fin 48) (s : State), irqDue s ↑i = false) :=
  ⟨ ⟨4, { tR [(0x2008, 0), (0x220C, 1)] with msix := [(3, 0)] }, by decide +kernel⟩,
    ⟨47, { tR [(0x2008, 0), (0x220C, 1)] with msix := [(3, 0)] }, by decide +kernel⟩⟩

theorem wit_RegisterWriteByAccessCodes :
    (∃ (off size : Nat), regSizeOk off size = false) ∧
    (∃ (req : Req) (off size : Nat), regSizeOk off size = true ∧ mayAccess req off true = false) ∧
    (∃ (req : Req) (off : Nat) (v : BitVec 64) (f : State → State), opRegister req off (w32 v.toNat) = some f ∧ mayAccess req
      off true = true ∧ regSizeOk off 4 = true ∧ (¬(4096 ≤ off ∧ off < 8192 ∧ off % 512 < 256)) ∧ (¬(10240 ≤ off ∧ off <
      11264))) ∧
    (∃ (req : Req) (off : Nat) (v : BitVec 64) (s : State), mayAccess req off true = true ∧ regSizeOk off 4 = true ∧ (¬(4096 ≤
      off ∧ off < 8192 ∧ off % 512 < 256)) ∧ (¬(10240 ≤ off ∧ off < 11264)) ∧ (opRegister req off (w32 v.toNat)).isNone = true ∧
      shadowLocked s off = true) ∧
    (∃ (req : Req) (off : Nat) (v : BitVec 64) (s : State) (c : RegCard), mayAccess req off true = true ∧ regSizeOk off 4 = true
      ∧ (¬(4096 ≤ off ∧ off < 8192 ∧ off % 512 < 256)) ∧ (¬(10240 ≤ off ∧ off < 11264)) ∧ (opRegister req off (w32
      v.toNat)).isNone = true ∧ shadowLocked s off = false ∧ isStaged off = false ∧ (¬(4 ≤ off ∧ isStaged (off - 4) = true)) ∧
      cardAt off = some c) ∧
    (∃ (req : Req) (off : Nat) (v : BitVec 64) (s : State), mayAccess req off true = true ∧ regSizeOk off 4 = true ∧ (¬(4096 ≤
      off ∧ off < 8192 ∧ off % 512 < 256)) ∧ (¬(10240 ≤ off ∧ off < 11264)) ∧ (opRegister req off (w32 v.toNat)).isNone = true ∧
      shadowLocked s off = false ∧ isStaged off = false ∧ (¬(4 ≤ off ∧ isStaged (off - 4) = true)) ∧ cardAt off = none) ∧
    (∃ (req : Req) (off : Nat), mayAccess req off true = true ∧ regSizeOk off 4 = true ∧ 10240 ≤ off ∧ off < 11264) ∧
    (∃ (req : Req) (off : Nat) (s : State) (n : Fin 8), mayAccess req off true = true ∧ regSizeOk off 4 = true ∧ mbBase ↑n ≤ off
      ∧ off < mbBase ↑n + 256 ∧ mbFree s ↑n = true) ∧
    (∃ (req : Req) (off : Nat) (s : State) (n : Fin 8), mayAccess req off true = true ∧ regSizeOk off 4 = true ∧ mbBase ↑n ≤ off
      ∧ off < mbBase ↑n + 256 ∧ mbFree s ↑n = false) ∧
    (∃ (req : Req) (off : Nat) (s : State) (c c' : RegCard), mayAccess req off true = true ∧ regSizeOk off 8 = true ∧ isStaged
      off = true ∧ shadowLocked s off = false ∧ cardAt off = some c ∧ cardAt (off + 4) = some c') ∧
    (∃ (req : Req) (off : Nat) (s : State), mayAccess req off true = true ∧ regSizeOk off 8 = true ∧ isStaged off = true ∧
      shadowLocked s off = true) ∧
    (∃ (req : Req) (off : Nat), mayAccess req off true = true ∧ regSizeOk off 8 = true ∧ isStaged off = false) :=
  ⟨ ⟨0x2002, 4, by decide +kernel⟩,
    ⟨.dma 0, 0x20, 4, by decide +kernel⟩,
    ⟨.host, 0x880, 0, (opRegister .host 0x880 (w32 (0 : BitVec 64).toNat)).get (by decide +kernel), opt_get (by decide +kernel),
      by decide +kernel⟩,
    ⟨.host, 0x4F00, 0, tR [(0x4F84, 8)], by decide +kernel⟩,
    ⟨.host, 0x3030, 0xFFFFFFFF, tS, (cardAt 0x3030).get (by decide +kernel), by decide +kernel⟩,
    ⟨.host, 0x3FFFC, 0, tS, by decide +kernel⟩,
    ⟨.host, 0x2BFC, by decide +kernel⟩,
    ⟨.host, 0x16FC, tS, 3, by decide +kernel⟩,
    ⟨.host, 0x1000, tR [(0x1104, 1)], 0, by decide +kernel⟩,
    ⟨.host, 0x4F28, tS, (cardAt 0x4F28).get (by decide +kernel), (cardAt 0x4F2C).get (by decide +kernel), by decide +kernel⟩,
    ⟨.host, 0x4F28, tR [(0x4F84, 8)], by decide +kernel⟩,
    ⟨.host, 0x3FFF8, by decide +kernel⟩⟩

theorem wit_LoWriteIsStagedHiWriteCommits :
    ∃ (req : Req) (off : Nat) (s : State) (w : Word), (∀ (w : Word), (opRegister req off w).isNone = true ∧ (opRegister req (off
      + 4) w).isNone = true) ∧ regSizeOk off 4 = true ∧ regSizeOk (off + 4) 4 = true ∧ mayAccess req off true = true ∧ mayAccess
      req (off + 4) true = true ∧ (¬(4096 ≤ off ∧ off < 8192)) ∧ (¬(10240 ≤ off ∧ off < 11264)) ∧ (¬(10236 ≤ off ∧ off < 11260))
      ∧ (¬(4092 ≤ off ∧ off < 8188)) ∧ isStaged off = true ∧ isStaged (off + 4) = false ∧ shadowLocked s off = false ∧
      shadowLocked s (off + 4) = false ∧ tabGet? s.staging (reqBank req) = some (off, w) :=
  ⟨.host, 0x4F28, { tS with staging := [(0, (0x4F28, 5))] }, 5, fun _ => ⟨rfl, rfl⟩, by decide +kernel⟩

theorem wit_HiReadReturnsTheLatchedWord :
    (∃ (req : Req) (off : Nat) (s : State) (w : Word), regSizeOk off 4 = true ∧ regSizeOk (off + 4) 4 = true ∧ mayAccess req off
      false = true ∧ mayAccess req (off + 4) false = true ∧ (¬(3584 ≤ off ∧ off < 8192)) ∧ isLo64 off = true ∧ isLo64 (off + 4)
      = false ∧ off / 4 ≠ 36892 / 4 ∧ (off + 4) / 4 ≠ 36892 / 4 ∧ tabGet? s.latches (reqBank req) = some (off, w)) ∧
    (∃ (req : Req) (off : Nat) (s : State), (∀ (w : Word), tabGet? s.latches (reqBank req) ≠ some (off, w)) ∧ regSizeOk off 4 =
      true ∧ regSizeOk (off + 4) 4 = true ∧ mayAccess req off false = true ∧ mayAccess req (off + 4) false = true ∧ (¬(3584 ≤
      off ∧ off < 8192)) ∧ isLo64 off = true ∧ isLo64 (off + 4) = false ∧ off / 4 ≠ 36892 / 4 ∧ (off + 4) / 4 ≠ 36892 / 4) :=
  ⟨ ⟨.host, 0x3000, { tS with latches := [(0, (0x3000, 5))] }, 5, by decide +kernel⟩,
    ⟨.host, 0x3000, { tS with latches := [(0, (0x3008, 5))] }, fun w => by simp [tabGet?, reqBank], by decide +kernel⟩⟩

theorem wit_RegisterReadAnswersAndChangesNothing :
    (∃ (req : Req) (off : Nat), mayAccess req off false = true ∧ (¬(4096 ≤ off ∧ off < 8192 ∧ off % 512 < 256)) ∧ regSizeOk off
      4 = true ∧ isLo64 off = false ∧ (¬(4 ≤ off ∧ isLo64 (off - 4) = true)) ∧ off / 4 ≠ 36892 / 4) ∧
    (∃ (req : Req) (off : Nat), mayAccess req off false = true ∧ (¬(4096 ≤ off ∧ off < 8192 ∧ off % 512 < 256)) ∧ regSizeOk off
      8 = true ∧ off / 4 ≠ 36892 / 4 ∧ off ≠ 36888) ∧
    (∃ (req : Req) (off : Nat) (n : Fin 8), mayAccess req off false = true ∧ mbBase ↑n ≤ off ∧ off < mbBase ↑n + 256 ∧ regSizeOk
      off 4 = true) ∧
    (∃ (req : Req), mayAccess req 36892 false = true) ∧
    (∃ (off : Nat), isLo64 off = true) ∧
    (∃ (off : Nat), 4 ≤ off ∧ isLo64 (off - 4) = true) ∧
    (∃ (req : Req) (off size : Nat), regSizeOk off size = true ∧ mayAccess req off false = false) ∧
    (∃ (off size : Nat), regSizeOk off size = false) :=
  ⟨ ⟨.host, 0x3030, by decide +kernel⟩,
    ⟨.host, 0x3000, by decide +kernel⟩,
    ⟨.host, 0x10FC, 0, by decide +kernel⟩,
    ⟨.host, by decide +kernel⟩,
    ⟨0x3000, by decide +kernel⟩,
    ⟨0x3004, by decide +kernel⟩,
    ⟨.dma 0, 0x1100, 4, by decide +kernel⟩,
    ⟨0x2002, 4, by decide +kernel⟩⟩

theorem wit_ReservedOperationIsRefused :
    (∃ (req : Req) (v : Word), (∀ (ch : Fin 16), req ≠ Req.dma ch) ∧ 5 ≤ fieldOf v 28 4) ∧
    (∃ (req : Req) (v : Word), (∀ (ch : Fin 16), req ≠ Req.dma ch) ∧ 7 ≤ fieldOf v 28 4) ∧
    (∃ (req : Req) (v : Word), (∀ (ch : Fin 16), req ≠ Req.dma ch) ∧ bitAt (BitVec.toNat v) 31 = true ∧ (4 ≤ fieldOf v 0 3 ∨
      fieldOf v 4 2 = 3)) :=
  ⟨ ⟨.host, 0x50000000, (by intro _ h; cases h), by decide +kernel⟩,
    ⟨.host, 0x70000000, (by intro _ h; cases h), by decide +kernel⟩,
    ⟨.host, 0x80000030, (by intro _ h; cases h), by decide +kernel⟩⟩

theorem wit_AccessChecksInOrder :
    (∃ (r : DsReq) (a : Nat), r.target = DsTarget.addr a ∧ viewOk r a = false) ∧
    (∃ (r : DsReq) (a : Nat) (s : State), r.target = DsTarget.addr a ∧ viewOk r a = true ∧ localSize s < a + r.size) ∧
    (∃ (r : DsReq) (a : Nat) (s : State), r.target = DsTarget.addr a ∧ viewOk r a = true ∧ a + r.size ≤ localSize s ∧ bufferAt s
      a = none) ∧
    (∃ (r : DsReq) (a : Nat) (s : State) (i : Nat), r.target = DsTarget.addr a ∧ viewOk r a = true ∧ a + r.size ≤ localSize s ∧
      bufferAt s a = some i ∧ (handleOf s i).ring = false ∧ r.tag = 28) ∧
    (∃ (r : DsReq) (a : Nat) (s : State) (i : Nat), r.target = DsTarget.addr a ∧ viewOk r a = true ∧ a + r.size ≤ localSize s ∧
      bufferAt s a = some i ∧ (¬((handleOf s i).ring = false ∧ r.tag = 28)) ∧ (bitAt (handleOf s i).owner r.tag && bitAt
      (handleOf s i).rights (rightBit r)) = false) ∧
    (∃ (r : DsReq) (a : Nat) (s : State) (i : Nat), r.target = DsTarget.addr a ∧ viewOk r a = true ∧ a + r.size ≤ localSize s ∧
      bufferAt s a = some i ∧ (¬((handleOf s i).ring = false ∧ r.tag = 28)) ∧ (bitAt (handleOf s i).owner r.tag && bitAt
      (handleOf s i).rights (rightBit r)) = true ∧ (handleOf s i).ring = false) ∧
    (∃ (r : DsReq) (a : Nat) (s : State) (i : Nat), r.target = DsTarget.addr a ∧ viewOk r a = true ∧ a + r.size ≤ localSize s ∧
      bufferAt s a = some i ∧ (¬((handleOf s i).ring = false ∧ r.tag = 28)) ∧ (bitAt (handleOf s i).owner r.tag && bitAt
      (handleOf s i).rights (rightBit r)) = true ∧ (handleOf s i).ring = true) ∧
    (∃ (r : DsReq) (a : Nat) (s : State), r.target = DsTarget.addr a ∧ (dsCheck s r).fst ≠ 0) :=
  ⟨ ⟨⟨0x18, 0, .addr 1, false, false, 2, []⟩, 1, by decide +kernel⟩,
    ⟨⟨0x18, 0, .addr 0x40000000, false, false, 4, []⟩, 0x40000000, tS, by decide +kernel⟩,
    ⟨⟨0x18, 0, .addr 0x9000, false, false, 4, []⟩, 0x9000, tS, by decide +kernel⟩,
    ⟨⟨0x1C, 0, .addr 0x8FFC, false, true, 4, [1, 2, 3, 4]⟩, 0x8FFC, tS, 2, by decide +kernel⟩,
    ⟨⟨0x18, 0, .addr 0x8FFC, false, true, 4, [1, 2, 3, 4]⟩, 0x8FFC, tS, 2, by decide +kernel⟩,
    ⟨⟨0x18, 0, .addr 0x3FFC, false, true, 4, [1, 2, 3, 4]⟩, 0x3FFC, tS, 0, by decide +kernel⟩,
    ⟨⟨0x18, 0, .addr 0x4000, false, false, 4, []⟩, 0x4000, tS, 1, by decide +kernel⟩,
    ⟨⟨0x18, 0, .addr 0x9000, false, false, 4, []⟩, 0x9000, tS, by decide +kernel⟩⟩

theorem wit_DeepStoreAccessIsPerformed :
    (∃ (r : DsReq) (s : State), (∀ (c : Nat), bwClassOf r.tag r.write = some c → Units s c 1) ∧ Calm s ∧ Passes s r ∧ r.write =
      false) ∧
    (∃ (r : DsReq) (s : State), (∀ (c : Nat), bwClassOf r.tag r.write = some c → Units s c 1) ∧ Calm s ∧ Passes s r ∧ r.write =
      true ∧ r.data.length = r.size) ∧
    (∃ (r : DsReq) (s : State) (c : Nat), Calm s ∧ bwClassOf r.tag r.write = some c ∧ NoUnit s c) :=
  ⟨ ⟨⟨0x18, 0, .addr 0x3FC0, true, false, 64, []⟩, { tS with mem := [(0x3FC0, 9)] }, some_all (k := 4) (by decide +kernel)
      (by decide +kernel), by decide +kernel⟩,
    ⟨⟨0x18, 0, .addr 0x3FFC, false, true, 4, [1, 2, 3, 4]⟩, { tS with mem := [(0x3FC0, 9)] }, some_all (k := 4)
      (by decide +kernel) (by decide +kernel), by decide +kernel⟩,
    ⟨⟨0x18, 0, .addr 0x3FFC, false, true, 4, [1, 2, 3, 4]⟩, tR [(0x440, 5)], 4, by decide +kernel⟩⟩

theorem wit_FabricTimeoutAnswersTimeout :
    (∃ (r : DsReq) (s : State) (a : Nat), mayTimeOut r = some a ∧ Calm s ∧ 16 ≤ r.tag ∧ r.tag ≤ 24) ∧
    (∃ (r : DsReq) (s : State), mayTimeOut r = none ∧ Calm s) :=
  ⟨ ⟨⟨0x18, 0, .addr 0x3000000000, false, true, 4, [1, 2, 3, 4]⟩, tS, 0x3000000000, by decide +kernel⟩,
    ⟨⟨0x18, 0, .addr 0x3FFC, false, true, 4, [1, 2, 3, 4]⟩, tS, by decide +kernel⟩⟩

theorem wit_HostWindowAccessesMoveTheirBytes :
    (∃ (addr : Nat) (s : State) (len : Nat), (∀ (p : Nat × Nat), p ∈ pieces len addr len → Passes s (bar2Req p.fst p.snd false))
      ∧ Units s 4 (pieces len addr len).length) ∧
    (∃ (addr : Nat) (s : State) (data : List Byte), (∀ (p : Nat × Nat), p ∈ pieces data.length addr data.length → Passes s
      (bar2Req p.fst p.snd true)) ∧ Units s 4 (pieces data.length addr data.length).length) ∧
    (∃ (s : State) (len : Nat), NoUnit s 4 ∧ 0 < len) ∧
    (∃ (s : State) (data : List Byte), NoUnit s 4 ∧ data ≠ []) :=
  ⟨ ⟨0x3FBD, { tS with mem := [(0x3FC0, 9)] }, 67, by decide +kernel⟩,
    ⟨0x3FBD, { tS with mem := [(0x3FC0, 9)] }, List.replicate 67 5, by decide +kernel⟩,
    ⟨tR [(0x440, 5)], 1, by decide +kernel⟩,
    ⟨tR [(0x440, 5)], [7], by decide +kernel⟩⟩

theorem wit_SemaphoreSignalTryRead :
    (∃ (req : Req) (sem : Fin 4096) (s : State), mayAccess req 2176 true = true ∧ (semOf s ↑sem).queue = []) ∧
    (∃ (req : Req) (sem : Fin 4096) (n : BitVec 16) (s : State) (w : SemWait) (k : Nat), mayAccess req 2176 true = true ∧ (semOf
      s ↑sem).queue = [w] ∧ w.who = Party.bank k ∧ w.n ≤ min ((semOf s ↑sem).value + n.toNat) 65535) ∧
    (∃ (req : Req) (sem : Fin 4096) (n : BitVec 16) (s : State), mayAccess req 2176 true = true ∧ semCan s (↑sem) n.toNat =
      true) ∧
    (∃ (req : Req) (sem : Fin 4096) (n : BitVec 16) (s : State), mayAccess req 2176 true = true ∧ semCan s (↑sem) n.toNat =
      false) :=
  ⟨ ⟨.host, 4095, tSem 5 [], by decide +kernel⟩,
    ⟨.host, 4095, 65535, tSem 5 [⟨.bank 0, 0x18, 65535⟩], ⟨.bank 0, 0x18, 65535⟩, 0, by decide +kernel⟩,
    ⟨.host, 4095, 5, tSem 5 [], by decide +kernel⟩,
    ⟨.host, 4095, 6, tSem 5 [], by decide +kernel⟩⟩

theorem wit_SemaphoreWaitsQueueAndAreGranted :
    (∃ (s : State) (req : Req), mayAccess req 2176 true = true ∧ bitAt (BitVec.toNat (regGet s (semRes (reqBank req)))) 30 =
      true) ∧
    (∃ (s : State) (req : Req) (sem : Fin 4096) (n : BitVec 16), mayAccess req 2176 true = true ∧ bitAt (BitVec.toNat (regGet s
      (semRes (reqBank req)))) 30 = false ∧ semCan s (↑sem) n.toNat = false) ∧
    (∃ (s : State) (req : Req) (sem : Fin 4096) (n : BitVec 16), mayAccess req 2176 true = true ∧ bitAt (BitVec.toNat (regGet s
      (semRes (reqBank req)))) 30 = false ∧ semCan s (↑sem) n.toNat = true) ∧
    (∃ (s : State) (req : Req), mayAccess req 2176 true = true ∧ bitAt (BitVec.toNat (regGet s (semRes (reqBank req)))) 30 =
      false) ∧
    (∃ (s : State) (req : Req), (∀ (w : SemWait), (List.filter (fun (w : SemWait) => decide (w.who ≠ Party.bank (reqBank req)))
      (semOf s (regBits s (semRes (reqBank req)) 16 12)).queue).head? = some w → (semOf s (regBits s (semRes (reqBank req)) 16
      12)).value < w.n) ∧ mayAccess req 2176 true = true ∧ bitAt (BitVec.toNat (regGet s (semRes (reqBank req)))) 30 = true) ∧
    (∃ (s : State) (sem : Fin 4096), (∀ (w : SemWait), (semOf s ↑sem).queue.head? = some w → (semOf s ↑sem).value < w.n)) ∧
    (∃ (s : State) (sem : Fin 4096) (w : SemWait) (l : List SemWait), (∀ (x : SemWait), l.head? = some x → (semOf s ↑sem).value
      - w.n < x.n) ∧ (semOf s ↑sem).queue = w :: l ∧ w.n ≤ (semOf s ↑sem).value) :=
  ⟨ ⟨tR [(semRes 0, 0x4FFF0000)], .host, by decide +kernel⟩,
    ⟨tSem 5 [], .host, 4095, 6, by decide +kernel⟩,
    ⟨tSem 5 [], .host, 4095, 5, by decide +kernel⟩,
    ⟨tSem 5 [], .host, by decide +kernel⟩,
    ⟨{ tSem 5 [⟨.bank 0, 0x18, 6⟩] with regs := [(semRes 0, 0x4FFF0000)] }, .host, none_all (by decide +kernel),
      by decide +kernel⟩,
    ⟨tSem 5 [⟨.bank 0, 0x18, 6⟩], 4095, some_all (k := ⟨.bank 0, 0x18, 6⟩) (by decide +kernel) (by decide +kernel)⟩,
    ⟨tSem 5 [⟨.bank 0, 0x18, 5⟩], 4095, ⟨.bank 0, 0x18, 5⟩, [], none_all rfl, by decide +kernel⟩⟩

theorem wit_BanksBuffersAndScrubberMove :
    (∃ (s : State), s.sup.failed = true) ∧
    (∃ (s : State) (c : SpareCopy), s.copy = some c ∧ s.sup.failed = false ∧ groupOf s 16 ≠ GroupState.on) ∧
    (∃ (s : State) (c : SpareCopy), s.copy = some c ∧ s.sup.failed = false ∧ groupOf s 16 = GroupState.on) ∧
    (∃ (s : State) (r : Relocation), s.reloc = some r ∧ s.sup.failed = false ∧ (∀ (e : Nat × LongCmd), e ∈ s.sup.longs →
      e.snd.opcode ≠ 1029) ∧ movable s r.idx = false) ∧
    (∃ (s : State) (r : Relocation), s.reloc = some r ∧ s.sup.failed = false ∧ (∀ (e : Nat × LongCmd), e ∈ s.sup.longs →
      e.snd.opcode ≠ 1029) ∧ movable s r.idx = true ∧ s.tcache = []) ∧
    (∃ (s : State), regBits s 2084 0 16 < 65535) ∧
    (∃ (s : State), regBits s 2084 0 16 = 65535 ∧ s.ecc = []) ∧
    (∃ (s : State), Quiet s ∧ s.held = [] ∧ s.xk.far = []) ∧
    (∃ (s : State) (time : Nat) (c : Fin 5) (r : DsReq), Quiet (refillTo time (tsTo time s)) ∧ (refillTo time (tsTo time
      s)).xk.far = [] ∧ (refillTo time (tsTo time s)).held = [{ cls := ↑c, acc := HeldAccess.deep r }] ∧ bwClassOf r.tag r.write
      = some ↑c ∧ bwReady (refillTo time (tsTo time s)) ↑c = true ∧ Passes (refillTo time (tsTo time s)) r ∧ r.write = false) :=
  ⟨ ⟨{ tS with sup := { tS.sup with failed := true } }, by decide +kernel⟩,
    ⟨{ tS with copy := some ⟨255, 271⟩, groups := [] }, ⟨255, 271⟩, by decide +kernel⟩,
    ⟨{ tS with copy := some ⟨255, 271⟩ }, ⟨255, 271⟩, by decide +kernel⟩,
    ⟨{ tS with reloc := some ⟨3, 0x10000⟩ }, ⟨3, 0x10000⟩, by decide +kernel⟩,
    ⟨{ tS with
        mem := [(3, 9)], reloc := some ⟨0, 0x10000⟩, handles := [(0,
        { valid := true, units := 4, rights := 15, owner := 0xFFFF })] }, ⟨0, 0x10000⟩, by decide +kernel⟩,
    ⟨tS, by decide +kernel⟩,
    ⟨tR [(0x824, 0xFFFF)], by decide +kernel⟩,
    ⟨tS, by decide +kernel⟩,
    ⟨{ tR [(0x440, 0x4001)] with held := [⟨4, .deep ⟨0x18, 0, .addr 0x3FC0, true, false, 64, []⟩⟩] }, 1000, 4, ⟨0x18, 0, .addr
      0x3FC0, true, false, 64, []⟩, by decide +kernel⟩⟩

theorem wit_RingTriesAcquire :
    (∃ (req : Req) (r : Fin 128) (s : State), Quiet s ∧ mayAccess req (bkBase ↑r + 32) true = true ∧ (ringOf s ↑r).declared =
      false) ∧
    (∃ (req : Req) (r : Fin 128) (dma : Bool) (s : State), Quiet s ∧ mayAccess req (bkBase ↑r + 32) true = true ∧ (ringOf s
      ↑r).declared = true ∧ (ringOf s ↑r).producer ≠ actTag req dma) ∧
    (∃ (req : Req) (r : Fin 128) (dma : Bool) (s : State), Quiet s ∧ mayAccess req (bkBase ↑r + 32) true = true ∧ (ringOf s
      ↑r).declared = true ∧ (ringOf s ↑r).producer = actTag req dma ∧ (ringOf s ↑r).waitP = [] ∧ prodReady (ringOf s ↑r) none =
      true ∧ windowFree s = false) ∧
    (∃ (req : Req) (r : Fin 128) (dma : Bool) (s : State), Quiet s ∧ mayAccess req (bkBase ↑r + 32) true = true ∧ (ringOf s
      ↑r).declared = true ∧ (ringOf s ↑r).producer = actTag req dma ∧ (ringOf s ↑r).waitP = [] ∧ prodReady (ringOf s ↑r) none =
      true ∧ windowFree s = true) ∧
    (∃ (req : Req) (r : Fin 128) (dma : Bool) (s : State), Quiet s ∧ mayAccess req (bkBase ↑r + 32) true = true ∧ (ringOf s
      ↑r).declared = true ∧ (ringOf s ↑r).producer = actTag req dma ∧ ((ringOf s ↑r).waitP ≠ [] ∨ prodReady (ringOf s ↑r) none =
      false)) ∧
    (∃ (req : Req) (r : Fin 128) (s : State) (c : BitVec 16), Quiet s ∧ mayAccess req (bkBase ↑r + 32) true = true ∧ (ringOf s
      ↑r).declared = true ∧ (ringOf s ↑r).slots ≤ fromTail (ringOf s ↑r) c.toNat) ∧
    (∃ (req : Req) (r : Fin 128) (s : State) (c : BitVec 16), Quiet s ∧ mayAccess req (bkBase ↑r + 32) true = true ∧ (ringOf s
      ↑r).declared = true ∧ fromTail (ringOf s ↑r) c.toNat < (ringOf s ↑r).slots ∧ consReady (ringOf s ↑r) c.toNat none = false)
      ∧
    (∃ (req : Req) (r : Fin 128) (s : State) (c : BitVec 16), Quiet s ∧ mayAccess req (bkBase ↑r + 32) true = true ∧ (ringOf s
      ↑r).declared = true ∧ fromTail (ringOf s ↑r) c.toNat < (ringOf s ↑r).slots ∧ consReady (ringOf s ↑r) c.toNat none = true ∧
      windowFree s = false) ∧
    (∃ (req : Req) (r : Fin 128) (s : State) (c : BitVec 16), Quiet s ∧ mayAccess req (bkBase ↑r + 32) true = true ∧ (ringOf s
      ↑r).declared = true ∧ fromTail (ringOf s ↑r) c.toNat < (ringOf s ↑r).slots ∧ consReady (ringOf s ↑r) c.toNat none = true ∧
      windowFree s = true) :=
  ⟨ ⟨.host, 127, tS, by decide +kernel⟩,
    ⟨.host, 127, true, tRing tR0, by decide +kernel⟩,
    ⟨.host, 127, false, { tRing tR0 with windows := tWins }, by decide +kernel⟩,
    ⟨.host, 127, false, tRing tR0, by decide +kernel⟩,
    ⟨.host, 127, false, tRing tRFull, by decide +kernel⟩,
    ⟨.host, 127, tRing tR1, 3, by decide +kernel⟩,
    ⟨.host, 127, tRing tR1, 2, by decide +kernel⟩,
    ⟨.host, 127, { tRing tR1 with windows := tWins }, 65535, by decide +kernel⟩,
    ⟨.host, 127, tRing tR1, 65535, by decide +kernel⟩⟩

theorem wit_RingCommitAndRelease :
    (∃ (req : Req) (r : Fin 128) (dma : Bool) (c : BitVec 16) (s : State), Quiet s ∧ NoWaits s ↑r ∧ mayAccess req (bkBase ↑r +
      32) true = true ∧ (ringOf s ↑r).declared = true ∧ holdsWindow s (↑r) c.toNat (actTag req dma) true = false) ∧
    (∃ (req : Req) (r : Fin 128) (dma : Bool) (c : BitVec 16) (s : State), Quiet s ∧ NoWaits s ↑r ∧ mayAccess req (bkBase ↑r +
      32) true = true ∧ (ringOf s ↑r).declared = true ∧ holdsWindow s (↑r) c.toNat (actTag req dma) true = true) ∧
    (∃ (req : Req) (r : Fin 128) (dma : Bool) (c : BitVec 16) (s : State), Quiet s ∧ NoWaits s ↑r ∧ mayAccess req (bkBase ↑r +
      32) true = true ∧ (ringOf s ↑r).declared = true ∧ holdsWindow s (↑r) c.toNat (actTag req dma) false = false) ∧
    (∃ (req : Req) (r : Fin 128) (dma : Bool) (c : BitVec 16) (s : State), Quiet s ∧ NoWaits s ↑r ∧ mayAccess req (bkBase ↑r +
      32) true = true ∧ (ringOf s ↑r).declared = true ∧ holdsWindow s (↑r) c.toNat (actTag req dma) false = true) :=
  ⟨ ⟨.host, 127, false, 65535, { tRing (tRSlot { state := .filling }) with windows := [⟨127, 65535, 0x18, false, none⟩] },
      by decide +kernel⟩,
    ⟨.host, 127, true, 65535, { tRing (tRSlot { state := .filling }) with windows := [⟨127, 65535, 0x19, true, none⟩] },
      by decide +kernel⟩,
    ⟨.host, 127, false, 65535, { tRing tR1 with windows := [⟨127, 65535, 0x19, false, none⟩] }, by decide +kernel⟩,
    ⟨.host, 127, true, 65535, { tRing tR1 with windows := [⟨127, 65535, 0x19, false, none⟩] }, by decide +kernel⟩⟩

theorem wit_ArmedAcquiresWaitAndAreServed :
    (∃ (r : Fin 128) (s : State) (req : Req) (dma : Bool), Quiet s ∧ (ringOf s ↑r).declared = true ∧ mayAccess req (bkBase ↑r +
      32) true = true ∧ bkArmed s (reqBank req) ↑r = true ∧ (ringOf s ↑r).producer = actTag req dma) ∧
    (∃ (r : Fin 128) (s : State) (req : Req) (dma : Bool), Quiet s ∧ (ringOf s ↑r).declared = true ∧ mayAccess req (bkBase ↑r +
      32) true = true ∧ bkArmed s (reqBank req) ↑r = false ∧ (ringOf s ↑r).producer = actTag req dma ∧ prodReady (ringOf s ↑r)
      none = false) ∧
    (∃ (r : Fin 128) (s : State) (req : Req) (c : BitVec 16), Quiet s ∧ (ringOf s ↑r).declared = true ∧ mayAccess req (bkBase ↑r
      + 32) true = true ∧ bkArmed s (reqBank req) ↑r = false ∧ fromTail (ringOf s ↑r) c.toNat < (ringOf s ↑r).slots ∧ consReady
      (ringOf s ↑r) c.toNat none = false) ∧
    (∃ (r : Fin 128) (s : State) (req : Req), Quiet s ∧ (ringOf s ↑r).declared = true ∧ mayAccess req (bkBase ↑r + 32) true =
      true ∧ bkArmed s (reqBank req) ↑r = true ∧ (∀ (a : Acquire), a ∈ (ringOf s ↑r).waitP ++ (ringOf s ↑r).waitC → a.who =
      Party.bank (reqBank req))) ∧
    (∃ (r : Fin 128) (s : State) (a : Acquire) (b : Nat), Quiet s ∧ (ringOf s ↑r).declared = true ∧ (ringOf s ↑r).waitP = [a] ∧
      (ringOf s ↑r).waitC = [] ∧ a.who = Party.bank b ∧ b ≤ 12 ∧ prodReady (ringOf s ↑r) a.epoch = true ∧ windowFree s = true ∧
      (ringOf s ↑r).pub = (ringOf s ↑r).head ∧ (ringOf s ↑r).tail = (ringOf s ↑r).head) :=
  ⟨ ⟨127, { tRing { tRFull with waitP := [⟨.bank 0, 0x18, none, none, false⟩] } with regs := [(bkRes 0 127, 0x40000000)] },
      .host, false, by decide +kernel⟩,
    ⟨127, tRing tRFull, .host, false, by decide +kernel⟩,
    ⟨127, tRing tR1, .host, 2, by decide +kernel⟩,
    ⟨127, { tRing { tRFull with waitP := [⟨.bank 0, 0x18, none, none, false⟩] } with regs := [(bkRes 0 127, 0x40000000)] },
      .host, by decide +kernel⟩,
    ⟨127, { tRing { tR0 with waitP := [⟨.bank 0, 0x18, none, none, true⟩] } with regs := [(bkRes 0 127, 0x40000000)] }, ⟨.bank
      0, 0x18, none, none, true⟩, 0, by decide +kernel⟩⟩

namespace EncoderTransitionsCountOrAreRefused

def tE (e : Encoder) : State := { tS with lt := { tS.lt with encs := [(3, e)] } }

theorem wit_EncoderTransitionsCountOrAreRefused :
    (∃ (n : Fin 4) (t held : Nat) (s : State), (timeTo t s).lt.backup = none ∧ held < 5 * (encOf (timeTo t s) ↑n).filt) ∧
    (∃ (n : Fin 4) (t held : Nat) (s : State), (timeTo t s).lt.backup = none ∧ 5 * (encOf (timeTo t s) ↑n).filt ≤ held ∧ (encOf
      (timeTo t s) ↑n).en = false) ∧
    (∃ (n : Fin 4) (a b : Bool) (t held : Nat) (s : State), (timeTo t s).lt.backup = none ∧ 5 * (encOf (timeTo t s) ↑n).filt ≤
      held ∧ (encOf (timeTo t s) ↑n).en = true ∧ a ≠ (encOf (timeTo t s) ↑n).a ∧ b ≠ (encOf (timeTo t s) ↑n).b) ∧
    (∃ (n : Fin 4) (a b : Bool) (t held : Nat) (s : State), (timeTo t s).lt.backup = none ∧ 5 * (encOf (timeTo t s) ↑n).filt ≤
      held ∧ (encOf (timeTo t s) ↑n).en = true ∧ ((a != (encOf (timeTo t s) ↑n).a) != (b != (encOf (timeTo t s) ↑n).b)) = true ∧
      ((encOf (timeTo t s) ↑n).decode = 4 ∨ (encOf (timeTo t s) ↑n).decode = 2 ∧ a ≠ (encOf (timeTo t s) ↑n).a ∨ (encOf (timeTo
      t s) ↑n).decode = 1 ∧ a ≠ (encOf (timeTo t s) ↑n).a ∧ (encOf (timeTo t s) ↑n).b = false) ∧ ↑n ≠ (timeTo t s).lt.master ∧ 0
      < (encOf (timeTo t s) ↑n).maxStep ∧ ((encOf (timeTo t s) ↑n).win = t / 1000 → (encOf (timeTo t s) ↑n).winCount < (encOf
      (timeTo t s) ↑n).maxStep)) ∧
    (∃ (n : Fin 4) (a b : Bool) (t held : Nat) (s : State), (timeTo t s).lt.backup = none ∧ 5 * (encOf (timeTo t s) ↑n).filt ≤
      held ∧ (encOf (timeTo t s) ↑n).en = true ∧ ((a != (encOf (timeTo t s) ↑n).a) != (b != (encOf (timeTo t s) ↑n).b)) = true ∧
      ((encOf (timeTo t s) ↑n).decode = 4 ∨ (encOf (timeTo t s) ↑n).decode = 2 ∧ a ≠ (encOf (timeTo t s) ↑n).a ∨ (encOf (timeTo
      t s) ↑n).decode = 1 ∧ a ≠ (encOf (timeTo t s) ↑n).a ∧ (encOf (timeTo t s) ↑n).b = false) ∧ ↑n = (timeTo t s).lt.master ∧ 0
      < (encOf (timeTo t s) ↑n).maxStep ∧ ((encOf (timeTo t s) ↑n).win = t / 1000 → (encOf (timeTo t s) ↑n).winCount < (encOf
      (timeTo t s) ↑n).maxStep) ∧ s.ts ≤ t ∧ Quiet (timeTo t s) ∧ (timeTo t s).cal = [] ∧ ((timeTo t s).lt.pos + (encOf (timeTo
      t s) ↑n).scale) / 256 < (timeTo t s).lt.boundary) ∧
    (∃ (n : Fin 4) (a b : Bool) (t held : Nat) (s : State), (timeTo t s).lt.backup = none ∧ 5 * (encOf (timeTo t s) ↑n).filt ≤
      held ∧ (encOf (timeTo t s) ↑n).en = true ∧ ((a != (encOf (timeTo t s) ↑n).a) != (b != (encOf (timeTo t s) ↑n).b)) = true ∧
      ((encOf (timeTo t s) ↑n).decode = 4 ∨ (encOf (timeTo t s) ↑n).decode = 2 ∧ a ≠ (encOf (timeTo t s) ↑n).a ∨ (encOf (timeTo
      t s) ↑n).decode = 1 ∧ a ≠ (encOf (timeTo t s) ↑n).a ∧ (encOf (timeTo t s) ↑n).b = false) ∧ (encOf (timeTo t s) ↑n).win = t
      / 1000 ∧ (encOf (timeTo t s) ↑n).maxStep ≤ (encOf (timeTo t s) ↑n).winCount) :=
  ⟨ ⟨3, 3000, 9, tS, by decide +kernel⟩,
    ⟨3, 3000, 10, tS, by decide +kernel⟩,
    ⟨0, true, true, 3000, 10, tS, by decide +kernel⟩,
    ⟨3, true, false, 3000, 10, tE { en := true, win := 3, winCount := 39 }, by decide +kernel⟩,
    ⟨0, false, true, 3000, 10, tS, by decide +kernel⟩,
    ⟨3, true, false, 3000, 10, tE { en := true, decode := 1, win := 3, winCount := 40 }, by decide +kernel⟩⟩

end EncoderTransitionsCountOrAreRefused

namespace LineMasterPressAndRepeat

def tL (f : LineTime → LineTime) : State := { tS with lt := f tS.lt }

theorem wit_LineMasterPressAndRepeat :
    (∃ (t : Nat) (s : State) (n : Fin 4) (held : Nat), held < 5 * (encOf (timeTo t s) ↑n).filt) ∧
    (∃ (t : Nat) (s : State) (n : Fin 4) (held : Nat), 5 * (encOf (timeTo t s) ↑n).filt ≤ held ∧ (encOf (timeTo t s) ↑n).en =
      true ∧ ↑n = (timeTo t s).lt.master ∧ (encOf (timeTo t s) ↑n).z = false) ∧
    (∃ (t : Nat) (s : State) (n : Fin 4) (held : Nat) (level : Bool), 5 * (encOf (timeTo t s) ↑n).filt ≤ held ∧ (level = false ∨
      (encOf (timeTo t s) ↑n).z = true ∨ (encOf (timeTo t s) ↑n).en = false ∨ ↑n ≠ (timeTo t s).lt.master)) ∧
    (∃ (t : Nat) (s : State) (b : Nat), (timeTo t s).lt.backup = some b ∧ ((∃ (i : Nat), (encOf (timeTo t s) (timeTo t
      s).lt.master).illegals[3]? = some i ∧ (timeTo t s).ts ≤ i + 1000000) ∨ max (timeTo t s).lt.masterSince ((timeTo t
      s).lt.lastCount.getD 0) + 1000000 ≤ (timeTo t s).ts ∧ ∃ (i : Nat), (encOf (timeTo t s) b).recent[15]? = some i ∧ (timeTo t
      s).ts ≤ i + 1000000)) ∧
    (∃ (t : Nat) (s : State), failoverDue (timeTo t s) = false) ∧
    (∃ (t : Nat) (s : State) (w : Nat), (timeTo t s).lt.press ≠ Press.stopped ∧ slowFrom (timeTo t s) = some w ∧ (timeTo t
      s).lt.stopHold * 100000 ≤ (timeTo t s).ts - w) ∧
    (∃ (t : Nat) (s : State) (w : Nat), (timeTo t s).lt.press ≠ Press.stopped ∧ slowFrom (timeTo t s) = some w ∧ (timeTo t s).ts
      - w < (timeTo t s).lt.stopHold * 100000) ∧
    (∃ (t : Nat) (s : State), (timeTo t s).lt.behind = false ∧ (timeTo t s).lt.boundary ≤ lxNow (timeTo t s) ∧ lxNow (timeTo t
      s) < (timeTo t s).lt.boundary + 256 * (timeTo t s).lt.repeatLen ∧ Quiet (timeTo t s) ∧ (timeTo t s).streams = []) ∧
    (∃ (t : Nat) (s : State), lxNow (timeTo t s) < (timeTo t s).lt.boundary) :=
  ⟨ ⟨3000, tS, 3, 9, by decide +kernel⟩,
    ⟨3000, tS, 0, 10, by decide +kernel⟩,
    ⟨3000, tS, 3, 10, true, by decide +kernel⟩,
    ⟨1002000, tL (fun l =>
      { l with backup := some 3, encs := [(0, { en := true, illegals := [2003, 2002, 2001, 2000] }), (3, { en := true })] }), 3,
      by decide +kernel⟩,
    ⟨1002000, tL (fun l =>
      { l with backup := some 3, encs := [(0, { en := true, illegals := [2003, 2002, 2001, 1999] }), (3, { en := true })] }),
      by decide +kernel⟩,
    ⟨2001000, tL (fun l => { l with press := .forward, slowSince := some 1000 }), 1000, by decide +kernel⟩,
    ⟨2000999, tL (fun l => { l with press := .forward, slowSince := some 1000 }), 1000, by decide +kernel⟩,
    ⟨3000, tL (fun l => { l with pos := 2 ^ 48 + 2 ^ 16 * 2704 }), by decide +kernel⟩,
    ⟨3000, tL (fun l => { l with pos := 2 ^ 48 + 2 ^ 16 * 2704 - 256 }), by decide +kernel⟩⟩

end LineMasterPressAndRepeat

namespace CalendarFires

def tCal (e : CalEntry) : State := { tS with cal := [(2047, e)] }

def tRun (e : CalEntry) : State :=
  { tCal e with lt := { tS.lt with press := .forward, edges := [(2000, 2 ^ 48), (1000, 2 ^ 48 - 2 ^ 16)] } }

def tNext : CalEntry := { f := { mode := .once, target := 2 ^ 40 + 128 }, nextLx := some (2 ^ 40 + 128) }

def tTs : CalEntry :=
  { f := { mode := .periodic, clock := .ts, tsTarget := 2000, tsPeriod := 300, action := .strobe 15 .set }, tsOn := true, tsIdx := 1 }

def tOcc (i : Nat) (f : CalFields) : CalEntry := { f := f, committed := some ⟨i, 2 ^ 40 + 256, f, 0⟩ }

def tSet : CalFields := { mode := .once, action := .strobe 15 .set }

def tFall : CalFields := { mode := .once, action := .trigger 5 3 false }

theorem wit_CalendarFires :
    (∃ (n : Fin 2048) (t : Nat) (s : State) (g i : Nat), (calOf (timeTo t s) ↑n).nextLx = some g ∧ (calOf (timeTo t s)
      ↑n).committed = none ∧ (timeTo t s).lt.behind = false ∧ lxTimed (timeTo t s) (calOf (timeTo t s) ↑n).f = true ∧ instantOf
      (timeTo t s) g = some i ∧ i ≤ (timeTo t s).ts + 200) ∧
    (∃ (n : Fin 2048) (t : Nat) (s : State) (g i : Nat), (calOf (timeTo t s) ↑n).nextLx = some g ∧ (calOf (timeTo t s)
      ↑n).committed = none ∧ (timeTo t s).lt.behind = false ∧ lxTimed (timeTo t s) (calOf (timeTo t s) ↑n).f = true ∧ instantOf
      (timeTo t s) g = some i ∧ (timeTo t s).ts + 200 < i) ∧
    (∃ (n : Fin 2048) (t : Nat) (s : State) (o : Occurrence) (out : Nat), (calOf (timeTo t s) ↑n).committed = some o ∧ o.instant
      ≤ t ∧ (timeTo t s).lt.behind = false ∧ o.fields.gate = CalGate.none ∧ (calOf (timeTo t s) ↑n).deferred = [] ∧
      o.fields.action = CalAction.strobe out StrobeOp.set ∧ ((tabGet { } (timeTo t s).strobes out).lastOp.fst = o.instant / 2 →
      (tabGet { } (timeTo t s).strobes out).lastOp.snd ≤ ↑n)) ∧
    (∃ (n : Fin 2048) (t : Nat) (s : State) (o : Occurrence), (calOf (timeTo t s) ↑n).committed = some o ∧ o.instant ≤ t ∧
      (timeTo t s).lt.behind = false ∧ o.fields.gate = CalGate.skip ∧ (timeTo t s).lt.mLock = true ∧ inGate o.fields.gateStart
      o.fields.gateEnd (mainsPhase (timeTo t s).lt o.instant) = false) ∧
    (∃ (n : Fin 2048) (t : Nat) (s : State) (o : Occurrence), (calOf (timeTo t s) ↑n).committed = some o ∧ o.instant ≤ t ∧
      (timeTo t s).lt.behind = true ∧ (calOf (timeTo t s) ↑n).f = o.fields ∧ (timeTo t s).lt.hwm < o.target) ∧
    (∃ (n : Fin 2048) (t : Nat) (s : State), (calOf (timeTo t s) ↑n).tsOn = true ∧ (calOf (timeTo t s) ↑n).f.mode ≠ CalMode.off
      ∧ (calOf (timeTo t s) ↑n).f.clock = CalClock.ts ∧ (calOf (timeTo t s) ↑n).f.gate = CalGate.none ∧ (calOf (timeTo t s)
      ↑n).deferred = [] ∧ t < (calOf (timeTo t s) ↑n).tsPast.getD (tsPoint (timeTo t s) (calOf (timeTo t s) ↑n) (calOf (timeTo t
      s) ↑n).tsIdx)) ∧
    (∃ (n : Fin 2048) (t : Nat) (s : State) (out : Nat), (calOf (timeTo t s) ↑n).tsOn = true ∧ (calOf (timeTo t s) ↑n).f.mode ≠
      CalMode.off ∧ (calOf (timeTo t s) ↑n).f.clock = CalClock.ts ∧ (calOf (timeTo t s) ↑n).f.gate = CalGate.none ∧ (calOf
      (timeTo t s) ↑n).deferred = [] ∧ (calOf (timeTo t s) ↑n).tsPast.getD (tsPoint (timeTo t s) (calOf (timeTo t s) ↑n) (calOf
      (timeTo t s) ↑n).tsIdx) ≤ t ∧ (calOf (timeTo t s) ↑n).f.action = CalAction.strobe out StrobeOp.set ∧ ((tabGet { } (timeTo
      t s).strobes out).lastOp.fst = (calOf (timeTo t s) ↑n).tsPast.getD (tsPoint (timeTo t s) (calOf (timeTo t s) ↑n) (calOf
      (timeTo t s) ↑n).tsIdx) / 2 → (tabGet { } (timeTo t s).strobes out).lastOp.snd ≤ ↑n)) ∧
    (∃ (n : Fin 2048) (t : Nat) (s : State) (o : Occurrence), (calOf (timeTo t s) ↑n).deferred = [o] ∧ t < o.instant) ∧
    (∃ (n : Fin 2048) (t : Nat) (s : State) (o : Occurrence) (port conn : Nat), (calOf (timeTo t s) ↑n).deferred = [o] ∧
      o.instant ≤ t ∧ o.fields.action = CalAction.trigger port conn false ∧ devUp (portOf (timeTo t s) port) conn = true) ∧
    (∃ (t : Nat) (s : State) (out : Fin 16) (e i : Nat), (tabGet { } (timeTo t s).strobes ↑out).ends = [(e, i)] ∧ i ≤ t ∧
      ((tabGet { } (timeTo t s).strobes ↑out).lastOp.fst = i / 2 → (tabGet { } (timeTo t s).strobes ↑out).lastOp.snd ≤ e)) :=
  ⟨ ⟨2047, 2300, tRun tNext, 2 ^ 40 + 128, 2500, by decide +kernel⟩,
    ⟨2047, 2299, tRun tNext, 2 ^ 40 + 128, 2500, by decide +kernel⟩,
    ⟨2047, 2300, { tCal (tOcc 2300 tSet) with strobes := [(15, { lastOp := (1150, 2047) })] }, ⟨2300, 2 ^ 40 + 256, tSet, 0⟩,
      15, by decide +kernel⟩,
    ⟨2047, 2300, { tCal (tOcc 2300 { tSet with gate := .skip, gateStart := 100, gateEnd := 200 }) with
        lt := { tS.lt with
          mLock := true, mRef := 2300, mPeriod := 20000000, mPeriods := List.replicate 8 20000000, mLast := some 2300 } },
      ⟨2300, 2 ^ 40 + 256, { tSet with gate := .skip, gateStart := 100, gateEnd := 200 }, 0⟩, by decide +kernel⟩,
    ⟨2047, 2300, { tCal (tOcc 2300 tSet) with lt := { tS.lt with behind := true } }, ⟨2300, 2 ^ 40 + 256, tSet, 0⟩,
      by decide +kernel⟩,
    ⟨2047, 2299, tCal tTs, by decide +kernel⟩,
    ⟨2047, 2300, tCal tTs, 15, by decide +kernel⟩,
    ⟨2047, 2299, tCal { deferred := [⟨2300, 2 ^ 40, tFall, 0⟩] }, ⟨2300, 2 ^ 40, tFall, 0⟩, by decide +kernel⟩,
    ⟨2047, 2300, { tCal { deferred := [⟨2300, 2 ^ 40, tFall, 0⟩] } with
        ports := [(5, { en := true, link := .up, conns := [(0, { up := true, master := true, used := true, devId := 3 })] })] },
      ⟨2300, 2 ^ 40, tFall, 0⟩, 5, 3, by decide +kernel⟩,
    ⟨2300, { tS with strobes := [(15, { active := true, ends := [(2047, 2300)] })] }, 15, 2047, 2300, by decide +kernel⟩⟩

end CalendarFires

namespace MainsTrackerFollowsItsEdges

def tM (f : LineTime → LineTime) : State :=
  { tS with lt := f { tS.lt with mainsEdge := .rising, mLock := true, mRef := 1000, mPeriod := 20000000, mPeriods := List.replicate 8 20000000, mLast := some 1000 } }

theorem wit_MainsTrackerFollowsItsEdges :
    (∃ (t : Nat) (s : State) (held : Nat), held < 1000 * (timeTo t s).lt.mainsFilt) ∧
    (∃ (t : Nat) (s : State) (held : Nat) (level : Bool), 1000 * (timeTo t s).lt.mainsFilt ≤ held ∧ (timeTo t s).lt.mLevel =
      !level ∧ ((timeTo t s).lt.mainsEdge = MainsEdge.falling ∧ level = false ∨ ((timeTo t s).lt.mainsEdge = MainsEdge.rising ∨
      (timeTo t s).lt.mainsEdge = MainsEdge.both) ∧ level = true) ∧ (timeTo t s).lt.mLock = true ∧ mainsNear (timeTo t s).lt t
      ((timeTo t s).lt.mRef + ((timeTo t s).lt.mHold + 1) * (timeTo t s).lt.mPeriod) = true) ∧
    (∃ (t : Nat) (s : State) (held : Nat) (level : Bool), 1000 * (timeTo t s).lt.mainsFilt ≤ held ∧ (timeTo t s).lt.mLevel =
      !level ∧ ((timeTo t s).lt.mainsEdge = MainsEdge.falling ∧ level = false ∨ ((timeTo t s).lt.mainsEdge = MainsEdge.rising ∨
      (timeTo t s).lt.mainsEdge = MainsEdge.both) ∧ level = true) ∧ (timeTo t s).lt.mLock = true ∧ mainsNear (timeTo t s).lt t
      ((timeTo t s).lt.mRef + ((timeTo t s).lt.mHold + 1) * (timeTo t s).lt.mPeriod) = false) ∧
    (∃ (t : Nat) (s : State) (held : Nat) (level : Bool) (e : Nat), 1000 * (timeTo t s).lt.mainsFilt ≤ held ∧ (timeTo t
      s).lt.mLevel = !level ∧ ((timeTo t s).lt.mainsEdge = MainsEdge.falling ∧ level = false ∨ ((timeTo t s).lt.mainsEdge =
      MainsEdge.rising ∨ (timeTo t s).lt.mainsEdge = MainsEdge.both) ∧ level = true) ∧ (timeTo t s).lt.mLock = false ∧ (timeTo t
      s).lt.mLast = some e ∧ 7 ≤ (timeTo t s).lt.mRun ∧ 1000000000 ≤ 65 * (t - e) ∧ 45 * (t - e) ≤ 1000000000 ∧ mainsAgree
      (List.take 7 ((t - e) :: (timeTo t s).lt.mPeriods)) = true) ∧
    (∃ (t : Nat) (s : State) (held : Nat) (level : Bool), 1000 * (timeTo t s).lt.mainsFilt ≤ held ∧ (timeTo t s).lt.mLevel =
      !level ∧ ((timeTo t s).lt.mainsEdge = MainsEdge.off ∨ (timeTo t s).lt.mainsEdge = MainsEdge.falling ∧ level = true ∨
      (timeTo t s).lt.mainsEdge = MainsEdge.rising ∧ level = false)) ∧
    (∃ (t : Nat) (s : State) (held : Nat), 1000 * (timeTo t s).lt.mainsFilt ≤ held ∧ (timeTo t s).lt.mLevel = !false ∧ (timeTo t
      s).lt.mainsEdge = MainsEdge.both ∧ (timeTo t s).lt.mLock = true ∧ mainsNear (timeTo t s).lt t ((timeTo t s).lt.mRef +
      (timeTo t s).lt.mHold * (timeTo t s).lt.mPeriod + (timeTo t s).lt.mPeriod / 2) = true) ∧
    (∃ (t : Nat) (s : State), (timeTo t s).lt.mLock = true ∧ 100 * (t - ((timeTo t s).lt.mRef + ((timeTo t s).lt.mHold + 1) *
      (timeTo t s).lt.mPeriod)) ≤ (timeTo t s).lt.mainsWin * (timeTo t s).lt.mPeriod) ∧
    (∃ (t : Nat) (s : State), (timeTo t s).lt.mLock = true ∧ (timeTo t s).lt.mainsWin * (timeTo t s).lt.mPeriod < 100 * (t -
      ((timeTo t s).lt.mRef + ((timeTo t s).lt.mHold + 1) * (timeTo t s).lt.mPeriod)) ∧ (timeTo t s).lt.mFall = false ∧ (timeTo
      t s).lt.mHold ≠ 4) ∧
    (∃ (t : Nat) (s : State), (timeTo t s).lt.mLock = true ∧ (timeTo t s).lt.mainsWin * (timeTo t s).lt.mPeriod < 100 * (t -
      ((timeTo t s).lt.mRef + ((timeTo t s).lt.mHold + 1) * (timeTo t s).lt.mPeriod)) ∧ (timeTo t s).lt.mFall = false ∧ (timeTo
      t s).lt.mHold = 4) :=
  ⟨ ⟨3000, tS, 19999, by decide +kernel⟩,
    ⟨21001000, tM id, 20000, true, by decide +kernel⟩,
    ⟨21001001, tM id, 20000, true, by decide +kernel⟩,
    ⟨22223223, { tS with
        lt := { tS.lt with mainsEdge := .rising, mRun := 7, mPeriods := List.replicate 7 22000000, mLast := some 1001 } },
      20000, true, 1001, by decide +kernel⟩,
    ⟨3000, tM (fun l => { l with mLevel := true }), 20000, false, by decide +kernel⟩,
    ⟨11001000, tM (fun l => { l with mainsEdge := .both, mLevel := true }), 20000, by decide +kernel⟩,
    ⟨21001000, tM id, by decide +kernel⟩,
    ⟨21001001, tM id, by decide +kernel⟩,
    ⟨101001001, tM (fun l => { l with mHold := 4 }), by decide +kernel⟩⟩

end MainsTrackerFollowsItsEdges

namespace PortLinksFollowTheirEvents

def tPort (p : Port) : State := { tS with ports := [(5, p)] }

def tTwo (l : Link) (c : Conn) : State :=
  tPort { en := true, connEn := 12, link := l, conns := [(2, { up := true, master := true, used := true }), (3, c)] }

def tLost : Conn := { lostAt := some 1000, used := true, devId := 1 }

theorem wit_PortLinksFollowTheirEvents :
    (∃ (port : Fin 6) (t : Nat) (s : State) (answers : List CxpAnswer) (m : CxpAnswer), (portOf (timeTo t s) ↑port).link =
      Link.discovery ∧ m ∈ answers ∧ m.devId = 0 ∧ (∀ (a : CxpAnswer), a ∈ answers → bitAt (portOf (timeTo t s) ↑port).connEn
      ↑a.conn = true ∧ (a.devId = 0 → a = m)) ∧ (List.map (fun (x : CxpAnswer) => x.conn) answers).Nodup) ∧
    (∃ (port : Fin 6) (t : Nat) (s : State) (answers : List CxpAnswer), (portOf (timeTo t s) ↑port).link = Link.discovery ∧ (∀
      (a : CxpAnswer), a ∈ answers → bitAt (portOf (timeTo t s) ↑port).connEn ↑a.conn = true → a.devId ≠ 0)) ∧
    (∃ (port : Fin 6) (t : Nat) (s : State) (conn : Fin 4), (tabGet { } (portOf (timeTo t s) ↑port).conns ↑conn).up = true ∧
      (tabGet { } (portOf (timeTo t s) ↑port).conns ↑conn).master = false) ∧
    (∃ (port : Fin 6) (t : Nat) (s : State) (conn : Fin 4), (tabGet { } (portOf (timeTo t s) ↑port).conns ↑conn).up = true ∧
      (tabGet { } (portOf (timeTo t s) ↑port).conns ↑conn).master = true ∧ Quiet (timeTo t s) ∧ (∀ (j : Nat), j < 4 →
      streamTakes (streamOf (timeTo t s) (4 * ↑port + j)) = false)) ∧
    (∃ (port : Fin 6) (t : Nat) (s : State) (conn : Fin 4) (w : Nat), (tabGet { } (portOf (timeTo t s) ↑port).conns
      ↑conn).lostAt = some w ∧ (portOf (timeTo t s) ↑port).autoReconnect = true ∧ (portOf (timeTo t s) ↑port).en = true ∧
      (timeTo t s).ts < w + 100000000) ∧
    (∃ (port : Fin 6) (t : Nat) (s : State) (conn : Fin 4) (w : Nat), (tabGet { } (portOf (timeTo t s) ↑port).conns
      ↑conn).lostAt = some w ∧ (portOf (timeTo t s) ↑port).autoReconnect = true ∧ (portOf (timeTo t s) ↑port).en = true ∧ w +
      100000000 ≤ (timeTo t s).ts ∧ ((tabGet { } (portOf (timeTo t s) ↑port).conns ↑conn).master = true ∨ ∀ (e : Nat × Conn), e
      ∈ (portOf (timeTo t s) ↑port).conns → e.snd.master = false)) ∧
    (∃ (port : Fin 6) (t : Nat) (s : State) (conn : Fin 4) (w : Nat), (tabGet { } (portOf (timeTo t s) ↑port).conns
      ↑conn).lostAt = some w ∧ (portOf (timeTo t s) ↑port).autoReconnect = true ∧ (portOf (timeTo t s) ↑port).en = true ∧ w +
      100000000 ≤ (timeTo t s).ts ∧ (tabGet { } (portOf (timeTo t s) ↑port).conns ↑conn).master = false ∧ (∃ (e : Nat × Conn), e
      ∈ (portOf (timeTo t s) ↑port).conns ∧ e.snd.master = true)) :=
  ⟨ ⟨5, 100001000, tPort { en := true, connEn := 12, link := .discovery }, [⟨2, 1, 2, 7⟩, ⟨3, 0, 2, 7⟩], ⟨3, 0, 2, 7⟩,
      by decide +kernel⟩,
    ⟨5, 100001000, tPort { en := true, connEn := 8, link := .discovery }, [⟨2, 0, 1, 7⟩, ⟨3, 1, 1, 7⟩], by decide +kernel⟩,
    ⟨5, 100001000, tTwo .up { up := true, used := true, devId := 1 }, 3, by decide +kernel⟩,
    ⟨5, 100001000, tPort { en := true, connEn := 8, link := .up, conns := [(3, { up := true, master := true, used := true })] },
      3, by decide +kernel⟩,
    ⟨5, 100000999, tTwo .degraded tLost, 3, 1000, by decide +kernel⟩,
    ⟨5, 100001000, tPort
      { en := true, connEn := 8, link := .down, conns := [(3, { master := true, lostAt := some 1000, used := true })] }, 3,
      1000, by decide +kernel⟩,
    ⟨5, 100001000, tTwo .degraded tLost, 3, 1000, by decide +kernel⟩⟩

end PortLinksFollowTheirEvents

namespace CameraControlAndColumnTables

def tCtl (op : Nat) (p : List Byte) : State :=
  { tS with ports := [(5, { en := true, link := .up, ctrl := some ⟨3, 1000, 0⟩ })], sup := { tS.sup with longs := [(3, { mb := 0, seq := 1, opcode := op, obj := 5, payload := p })] } }

def tUp (p : Option SwitchPoint) : State := { tS with ports := [(5, { en := true, link := .degraded, pendSwitch := p })] }

theorem wit_CameraControlAndColumnTables :
    (∃ (port : Fin 6) (s : State) (c : CtrlTxn) (l : LongCmd), (portOf s ↑port).ctrl = some c ∧ tabGet? s.sup.longs c.cmd = some
      l ∧ l.opcode ≠ 517) ∧
    (∃ (port : Fin 6) (s : State) (c : CtrlTxn) (l : LongCmd), (portOf s ↑port).ctrl = some c ∧ tabGet? s.sup.longs c.cmd = some
      l ∧ l.opcode = 517 ∧ leAt l.payload 8 2 = 0) ∧
    (∃ (port : Fin 6) (s : State) (c : CtrlTxn) (l : LongCmd), (portOf s ↑port).ctrl = some c ∧ tabGet? s.sup.longs c.cmd = some
      l ∧ l.opcode = 517 ∧ leAt l.payload 8 2 ≠ 0) ∧
    (∃ (port : Fin 6) (s : State) (c : CtrlTxn) (l : LongCmd) (t : Nat), (portOf (timeTo t s) ↑port).ctrl = some c ∧ tabGet?
      (timeTo t s).sup.longs c.cmd = some l ∧ c.sent + 1000000 * (portOf (timeTo t s) ↑port).ctrlTimeout ≤ (timeTo t s).ts) ∧
    (∃ (port : Fin 6) (s : State) (c : CtrlTxn) (l : LongCmd) (t : Nat), (portOf (timeTo t s) ↑port).ctrl = some c ∧ tabGet?
      (timeTo t s).sup.longs c.cmd = some l ∧ (timeTo t s).ts < c.sent + 1000000 * (portOf (timeTo t s) ↑port).ctrlTimeout) ∧
    (∃ (port : Fin 6) (s : State), portUp (portOf s ↑port) = true ∧ noticeOcc s < 128) ∧
    (∃ (port : Fin 6) (s : State), portUp (portOf s ↑port) = true ∧ 128 ≤ noticeOcc s) ∧
    (∃ (port : Fin 6) (s : State), (∃ (j : Nat), j < 4 ∧ (streamOf s (4 * ↑port + j)).rx ≠ none)) ∧
    (∃ (port : Fin 6) (s : State), ((portOf s ↑port).pendSwitch = some (SwitchPoint.repeatBoundary 0) ∨ ∃ (x : Nat), (portOf s
      ↑port).pendSwitch = some (SwitchPoint.position x) ∧ x ≤ lxNow s ∧ ∀ (j : Nat), j < 4 → (streamOf s (4 * ↑port + j)).trigQ
      = []) ∧ (∀ (j : Nat), j < 4 → (streamOf s (4 * ↑port + j)).rx = none)) ∧
    (∃ (port : Fin 6) (s : State), ((portOf s ↑port).pendSwitch = none ∨ (∃ (n : Nat), (portOf s ↑port).pendSwitch = some
      (SwitchPoint.repeatBoundary (n + 1))) ∨ ∃ (x : Nat), (portOf s ↑port).pendSwitch = some (SwitchPoint.position x) ∧ lxNow s
      < x) ∧ (∀ (j : Nat), j < 4 → (streamOf s (4 * ↑port + j)).rx = none)) :=
  ⟨ ⟨5, tCtl 0x0206 [], ⟨3, 1000, 0⟩, { mb := 0, seq := 1, opcode := 0x0206, obj := 5, payload := [] }, by decide +kernel⟩,
    ⟨5, tCtl 0x0205 (List.replicate 10 0), ⟨3, 1000, 0⟩,
      { mb := 0, seq := 1, opcode := 0x0205, obj := 5, payload := List.replicate 10 0 }, by decide +kernel⟩,
    ⟨5, tCtl 0x0205 (List.replicate 10 1), ⟨3, 1000, 0⟩,
      { mb := 0, seq := 1, opcode := 0x0205, obj := 5, payload := List.replicate 10 1 }, by decide +kernel⟩,
    ⟨5, tCtl 0x0206 [], ⟨3, 1000, 0⟩, { mb := 0, seq := 1, opcode := 0x0206, obj := 5, payload := [] }, 200001000,
      by decide +kernel⟩,
    ⟨5, tCtl 0x0206 [], ⟨3, 1000, 0⟩, { mb := 0, seq := 1, opcode := 0x0206, obj := 5, payload := [] }, 200000999,
      by decide +kernel⟩,
    ⟨5, { tUp none with regs := [(0x2204, 127)] }, by decide +kernel⟩,
    ⟨5, { tUp none with regs := [(0x2204, 128)] }, by decide +kernel⟩,
    ⟨5, { tUp none with streams := [(23, { rx := some ⟨⟨0, 0, false, false, 0, 0, .keep⟩, []⟩ })] }, by decide +kernel⟩,
    ⟨5, tUp (some (.repeatBoundary 0)), Or.inl (by decide +kernel), by decide +kernel⟩,
    ⟨5, tUp (some (.position (2 ^ 40 + 1))), Or.inr (Or.inr ⟨2 ^ 40 + 1, by decide +kernel⟩), by decide +kernel⟩⟩

end CameraControlAndColumnTables

namespace IngestRowsRecordLines

def tIn (m : Stream) : State :=
  { tS with streams := [(23, m)], ports := [(5, { en := true, link := .up, conns := [(3, { up := true, master := true, used := true })] })] }

def tHead : LineHead := ⟨2 ^ 40, 1500, false, false, 0, 0, .keep⟩

def tRx (b : Tab Byte) : Stream := { state := .running, cxpId := 9, width := 64, rowRep := some 0, rx := some ⟨tHead, b⟩ }

def tRow : Line := ⟨tHead, 0, 31, false, true, false, false, List.replicate 64 5, none⟩

def tOpen : Stripe := ⟨0, true, 0, 0, 31, 2 ^ 40, 2 ^ 40, 1500, 0, 0, 0, false, List.replicate 496 0⟩

def tTrig : TrigEntry := ⟨2 ^ 40, 1500, false, false, 0⟩

theorem wit_IngestRowsRecordLines :
    (∃ (t : Nat) (s : State) (port : Fin 6) (conn : Fin 4) (pkt : StreamPkt), Quiet (timeTo t s) ∧ portUp (portOf (timeTo t s)
      ↑port) = true ∧ (tabGet { } (portOf (timeTo t s) ↑port).conns ↑conn).up = true ∧ (∀ (j : Nat), j < 4 → streamTakes
      (streamOf (timeTo t s) (4 * ↑port + j)) = true → (streamOf (timeTo t s) (4 * ↑port + j)).cxpId ≠ pkt.id) ∧ (pkt.crcOk =
      false ∨ 16384 < pkt.payload.length)) ∧
    (∃ (t : Nat) (s : State) (port : Fin 6) (conn : Fin 4) (pkt : StreamPkt), Quiet (timeTo t s) ∧ portUp (portOf (timeTo t s)
      ↑port) = true ∧ (tabGet { } (portOf (timeTo t s) ↑port).conns ↑conn).up = true ∧ (∀ (j : Nat), j < 4 → streamTakes
      (streamOf (timeTo t s) (4 * ↑port + j)) = true → (streamOf (timeTo t s) (4 * ↑port + j)).cxpId ≠ pkt.id) ∧ pkt.crcOk =
      true ∧ pkt.payload.length ≤ 16384) ∧
    (∃ (t : Nat) (s : State) (port : Fin 6) (conn : Fin 4) (pkt : StreamPkt) (k : Nat) (x : RxLine), (∀ (j : Nat), 4 * ↑port ≤ j
      → j < k → streamTakes (streamOf (timeTo t s) j) = true → (streamOf (timeTo t s) j).cxpId ≠ pkt.id) ∧ Quiet (timeTo t s) ∧
      portUp (portOf (timeTo t s) ↑port) = true ∧ (tabGet { } (portOf (timeTo t s) ↑port).conns ↑conn).up = true ∧ 4 * ↑port ≤ k
      ∧ k < 4 * ↑port + 4 ∧ streamTakes (streamOf (timeTo t s) k) = true ∧ (streamOf (timeTo t s) k).cxpId = pkt.id ∧ (streamOf
      (timeTo t s) k).rx = some x ∧ newLine pkt x = false ∧ (pkt.crcOk = false ∨ 16384 < pkt.payload.length) ∧ pkt.ends = false)
      ∧
    (∃ (t : Nat) (s : State) (port : Fin 6) (conn : Fin 4) (pkt : StreamPkt) (k : Nat) (x : RxLine), (∀ (j : Nat), 4 * ↑port ≤ j
      → j < k → streamTakes (streamOf (timeTo t s) j) = true → (streamOf (timeTo t s) j).cxpId ≠ pkt.id) ∧ Quiet (timeTo t s) ∧
      portUp (portOf (timeTo t s) ↑port) = true ∧ (tabGet { } (portOf (timeTo t s) ↑port).conns ↑conn).up = true ∧ 4 * ↑port ≤ k
      ∧ k < 4 * ↑port + 4 ∧ streamTakes (streamOf (timeTo t s) k) = true ∧ (streamOf (timeTo t s) k).cxpId = pkt.id ∧ (streamOf
      (timeTo t s) k).rx = some x ∧ newLine pkt x = false ∧ pkt.crcOk = true ∧ pkt.payload.length ≤ 16384 ∧ x.head.drop =
      Drop.keep ∧ pkt.ends = false) ∧
    (∃ (t : Nat) (s : State) (port : Fin 6) (conn : Fin 4) (pkt : StreamPkt) (k : Nat) (x : RxLine), (∀ (j : Nat), 4 * ↑port ≤ j
      → j < k → streamTakes (streamOf (timeTo t s) j) = true → (streamOf (timeTo t s) j).cxpId ≠ pkt.id) ∧ Quiet (timeTo t s) ∧
      portUp (portOf (timeTo t s) ↑port) = true ∧ (tabGet { } (portOf (timeTo t s) ↑port).conns ↑conn).up = true ∧ 4 * ↑port ≤ k
      ∧ k < 4 * ↑port + 4 ∧ streamTakes (streamOf (timeTo t s) k) = true ∧ (streamOf (timeTo t s) k).cxpId = pkt.id ∧ (streamOf
      (timeTo t s) k).rx = some x ∧ newLine pkt x = false ∧ pkt.crcOk = true ∧ pkt.payload.length ≤ 16384 ∧ x.head.drop =
      Drop.keep ∧ pkt.ends = true ∧ lostColumns (streamOf (timeTo t s) k) (addBytes pkt.first pkt.payload x.bytes) = [] ∧
      (streamOf (timeTo t s) k).areaLines = 0 ∧ (streamOf (timeTo t s) k).frame = none ∧ (streamOf (timeTo t s) k).missed = [] ∧
      (streamOf (timeTo t s) k).ring = none ∧ (streamOf (timeTo t s) k).open_ = none ∧ (streamOf (timeTo t s) k).fifo = [] ∧
      (streamOf (timeTo t s) k).rowRep = some x.head.rep ∧ repAfter (timeTo t s).lt.repeatCount.toNat x.head.rep = false ∧
      (streamOf (timeTo t s) k).state = StreamState.running) ∧
    (∃ (t : Nat) (s : State) (port : Fin 6) (conn : Fin 4) (pkt : StreamPkt) (k : Nat), (∀ (j : Nat), 4 * ↑port ≤ j → j < k →
      streamTakes (streamOf (timeTo t s) j) = true → (streamOf (timeTo t s) j).cxpId ≠ pkt.id) ∧ Quiet (timeTo t s) ∧ portUp
      (portOf (timeTo t s) ↑port) = true ∧ (tabGet { } (portOf (timeTo t s) ↑port).conns ↑conn).up = true ∧ 4 * ↑port ≤ k ∧ k <
      4 * ↑port + 4 ∧ streamTakes (streamOf (timeTo t s) k) = true ∧ (streamOf (timeTo t s) k).cxpId = pkt.id ∧ (streamOf
      (timeTo t s) k).rx = none ∧ (streamOf (timeTo t s) k).frame = none ∧ (streamOf (timeTo t s) k).areaLines = 0 ∧ (streamOf
      (timeTo t s) k).stampTrigger = false ∧ (streamOf (timeTo t s) k).state = StreamState.running ∧ (portOf (timeTo t s)
      ↑port).pendSwitch = none ∧ ↑port = k / 4 ∧ pkt.crcOk = true ∧ pkt.payload.length ≤ 16384 ∧ pkt.ends = false ∧ (timeTo t
      s).lt.behind = false) ∧
    (∃ (t : Nat) (s : State) (k : Fin 24) (l : Line) (o : Stripe), Quiet (timeTo t s) ∧ Quiet s ∧ s.arrivals = [] ∧ (streamOf s
      ↑k).fifo = [IngestItem.line l] ∧ (streamOf s ↑k).open_ = some o ∧ l.opens = false ∧ o.rows < (streamOf s ↑k).stripeH ∧
      (l.more = false ∨ o.rows + 1 < (streamOf s ↑k).stripeH) ∧ bwReady s 0 = true) ∧
    (∃ (t : Nat) (s : State) (k : Fin 24), Quiet (timeTo t s) ∧ (streamOf s ↑k).state = StreamState.draining ∧ (streamOf s
      ↑k).fifo = []) ∧
    (∃ (t : Nat) (s : State) (k : Fin 24) (e : TrigEntry) (q : List TrigEntry), Quiet (timeTo t s) ∧ (streamOf (timeTo t s)
      ↑k).trigQ = e :: q ∧ (timeTo t s).ts < e.ts + 1000 * (streamOf (timeTo t s) ↑k).lineTimeout) ∧
    (∃ (t : Nat) (s : State) (k : Fin 24) (e : TrigEntry) (q : List TrigEntry), Quiet (timeTo t s) ∧ (streamOf (timeTo t s)
      ↑k).trigQ = e :: q ∧ e.ts + 1000 * (streamOf (timeTo t s) ↑k).lineTimeout ≤ (timeTo t s).ts ∧ (streamOf (timeTo t s)
      ↑k).state = StreamState.running ∧ (streamOf (timeTo t s) ↑k).rx ≠ none) ∧
    (∃ (t : Nat) (s : State) (k : Fin 24) (e : TrigEntry) (q : List TrigEntry), Quiet (timeTo t s) ∧ (streamOf (timeTo t s)
      ↑k).trigQ = e :: q ∧ e.ts + 1000 * (streamOf (timeTo t s) ↑k).lineTimeout ≤ (timeTo t s).ts ∧ (streamOf (timeTo t s)
      ↑k).state = StreamState.running ∧ e.behind = false ∧ (streamOf (timeTo t s) ↑k).rx = none ∧ (streamOf (timeTo t s)
      ↑k).frame = none ∧ (streamOf (timeTo t s) ↑k).missed = [] ∧ (streamOf (timeTo t s) ↑k).ring = none ∧ (streamOf (timeTo t
      s) ↑k).open_ = none ∧ (streamOf (timeTo t s) ↑k).fifo = [] ∧ (streamOf (timeTo t s) ↑k).rowRep = none ∧ (streamOf (timeTo
      t s) ↑k).areaLines = 0 ∧ repAfter (timeTo t s).lt.repeatCount.toNat e.rep = false) :=
  ⟨ ⟨2000, tIn {}, 5, 3, ⟨9, true, true, true, 0, List.replicate 16385 1⟩, by decide +kernel⟩,
    ⟨2000, tIn { state := .running, cxpId := 8 }, 5, 3, ⟨9, true, true, true, 0, [1]⟩, by decide +kernel⟩,
    ⟨2000, tIn (tRx [(0, 3)]), 5, 3, ⟨9, false, false, false, 1, [1]⟩, 23, ⟨tHead, [(0, 3)]⟩,
      (by intro j h hj; clear h; revert j; decide +kernel), by decide +kernel⟩,
    ⟨2000, tIn (tRx [(0, 3)]), 5, 3, ⟨9, true, false, false, 1, List.replicate 16384 1⟩, 23, ⟨tHead, [(0, 3)]⟩,
      (by intro j h hj; clear h; revert j; decide +kernel), by decide +kernel⟩,
    ⟨2000, tIn (tRx ((List.range 63).map fun k => (k, 3))), 5, 3, ⟨9, true, false, true, 63, [1]⟩, 23, ⟨tHead, (List.range
      63).map fun k => (k, 3)⟩, (by intro j h hj; clear h; revert j; decide +kernel), by decide +kernel⟩,
    ⟨2000, tIn { state := .running, cxpId := 9 }, 5, 3, ⟨9, true, true, false, 0, [1]⟩, 23,
      (by intro j h hj; clear h; revert j; decide +kernel), by decide +kernel⟩,
    ⟨2000,
      { tIn { state := .running, cxpId := 9, width := 64, ring := some 127, rowRep := some 0, row := 31, fifo := [.line tRow], open_ := some tOpen } with
        tokens := [(0, 100)], windows := [⟨127, 0, 0x1A, true, none⟩], rings := [(127,
        { tR0 with producer := 0x1A, head := 1, tail := 0, pub := 0, tab := [(0, { state := .filling })] })] }, 23, tRow, tOpen,
      by decide +kernel⟩,
    ⟨2000, tIn { state := .draining }, 23, by decide +kernel⟩,
    ⟨101499, tIn { state := .running, width := 64, trigQ := [tTrig] }, 23, tTrig, [], by decide +kernel⟩,
    ⟨101500, tIn { tRx [(0, 3)] with trigQ := [tTrig] }, 23, tTrig, [], by decide +kernel⟩,
    ⟨101500, tIn { state := .running, width := 64, trigQ := [tTrig] }, 23, tTrig, [], by decide +kernel⟩⟩

end IngestRowsRecordLines

namespace ControlTileOpsHaveTheirEffect

def tWait (n q v : Nat) : State :=
  { tT (0x41 + 95 * 2 ^ 24 + 0xFFF000000000 + n * 2 ^ 48) (tW1 0xFFFF 0xFFFF 0xFFFF 0xFFFF) .control [] with sems := [(4095, { value := v, queue := (List.replicate q ⟨.bank 0, 0x18, 9⟩) })] }

def tSig : State :=
  { tT (0x42 + 0xFFF000000 + 95 * 2 ^ 36 + 5 * 2 ^ 48) (tW1 0xFFFF 0xFFFF 0xFFFF 0xFFFF) .control [] with sems := [(4095, { value := 65533 })] }

def tFence (p : Nat) (l : Tab TcLine) : State := { tO 0x43 0xFFFF 0xFFFF 0xFFFF p .control [] with tcache := l }

def tDirty : TcLine := ⟨.normal, 1, true, [(0, 4)], List.replicate 64 1, none, [], []⟩

def tClean : TcLine := { tDirty with dirty := [] }

def tEp (e : EpochState) : State :=
  { tT (tW0 0x44 + 255 * 2 ^ 16) (tW1 0xFFFF 0xFFFF 0xFFFF 0xFFFF) .control [] with sgroups := [(15, { tGroup with task := some { tTask with epochs := [(255, e)] } })] }

theorem wit_ControlTileOpsHaveTheirEffect :
    (∃ (s : State) (id : Nat) (c : OpCtx), Ready 0 s id c ∧ opWaitSem c.o.w0 = 4095) ∧
    (∃ (s : State) (id : Nat) (c : OpCtx) (sem : Bool), (Ready (if sem = true then 65 else 0) s id c) ∧ opWaitSem c.o.w0 ≠ 4095
      ∧ c.o.waitQueued = false ∧ (sem = false → c.o.waitServed = false) ∧ NoLines s c.o.core ∧ semCan s (imgSem c.md (opWaitSem
      c.o.w0)) (opWaitN c.o.w0) = true) ∧
    (∃ (s : State) (id : Nat) (c : OpCtx) (sem : Bool), (Ready (if sem = true then 65 else 0) s id c) ∧ opWaitSem c.o.w0 ≠ 4095
      ∧ c.o.waitQueued = false ∧ (sem = false → c.o.waitServed = false) ∧ NoLines s c.o.core ∧ semCan s (imgSem c.md (opWaitSem
      c.o.w0)) (opWaitN c.o.w0) = false) ∧
    (∃ (s : State) (id : Nat) (c : OpCtx), Ready 66 s id c ∧ opWaitSem c.o.w0 = 4095 ∧ opSigSem c.o.w0 = 4095) ∧
    (∃ (s : State) (id : Nat) (c : OpCtx), Ready 66 s id c ∧ opWaitSem c.o.w0 = 4095 ∧ opSigSem c.o.w0 ≠ 4095 ∧ NoLines s
      c.o.core ∧ (semOf s (imgSem c.md (opSigSem c.o.w0))).queue = []) ∧
    (∃ (s : State) (id : Nat) (c : OpCtx), Ready 67 s id c ∧ opWaitSem c.o.w0 = 4095 ∧ (List.map (fun (x : Nat × TcLine) =>
      x.fst) s.tcache).Nodup ∧ opParam c.o.w1 = 0) ∧
    (∃ (s : State) (id : Nat) (c : OpCtx), Ready 67 s id c ∧ opWaitSem c.o.w0 = 4095 ∧ (List.map (fun (x : Nat × TcLine) =>
      x.fst) s.tcache).Nodup ∧ opParam c.o.w1 = 1 ∧ (∀ (e : Nat × TcLine), e ∈ s.tcache → tcCore e.fst = c.o.core → e.snd.dirty
      = [] ∧ e.snd.red = none ∧ e.snd.ecc = [])) ∧
    (∃ (s : State) (id : Nat) (c : OpCtx) (n : Nat) (l : TcLine), Ready 67 s id c ∧ opWaitSem c.o.w0 = 4095 ∧ (List.map (fun (x
      : Nat × TcLine) => x.fst) s.tcache).Nodup ∧ opParam c.o.w1 = 1 ∧ n < 2 ^ 24 ∧ s.tcache = [(tcKey c.o.core n, l)] ∧ l.red =
      none ∧ l.filled = true ∧ l.ecc = [] ∧ l.dirty ≠ [] ∧ (∀ (e : Nat × Byte), e ∈ l.dirty → e.fst < 64) ∧ tabSortedFrom 0
      l.dirty = true ∧ s.arrivals = [] ∧ Passes s (wbReq s c.o.core n (overlay l.data l.dirty))) ∧
    (∃ (s : State) (id : Nat) (c : OpCtx), Ready 67 s id c ∧ opWaitSem c.o.w0 = 4095 ∧ (List.map (fun (x : Nat × TcLine) =>
      x.fst) s.tcache).Nodup ∧ opParam c.o.w1 = 2 ∧ (∀ (e : Nat × TcLine), e ∈ s.tcache → tcCore e.fst = c.o.core → e.snd.dirty
      = [] ∧ e.snd.red = none ∧ e.snd.ecc = [])) ∧
    (∃ (s : State) (id : Nat) (c : OpCtx), Ready 64 s id c ∧ opWaitSem c.o.w0 = 4095 ∧ NoLines s c.o.core ∧ (tabGet []
      c.t.arrivals (barrierKey c)).length + 1 ≠ (barrierMembers s c).length) ∧
    (∃ (s : State) (id : Nat) (c : OpCtx), Ready 64 s id c ∧ opWaitSem c.o.w0 = 4095 ∧ NoLines s c.o.core ∧ (tabGet []
      c.t.arrivals (barrierKey c)).length + 1 = (barrierMembers s c).length ∧ s.tcache = [] ∧ (∀ (i : Nat), i ∈ tabGet []
      c.t.arrivals (barrierKey c) → (tabGet? s.ops i).isSome = true)) ∧
    (∃ (s : State) (id : Nat) (c : OpCtx), Ready 68 s id c ∧ opWaitSem c.o.w0 = 4095 ∧ epochState c.t (opEpoch c.o.w0) =
      EpochState.open_ ∧ c.md.rings = []) ∧
    (∃ (s : State) (id : Nat) (c : OpCtx), Ready 68 s id c ∧ opWaitSem c.o.w0 = 4095 ∧ epochState c.t (opEpoch c.o.w0) =
      EpochState.cancelled) :=
  ⟨ ⟨tN 0, 7, tOf (tN 0), by decide +kernel⟩,
    ⟨tWait 5 0 5, 7, tOf (tWait 5 0 5), true, by decide +kernel⟩,
    ⟨tWait 5 1 5, 7, tOf (tWait 5 1 5), true, by decide +kernel⟩,
    ⟨tN 0x42, 7, tOf (tN 0x42), by decide +kernel⟩,
    ⟨tSig, 7, tOf tSig, by decide +kernel⟩,
    ⟨tFence 0 [(tcKey 63 1, tClean), (tcKey 63 2, tDirty)], 7, tOf (tFence 0 []), by decide +kernel⟩,
    ⟨tFence 1 [(tcKey 62 2, tDirty), (tcKey 63 1, tClean)], 7, tOf (tFence 1 []), by decide +kernel⟩,
    ⟨tFence 1 [(tcKey 63 255, tDirty)], 7, tOf (tFence 1 []), 255, tDirty, by decide +kernel⟩,
    ⟨tFence 2 [(tcKey 62 2, tDirty), (tcKey 63 1, tClean)], 7, tOf (tFence 2 []), by decide +kernel⟩,
    ⟨{ tN 0x40 with coreSets := [(15, 2 ^ 63 + 1)] }, 7, tOf { tN 0x40 with coreSets := [(15, 2 ^ 63 + 1)] },
      by decide +kernel⟩,
    ⟨tN 0x40, 7, tOf (tN 0x40), by decide +kernel⟩,
    ⟨tEp .open_, 7, tOf (tEp .open_), by decide +kernel⟩,
    ⟨tEp .cancelled, 7, tOf (tEp .cancelled), by decide +kernel⟩⟩

end ControlTileOpsHaveTheirEffect

namespace ComputeTileOpsWriteTheirResults

def tMm : State := tO 0x10 0 1 2 3 .matrix tPc

def tRd (d m : Nat) : State := tO 0x22 d 1 0xFFFF 3 .vector ([1, b8 m] ++ List.replicate 30 0)

def tNm : State := tO 0x39 0 1 0xFFFF 3 .vector tPn

def tNc := normChannels (tOf tNm) (tI 5) 0xFFFF [] [] [] [0] (tIs tNm)

/-- The coefficients of `tNc`. -/

def tNk : List (Nat × Nat) := tNc.2.get (by decide +kernel)

theorem wit_ComputeTileOpsWriteTheirResults :
    (∃ (s : State) (id : Nat) (c : OpCtx) (p : List Byte) (ta td : Tensor) (j : State) (mat : Bool) (tb : Tensor) (kept : List
      Nat), Reads c (ctxB c) (issuedOp s id c true) p ta (some tb) td j ∧ ((∀ (k : AccFile), tabGet? j.accs c.o.core = some k →
      k.key ≠ tKey td [] + 1) ∧ kept = [] ∨ ∃ (bf : Bool), tabGet? j.accs c.o.core = some
      { key := tKey td [] + 1, bf16 := bf, acc := kept }) ∧ opWaitSem c.o.w0 = 4095 ∧ Calm j ∧ j.nearEcc = [] ∧ (Ready (if mat =
      true then 17 else 16) s id c)) ∧
    (∃ (s : State) (id : Nat) (c : OpCtx) (p : List Byte) (ta td : Tensor) (j : State) (avg : Bool), Reads c none (issuedOp s id
      c true) p ta none td j ∧ opWaitSem c.o.w0 = 4095 ∧ Calm j ∧ j.nearEcc = [] ∧ (Ready (if avg = true then 19 else 18) s id
      c)) ∧
    (∃ (s : State) (id : Nat) (c : OpCtx) (p : List Byte) (ta td : Tensor) (j : State) (tb : Option Tensor), Reads c (ctxB c)
      (issuedOp s id c true) p ta tb td j ∧ opWaitSem c.o.w0 = 4095 ∧ Calm j ∧ j.nearEcc = [] ∧ Ready 32 s id c) ∧
    (∃ (s : State) (id : Nat) (c : OpCtx) (p : List Byte) (ta td : Tensor) (j : State), Reads c none (issuedOp s id c true) p ta
      none td j ∧ opWaitSem c.o.w0 = 4095 ∧ Calm j ∧ j.nearEcc = [] ∧ Ready 33 s id c) ∧
    (∃ (s : State) (id : Nat) (c : OpCtx) (p : List Byte) (ta : Tensor) (j : State) (a d : Opd) (q : State) (b : Nat), opWaitSem
      c.o.w0 = 4095 ∧ Calm j ∧ j.nearEcc = [] ∧ Ready 34 s id c ∧ ctxA c = some a ∧ ctxDst c = some d ∧ readParam c (issuedOp s
      id c true) = (q, some p) ∧ tensorOf c a true q = (j, some ta) ∧ d.kind = 3 ∧ nearBase j c d = some b ∧ nearCode j c d
      (opdSpan d).fst (opdSpan d).snd (opdAligned d (fmtBytes d.format)) = 0) ∧
    (∃ (s : State) (id : Nat) (c : OpCtx) (p : List Byte) (ta : Tensor) (j : State) (a d : Opd) (q : State) (ix : List Nat),
      opWaitSem c.o.w0 = 4095 ∧ Calm j ∧ j.nearEcc = [] ∧ Ready 34 s id c ∧ ctxA c = some a ∧ ctxDst c = some d ∧ readParam c
      (issuedOp s id c true) = (q, some p) ∧ tensorOf c a true q = (j, some ta) ∧ d.kind ≠ 3 ∧ opdIndices d = [ix] ∧ placeCode
      (opdPlace j c.t c.md c.o.stripe d) (opdOffset d ix) 4 = 0 ∧ Calm (tcWrite c.o.core (hintOf (opHint c.o.w0)) 9 (placeAt
      (opdPlace j c.t c.md c.o.stripe d) (opdOffset d ix)) (leBytes (fmtBytes d.format) (laneStore (a.format == 1 || a.format ==
      3) false d.format (reduceAt (nearLe j) ta d (leAt p 0 1) ix) one32 (freeNow j).toNat).fst) (freeStep j)).fst ∧ leAt p 1 1
      = 0) ∧
    (∃ (s : State) (id : Nat) (c : OpCtx) (p : List Byte) (ta : Tensor) (j : State) (a d : Opd) (q : State) (ix : List Nat),
      opWaitSem c.o.w0 = 4095 ∧ Calm j ∧ j.nearEcc = [] ∧ Ready 34 s id c ∧ ctxA c = some a ∧ ctxDst c = some d ∧ readParam c
      (issuedOp s id c true) = (q, some p) ∧ tensorOf c a true q = (j, some ta) ∧ d.kind ≠ 3 ∧ opdIndices d = [ix] ∧ placeCode
      (opdPlace j c.t c.md c.o.stripe d) (opdOffset d ix) 4 = 0 ∧ (Calm (tcAdd c.o.core false (hintOf (opHint c.o.w0)) 2
      (placeAt (opdPlace j c.t c.md c.o.stripe d) (opdOffset d ix)) [if (a.format == 1 || a.format == 3) = true then unsgn 32
      (fToInt (-2147483648) 2147483647 (reduceAt (nearLe j) ta d (leAt p 0 1) ix)) else reduceAt (nearLe j) ta d (leAt p 0 1)
      ix] (freeStep j))) ∧ leAt p 1 1 = 1) ∧
    (∃ (s : State) (id : Nat) (c : OpCtx) (p : List Byte) (ta : Tensor) (j : State) (a d : Opd) (q : State) (ix : List Nat),
      opWaitSem c.o.w0 = 4095 ∧ Calm j ∧ j.nearEcc = [] ∧ Ready 34 s id c ∧ ctxA c = some a ∧ ctxDst c = some d ∧ readParam c
      (issuedOp s id c true) = (q, some p) ∧ tensorOf c a true q = (j, some ta) ∧ d.kind ≠ 3 ∧ opdIndices d = [ix] ∧ placeCode
      (opdPlace j c.t c.md c.o.stripe d) (opdOffset d ix) 4 = 0 ∧ (Calm (tcAdd c.o.core true (hintOf (opHint c.o.w0)) 2 (placeAt
      (opdPlace j c.t c.md c.o.stripe d) (opdOffset d ix)) [if (a.format == 1 || a.format == 3) = true then reduceAt (nearLe j)
      ta d (leAt p 0 1) ix else fOfInt (sgn 32 (reduceAt (nearLe j) ta d (leAt p 0 1) ix))] (freeStep j))) ∧ leAt p 1 1 = 2) ∧
    (∃ (s : State) (id : Nat) (c : OpCtx) (p : List Byte) (ta td : Tensor) (j : State) (st : Opd) (gs bs ks : List Nat) (co :
      List (Nat × Nat)) (g b k l : State), Reads c none (issuedOp s id c true) p ta none td j ∧ normChannels c st (leAt p 4 4)
      gs bs ks (natsFrom 0 (leAt p 0 2)) k = (l, some co) ∧ opWaitSem c.o.w0 = 4095 ∧ Calm j ∧ j.nearEcc = [] ∧ Ready 57 s id c
      ∧ ctxOpd c (leAt p 2 2) = some st ∧ readTable c (leAt p 8 2) (leAt p 0 2) j = (g, some gs) ∧ readTable c (leAt p 10 2)
      (leAt p 0 2) g = (b, some bs) ∧ readTable c (leAt p 12 2) (leAt p 0 2) b = (k, some ks) ∧ Calm l ∧ l.nearEcc = []) :=
  ⟨ ⟨tMm, 7, tOf tMm, tPc, tTn 1, tTn 0, tIs tMm, false, tTn 2, [], (reads_two (tI 0) (tI 1) (tI 2) (by decide +kernel)), (.inl
      ⟨none_all rfl, rfl⟩), by decide +kernel⟩,
    ⟨tO 0x13 0 1 0xFFFF 3 .vector tPc, 7, tOf (tO 0x13 0 1 0xFFFF 3 .vector tPc), tPc, tTn 1, tTn 0, tIs (tO 0x13 0 1 0xFFFF 3
      .vector tPc), true, (reads_one (tI 0) (tI 1) (by decide +kernel)), by decide +kernel⟩,
    ⟨tO 0x20 0 1 2 3 .vector tPc, 7, tOf (tO 0x20 0 1 2 3 .vector tPc), tPc, tTn 1, tTn 0, tIs (tO 0x20 0 1 2 3 .vector tPc),
      some (tTn 2), (reads_two (tI 0) (tI 1) (tI 2) (by decide +kernel)), by decide +kernel⟩,
    ⟨tO 0x21 0 1 0xFFFF 3 .sfu tPc, 7, tOf (tO 0x21 0 1 0xFFFF 3 .sfu tPc), tPc, tTn 1, tTn 0, tIs (tO 0x21 0 1 0xFFFF 3 .sfu
      tPc), (reads_one (tI 0) (tI 1) (by decide +kernel)), by decide +kernel⟩,
    ⟨tRd 0 0, 7, tOf (tRd 0 0), [1, 0] ++ List.replicate 30 0, tTn 1, tIs (tRd 0 0), tI 1, tI 0, tIs (tRd 0 0), 67 * 2 ^ 20,
      by decide +kernel⟩,
    ⟨tRd 7 0, 7, tOf (tRd 7 0), [1, 0] ++ List.replicate 30 0, tTn 1, tIs (tRd 7 0), tI 1, tI 7, tIs (tRd 7 0), [0, 0, 0, 0, 0],
      by decide +kernel⟩,
    ⟨tRd 7 1, 7, tOf (tRd 7 1), [1, 1] ++ List.replicate 30 0, tTn 1, tIs (tRd 7 1), tI 1, tI 7, tIs (tRd 7 1), [0, 0, 0, 0, 0],
      by decide +kernel⟩,
    ⟨tRd 8 2, 7, tOf (tRd 8 2), [1, 2] ++ List.replicate 30 0, tTn 1, tIs (tRd 8 2), tI 1, tI 8, tIs (tRd 8 2), [0, 0, 0, 0, 0],
      by decide +kernel⟩,
    ⟨tNm, 7, tOf tNm, tPn, tTn 1, tTn 0, tIs tNm, tI 5, [], [], [], tNk, tIs tNm, tIs tNm, tIs tNm, tNc.1, (reads_one (tI 0) (tI
      1) (by decide +kernel)), by decide +kernel, by decide +kernel⟩⟩

end ComputeTileOpsWriteTheirResults

namespace StatisticsTileOpsWriteTheirRecords

def tStats (s : State) (v : Nat) : State := { s with sgroups := [(15, { tGroup with task := some { tTask with stats := [(0x100, v)] } })] }

def tS1 : State := tO 0x30 0xFFFF 1 0xFFFF 3 .vector tPs

def tS2 : State := { tO 0x31 0 1 0xFFFF 3 .sfu tPs with mem := [(0x102, 0x40), (0x103, 0x40)] }

def tS3 : State := { tO 0x32 0 1 0xFFFF 3 .vector tPs with mem := [(0x106, 0x40), (0x107, 0x40)] }

def tSn : State := tO 0x38 0xFFFF 1 0xFFFF 3 .vector tPn

def tSr (o : Nat) (s : State) : State := (statReads (tOf s) (tI 5) o [0] (tIs s)).1

theorem wit_StatisticsTileOpsWriteTheirRecords :
    (∃ (s : State) (id : Nat) (c : OpCtx) (p : List Byte) (ta : Tensor) (j : State) (st : Opd), ReadsSource c (issuedOp s id c
      true) p ta j ∧ opWaitSem c.o.w0 = 4095 ∧ Ready 48 s id c ∧ ctxOpd c (smStats p) = some st ∧ smRows p = 1 ∧ Calm (smMark c
      st (smPart p * 16) 1 (statWrite c st (smPart p * 16 + 8) (leBytes 4 (opdCount ta.o 0) ++ leBytes 4 0) (statWrite c st
      (smPart p * 16) (leBytes 4 (smMax (nearLe j) ta 0)) j)))) ∧
    (∃ (s : State) (id : Nat) (c : OpCtx) (p : List Byte) (ta td : Tensor) (j k : State) (st : Opd) (ms : List Nat), Reads c
      none (issuedOp s id c true) p ta none td j ∧ opWaitSem c.o.w0 = 4095 ∧ Ready 49 s id c ∧ ctxOpd c (smStats p) = some st ∧
      smRows p = 1 ∧ statReads c st 0 (natsFrom 0 (smParts p)) j = (k, some ms) ∧ smFresh k c st 0 (smParts p) 1 = true ∧ (Calm
      (smMark c st (smPart p * 16) 3 (statWrite c st (smPart p * 16 + 4) (leBytes 4 (laneSum (List.map bfWiden (List.map (fun (e
      : Nat) => smExp p (List.foldl fMax ninf32 ms) (tF32 (nearLe j) ta [e, 0])) (natsFrom 0 (opdCount ta.o 0)))))) (putWritten
      c {
        data := List.map (fun (e : Nat × Nat) => (tKey td [e.fst, 0], leBytes 2 e.snd)) ((natsFrom 0 (opdCount ta.o 0)).zip
        (List.map (fun (e : Nat) => smExp p (List.foldl fMax ninf32 ms) (tF32 (nearLe j) ta [e, 0])) (natsFrom 0 (opdCount ta.o
        0)))), sat := 0 } (if fIsNan (List.foldl fMax ninf32 ms) = true then regOr 1536 2 k else k)))))) ∧
    (∃ (s : State) (id : Nat) (c : OpCtx) (p : List Byte) (ta td : Tensor) (j k : State) (st : Opd) (ms : List Nat), Reads c
      none (issuedOp s id c true) p ta none td j ∧ opWaitSem c.o.w0 = 4095 ∧ Ready 49 s id c ∧ ctxOpd c (smStats p) = some st ∧
      smRows p = 1 ∧ statReads c st 0 (natsFrom 0 (smParts p)) j = (k, some ms) ∧ smFresh k c st 0 (smParts p) 1 = false) ∧
    (∃ (s : State) (id : Nat) (c : OpCtx) (p : List Byte) (ta td : Tensor) (j k : State) (st : Opd) (v : Nat) (vs : List Nat),
      Reads c none (issuedOp s id c true) p ta none td j ∧ opWaitSem c.o.w0 = 4095 ∧ Ready 50 s id c ∧ ctxOpd c (smStats p) =
      some st ∧ smRows p = 1 ∧ statReads c st 4 (natsFrom 0 (smParts p)) j = (k, some (v :: vs)) ∧ smFresh k c st 0 (smParts p)
      3 = false ∧ Calm k ∧ k.nearEcc = []) ∧
    (∃ (s : State) (id : Nat) (c : OpCtx) (p : List Byte) (ta td : Tensor) (j k : State) (st : Opd) (v : Nat) (vs : List Nat),
      Reads c none (issuedOp s id c true) p ta none td j ∧ opWaitSem c.o.w0 = 4095 ∧ Ready 50 s id c ∧ ctxOpd c (smStats p) =
      some st ∧ smRows p = 1 ∧ statReads c st 4 (natsFrom 0 (smParts p)) j = (k, some (v :: vs)) ∧ smFresh k c st 0 (smParts p)
      3 = true ∧ Calm k ∧ k.nearEcc = []) ∧
    (∃ (s : State) (id : Nat) (c : OpCtx) (p : List Byte) (ta : Tensor) (j k : State) (st : Opd) (ks : List Nat) (ad : Nat),
      ReadsSource c (issuedOp s id c true) p ta j ∧ opWaitSem c.o.w0 = 4095 ∧ Ready 56 s id c ∧ leAt p 0 2 = 1 ∧ ctxOpd c (leAt
      p 2 2) = some st ∧ readTable c (leAt p 4 2) 1 j = (k, some ks) ∧ statAddr k c st 0 16 = some ad ∧ Calm (tcAdd c.o.core
      true (hintOf (opHint c.o.w0)) 3 ad (normRecord (nearLe j) ta (ks.getD 0 0) 0) k)) :=
  ⟨ ⟨tS1, 7, tOf tS1, tPs, tTn 1, tIs tS1, tI 5, (reads_source (tI 1) (by decide +kernel)), by decide +kernel⟩,
    ⟨tStats tS2 262145, 7, tOf (tStats tS2 262145), tPs, tTn 1, tTn 0, tIs (tStats tS2 262145), tSr 0 (tStats tS2 262145), tI 5,
      [0x40400000], (reads_one (tI 0) (tI 1) (by decide +kernel)), by decide +kernel⟩,
    ⟨tS2, 7, tOf tS2, tPs, tTn 1, tTn 0, tIs tS2, tSr 0 tS2, tI 5, [0x40400000], (reads_one (tI 0) (tI 1) (by decide +kernel)),
      by decide +kernel⟩,
    ⟨tS3, 7, tOf tS3, tPs, tTn 1, tTn 0, tIs tS3, tSr 4 tS3, tI 5, 0x40400000, [], (reads_one (tI 0) (tI 1)
      (by decide +kernel)), by decide +kernel⟩,
    ⟨tStats tS3 262147, 7, tOf (tStats tS3 262147), tPs, tTn 1, tTn 0, tIs (tStats tS3 262147), tSr 4 (tStats tS3 262147), tI 5,
      0x40400000, [], (reads_one (tI 0) (tI 1) (by decide +kernel)), by decide +kernel⟩,
    ⟨tSn, 7, tOf tSn, tPn, tTn 1, tIs tSn, tIs tSn, tI 5, [], 0x100, (reads_source (tI 1) (by decide +kernel)),
      by decide +kernel⟩⟩

end StatisticsTileOpsWriteTheirRecords

namespace DataTileOpsMoveBytesAndComplete

def tGa : State := { tO 3 6 4 0xFFFF 0xFFFF .stream [] with mem := [(0x41, 9)] }

def tLo : State := { tO 1 6 4 0xFFFF 0xFFFF .stream [] with mem := [(0x7F, 9)] }

def tSt : State := tO 2 4 6 0xFFFF 0xFFFF .stream []

def tPl := loadPieces (tOf tGa) (tI 4) (tIs tGa)

def tPs0 : List Piece := tPl.2.get (by decide +kernel)

def tPm : State := opMod 7 (fun o => { o with todo := tPs0 }) tPl.1

def tPr := piecesRun (tOf tPm) tPs0 [] tPm

def tCh : State :=
  { tO 1 6 4 0xFFFF 0xFFFF .stream [] with
    coreSets := [(15, 2 ^ 63 + 2 ^ 62)]
    coreMap := [(62, 66), (63, 67)]
    cores := [(66, { state := .mapped }), (67, { state := .mapped })]
    handles := [(0, { valid := true, units := 4, rights := 15, owner := 0x1FFFFFFF, cls := .hamper })]
    sgroups := [(15, { tGroup with task := some { tTask with chain := [66, 67], blocks := [(0, List.replicate 64 9)] } })]
    ops := [(7, { tOp (tW0 1) (tW1 6 4 0xFFFF 0xFFFF) .stream with member := 1, phase := 0 })] }

def tCo : State := { tO 0x45 4 1 0xFFFF 3 .control [1, 1, 4] with coreSets := [(15, 2 ^ 63 + 1)] }

def tPc0 : List Byte := [1, 1, 4] ++ List.replicate 29 0

def tCi (s : State) : State := issuedOp s 7 (tOf s) false

/-- A far cache of 256 sets, each with 12 keep lines. -/

def tCf : State :=
  { tCo with
    regs := [(0x20, 1), (0x200, 1)]
    fcache := (List.range 3072).map fun i => (i, ⟨.keep, 0, 0, i / 256⟩) }

def tDone (sig : Nat) (d : Bool) : State :=
  { tT (3 + 0xFFF000000 + sig * 2 ^ 36) (tW1 6 4 0xFFFF 0xFFFF) .stream [] with
    sems := [(4095, { value := 65535 })]
    ops := [(7, { tOp (3 + 0xFFF000000 + sig * 2 ^ 36) (tW1 6 4 0xFFFF 0xFFFF) .stream with issued := true, ready := true, waitServed := true, writes := [(67 * 2 ^ 20 + 0x1000, [1, 2])], dropped := d })] }

theorem one_of_each : ∀ x, x < 256 → ((List.range 256).filter fun i => i == x).length = 1 := by decide +kernel

theorem twelve_in_each_set (x : Nat) (h : x < 256) (n : Nat) :
    ((List.range (256 * n)).filter fun i => i % 256 == x).length = n := by
  induction n with
  | zero => rfl
  | succ n ih =>
    rw [Nat.mul_succ, List.range_add, List.filter_append, List.length_append, ih, List.filter_map, List.length_map]
    refine congrArg (n + ·) (Eq.trans (congrArg List.length (List.filter_congr fun i hi => ?_)) (one_of_each x h))
    have hi := List.mem_range.mp hi
    have e : (256 * n + i) % 256 = i := by omega
    simp [e]

theorem far_cache_full (k n : Nat) : 0 < redShort (tCi tCf) k (n + 1) := by
  have e : fcSets (tCi tCf) = 256 := by decide +kernel
  have c : 0 < cdiv (n + 1) 256 := by unfold cdiv; omega
  obtain ⟨m, hm⟩ := Nat.exists_eq_succ_of_ne_zero (Nat.ne_of_gt c)
  have p : ∀ x, x < 256 → 12 ≤ fcPinned (tCi tCf) x := by
    intro x hx
    refine Nat.le_trans (Nat.le_of_eq (twelve_in_each_set x hx 12).symm) (Nat.le_trans (Nat.le_of_eq ?_) (Nat.le_add_right _ _))
    show _ = (((List.range 3072).map fun i => (i, (⟨.keep, 0, 0, i / 256⟩ : FcLine))).filter _).length
    rw [List.filter_map, List.length_map]
    refine congrArg List.length (List.filter_congr fun i hi => ?_)
    have hi := List.mem_range.mp hi
    have d : i / 2 ^ 24 = 0 := by omega
    simp only [Function.comp, fcSetOf, e, d]
    have r : i % 2 ^ 24 % 256 = i % 256 := by omega
    simp only [r, Nat.zero_mul, Nat.zero_div, Nat.xor_zero, beq_self_eq_true, Bool.and_true]
    rfl
  unfold redShort redSets
  rw [e, hm]
  simp only [natsFrom, List.map_cons, List.filter_cons, p _ (Nat.mod_lt _ (by decide : 0 < 256))]
  simp

theorem wit_DataTileOpsMoveBytesAndComplete :
    (∃ (s : State) (id : Nat) (c : OpCtx) (g : Bool) (a d : Opd) (ps : List Piece) (bytes : List Byte) (q j : State) (c' :
      OpCtx), (Ready (if g = true then 3 else 1) s id c) ∧ opWaitSem c.o.w0 = 4095 ∧ ctxA c = some a ∧ ctxDst c = some d ∧
      nearCode (issuedOp s id c true) c d (opdSpan d).fst (opdSpan d).snd true = 0 ∧ (onChain (issuedOp s id c true) c &&
      !chainFirst c) = false ∧ loadPieces c a (issuedOp s id c true) = (q, some ps) ∧ (∀ (x : Piece), x ∈ ps → x ≠ Piece.index)
      ∧ opCtx (opMod id (fun (o : TileOp) => { o with todo := ps }) q) id = some c' ∧ piecesRun c' ps [] (opMod id (fun (o :
      TileOp) => { o with todo := ps }) q) = (j, [], bytes) ∧ Calm j ∧ (tabGet? j.ops id).isSome = true) ∧
    (∃ (s : State) (id : Nat) (c : OpCtx) (a d : Opd) (ix : List Nat) (b : Nat), Ready 1 s id c ∧ opWaitSem c.o.w0 = 4095 ∧ ctxA
      c = some a ∧ ctxDst c = some d ∧ nearCode s c d (opdSpan d).fst (opdSpan d).snd true = 0 ∧ nearBase s c d = some b ∧
      onChain s c = false ∧ a.kind ≠ 4 ∧ haloWithheld s c a = false ∧ opHint c.o.w0 ≠ 1 ∧ opdIndices a = [ix] ∧ placeCode
      (opdPlace s c.t c.md c.o.stripe a) (opdOffset a ix) a.elem = 0 ∧ 0 < a.elem ∧ placeAt (opdPlace s c.t c.md c.o.stripe a)
      (opdOffset a ix) % 64 + a.elem ≤ 64 ∧ NoLines s c.o.core ∧ (∀ (e : Nat × TileOp), e ∈ s.ops → e.snd.todo = []) ∧ Passes s
      {
        tag := c.x.cs, detail := coreDetail s c.o.core, target := DsTarget.addr (placeAt (opdPlace s c.t c.md c.o.stripe a)
        (opdOffset a ix) / 64 * 64), wide := true, write := false, size := 64, data := [] }) ∧
    (∃ (s : State) (id : Nat) (c : OpCtx) (a d : Opd), Ready 1 s id c ∧ opWaitSem c.o.w0 = 4095 ∧ ctxA c = some a ∧ ctxDst c =
      some d ∧ nearCode s c d (opdSpan d).fst (opdSpan d).snd true = 0 ∧ onChain s c = true ∧ chainFirst c = false) ∧
    (∃ (s : State) (id : Nat) (c : OpCtx) (a d : Opd) (ta : Tensor) (ix : List Nat) (j : State), Ready 2 s id c ∧ opWaitSem
      c.o.w0 = 4095 ∧ ctxA c = some a ∧ ctxDst c = some d ∧ d.elem = 64 ∧ opdIndices d = [ix] ∧ opdOffset d ix % 64 = 0 ∧ opHint
      c.o.w0 ≠ 1 ∧ tensorOf c { a with format := 1 } true (issuedOp s id c true) = (j, some ta) ∧ Calm j ∧ j.arrivals = [] ∧
      placeCode (opdPlace j c.t c.md c.o.stripe d) (opdOffset d ix) 64 = 0 ∧ (nearBytesOf j ta.base a).length = 64 ∧ NoLines j
      c.o.core ∧ (∀ (e : Nat × TileOp), e ∈ j.ops → e.snd.todo = []) ∧ (tabGet? j.ops id).isSome = true ∧ opCtx j id = some {
        id := c.id, o :=
        { c.o with waitServed := true, acquired := true, haloAsked := true, issued := true, issuedAt := s.ts, ready := true }, x
        := c.x, t := c.t, md := c.md } ∧ OpUnits j ∧ Passes j {
        tag := c.x.cs, detail := coreDetail j c.o.core, target := DsTarget.addr (placeAt (opdPlace j c.t c.md c.o.stripe d)
        (opdOffset d ix)), wide := true, write := true, size := 64, data := nearBytesOf j ta.base a }) ∧
    (∃ (s : State) (id : Nat) (c : OpCtx) (a dst : Opd) (p d : List Byte) (q j : State), Ready 69 s id c ∧ opWaitSem c.o.w0 =
      4095 ∧ ctxA c = some a ∧ ctxDst c = some dst ∧ readParam c (issuedOp s id c false) = (q, some p) ∧ readOpd c a (leAt p 2
      2) q = (j, some d) ∧ Calm j ∧ j.xk.colls = [] ∧ j.xk.redWait = [] ∧ s.xk.redWait = [] ∧ 2 ≤ (barrierMembers j c).length ∧
      redShort j (leAt c.md.image 24 8 * 256 + opBctx c.o.w0) (leAt p 2 2) = 0) ∧
    (∃ (s : State) (id : Nat) (c : OpCtx) (a dst : Opd) (p d : List Byte) (q j : State), 0 < redShort j (leAt c.md.image 24 8 *
      256 + opBctx c.o.w0) (leAt p 2 2) ∧ Ready 69 s id c ∧ opWaitSem c.o.w0 = 4095 ∧ ctxA c = some a ∧ ctxDst c = some dst ∧
      readParam c (issuedOp s id c false) = (q, some p) ∧ readOpd c a (leAt p 2 2) q = (j, some d) ∧ Calm j ∧ j.xk.colls = [] ∧
      j.xk.redWait = [] ∧ s.xk.redWait = [] ∧ 2 ≤ (barrierMembers j c).length) ∧
    (∃ (s : State) (id : Nat) (c : OpCtx), Calm s ∧ OpUnits s ∧ opCtx s id = some c ∧ mayComplete s c = true ∧ c.o.dropped =
      true) ∧
    (∃ (s : State) (id : Nat) (c : OpCtx), Calm s ∧ OpUnits s ∧ opCtx s id = some c ∧ mayComplete s c = true ∧ c.o.dropped =
      false ∧ ctxRings s c = [] ∧ s.nearEcc = [] ∧ (opSigSem c.o.w0 = 4095 ∨ opCode c.o.w0 = 66)) ∧
    (∃ (s : State) (id : Nat) (c : OpCtx), Calm s ∧ OpUnits s ∧ opCtx s id = some c ∧ mayComplete s c = true ∧ c.o.dropped =
      false ∧ ctxRings s c = [] ∧ s.nearEcc = [] ∧ opSigSem c.o.w0 ≠ 4095 ∧ opCode c.o.w0 ≠ 66 ∧ NoLines s c.o.core ∧ (semOf s
      (imgSem c.md (opSigSem c.o.w0))).queue = []) :=
  ⟨ ⟨tGa, 7, tOf tGa, true, tI 4, tI 6, tPs0, tPr.2.2, tPl.1, tPr.1, tOf tPm, by decide +kernel⟩,
    ⟨tLo, 7, tOf tLo, tI 4, tI 6, [0, 0, 0, 0, 0], 67 * 2 ^ 20, by decide +kernel⟩,
    ⟨tCh, 7, tOf tCh, tI 4, tI 6, by decide +kernel⟩,
    ⟨tSt, 7, tOf tSt, tI 6, tI 4, ⟨{ tI 6 with format := 1 }, 67 * 2 ^ 20, []⟩, [0, 0, 0, 0, 0], tIs tSt, by decide +kernel⟩,
    ⟨tCo, 7, tOf tCo, tI 1, tI 4, tPc0, [0xC0, 0x3F, 0x40, 0x40], tCi tCo, tCi tCo, by decide +kernel⟩,
    ⟨tCf, 7, tOf tCf, tI 1, tI 4, tPc0, [0xC0, 0x3F, 0x40, 0x40], tCi tCf, tCi tCf, (far_cache_full _ 3), by decide +kernel⟩,
    ⟨tDone 0xFFF true, 7, tOf (tDone 0xFFF true), by decide +kernel⟩,
    ⟨tDone 0xFFF false, 7, tOf (tDone 0xFFF false), by decide +kernel⟩,
    ⟨tDone 95 false, 7, tOf (tDone 95 false), by decide +kernel⟩⟩

end DataTileOpsMoveBytesAndComplete

namespace TasksDispatchStartAndEnd

def tG (w0 : Nat) (x : Group) : State := { tT w0 (tW1 0 1 2 3) .vector tPc with ops := [], sgroups := [(15, x)] }

def tK (k : Task) : Group := { tGroup with task := some k }

def tCur (p : Nat) : Task := { tTask with cursors := [(0, { phase := p })] }

def tCan : Task := { tCur 1 with epochs := [(255, .cancelled)] }

def tOp0 : Task := { tTask with epochs := [(255, .open_)] }

def tV : Nat := tW0 0x20

def tVs : Nat := tW0 0x20 + 256 + 255 * 2 ^ 16

def tMd (w0 : Nat) : Model := tModel w0 (tW1 0 1 2 3)

def tBusy : TileOp := { tOp tV (tW1 0 1 2 3) .vector with issued := true, issuedAt := 1000 }

theorem wit_TasksDispatchStartAndEnd :
    (∃ (g : Fin 16) (s : State) (m : Fin 64) (x : Group) (t : Machine.Task) (md : Model), taskOf s ↑g = some (x, t) ∧ modelOf s
      x.model = some md ∧ x.phase = TaskPhase.running ∧ ↑m < (csMembers s x.cs).length ∧ (cursorNow t (tabGet { } t.cursors
      ↑m)).phase < 3 ∧ (∀ (i : Nat), i < (csMembers s x.cs).length → cursorBefore (cursorNow t (tabGet { } t.cursors i))
      (cursorNow t (tabGet { } t.cursors ↑m)) = false) ∧ (List.filter (fun (e : Nat × TileOp) => decide (e.snd.core = (csMembers
      s x.cs).getD (↑m) 64) && !e.snd.issued) s.ops).length < 64 ∧ (List.filter (fun (e : Nat × TileOp) => e.snd.dst.isSome)
      s.ops).length < 1024 ∧ (imgProg md.image (cursorNow t (tabGet { } t.cursors ↑m)).phase (↑m % imgG md.image)).count = 0) ∧
    (∃ (g : Fin 16) (s : State) (m : Fin 64) (x : Group) (t : Machine.Task) (md : Model), taskOf s ↑g = some (x, t) ∧ modelOf s
      x.model = some md ∧ x.phase = TaskPhase.running ∧ ↑m < (csMembers s x.cs).length ∧ (cursorNow t (tabGet { } t.cursors
      ↑m)).phase < 3 ∧ (∀ (i : Nat), i < (csMembers s x.cs).length → cursorBefore (cursorNow t (tabGet { } t.cursors i))
      (cursorNow t (tabGet { } t.cursors ↑m)) = false) ∧ (List.filter (fun (e : Nat × TileOp) => decide (e.snd.core = (csMembers
      s x.cs).getD (↑m) 64) && !e.snd.issued) s.ops).length < 64 ∧ (List.filter (fun (e : Nat × TileOp) => e.snd.dst.isSome)
      s.ops).length < 1024 ∧ (imgProg md.image (cursorNow t (tabGet { } t.cursors ↑m)).phase (↑m % imgG md.image)).count ≠ 0 ∧
      (opSpec (progWord0 md.image (imgProg md.image (cursorNow t (tabGet { } t.cursors ↑m)).phase (↑m % imgG md.image))
      (cursorNow t (tabGet { } t.cursors ↑m)).pc) = false ∨ epochState t (opEpoch (progWord0 md.image (imgProg md.image
      (cursorNow t (tabGet { } t.cursors ↑m)).phase (↑m % imgG md.image)) (cursorNow t (tabGet { } t.cursors ↑m)).pc)) ≠
      EpochState.cancelled)) ∧
    (∃ (g : Fin 16) (s : State) (m : Fin 64) (x : Group) (t : Machine.Task) (md : Model), taskOf s ↑g = some (x, t) ∧ modelOf s
      x.model = some md ∧ x.phase = TaskPhase.running ∧ ↑m < (csMembers s x.cs).length ∧ (cursorNow t (tabGet { } t.cursors
      ↑m)).phase < 3 ∧ (∀ (i : Nat), i < (csMembers s x.cs).length → cursorBefore (cursorNow t (tabGet { } t.cursors i))
      (cursorNow t (tabGet { } t.cursors ↑m)) = false) ∧ (List.filter (fun (e : Nat × TileOp) => decide (e.snd.core = (csMembers
      s x.cs).getD (↑m) 64) && !e.snd.issued) s.ops).length < 64 ∧ (List.filter (fun (e : Nat × TileOp) => e.snd.dst.isSome)
      s.ops).length < 1024 ∧ (imgProg md.image (cursorNow t (tabGet { } t.cursors ↑m)).phase (↑m % imgG md.image)).count ≠ 0 ∧
      opSpec (progWord0 md.image (imgProg md.image (cursorNow t (tabGet { } t.cursors ↑m)).phase (↑m % imgG md.image))
      (cursorNow t (tabGet { } t.cursors ↑m)).pc) = true ∧ epochState t (opEpoch (progWord0 md.image (imgProg md.image
      (cursorNow t (tabGet { } t.cursors ↑m)).phase (↑m % imgG md.image)) (cursorNow t (tabGet { } t.cursors ↑m)).pc)) =
      EpochState.cancelled ∧ Calm s) ∧
    (∃ (g : Fin 16) (s : State) (x : Group) (md : Model) (n : Nat) (rest : List Nat), groupGet s ↑g = some x ∧ modelOf s x.model
      = some md ∧ x.due = n :: rest ∧ x.phase = TaskPhase.waiting ∧ x.started = true ∧ x.awaits = false ∧ x.drains = [] ∧
      csReady s x.cs = true) ∧
    (∃ (g : Fin 16) (s : State) (x : Group) (k : Machine.Task) (md : Model), (∀ (q : Nat), (tabGet { } s.cores q).state ≠
      CoreState.pending) ∧ Calm s ∧ OpUnits s ∧ taskOf s ↑g = some (x, k) ∧ modelOf s x.model = some md ∧ x.phase =
      TaskPhase.running ∧ x.stopping = false ∧ x.pendModel = none ∧ md.rings = [] ∧ md.ownRings = [] ∧ k.epochs = [] ∧ (∀ (i :
      Nat), i < (csMembers s x.cs).length → (tabGet { } k.cursors i).phase = 3) ∧ (∀ (e : Nat × TileOp), e ∈ s.ops → e.snd.group
      ≠ ↑g) ∧ s.tcache = [] ∧ s.arrivals = []) ∧
    (∃ (req : Req) (v : Word), mayAccess req 1808 true = true ∧ bitAt (BitVec.toNat v) 31 = false) ∧
    (∃ (g : Fin 16) (s : State) (req : Req) (v : Word) (x : Group) (k : Machine.Task) (md : Model), mayAccess req 1808 true =
      true ∧ bitAt (BitVec.toNat v) 31 = true ∧ Calm s ∧ s.ops = [] ∧ groupsOfCs s (fieldOf v 16 4) = [↑g] ∧ taskOf s ↑g = some
      (x, k) ∧ modelOf s x.model = some md ∧ md.rings = [] ∧ epochSems md.image (fieldOf v 0 8) = [] ∧ fieldOf v 0 8 ≠ 0 ∧
      epochState k (fieldOf v 0 8) = EpochState.open_) ∧
    (∃ (s : State) (id t : Nat) (o : TileOp), tabGet? s.ops id = some o ∧ o.issued = true ∧ (o.unit = TileUnit.matrix ∨ o.unit =
      TileUnit.vector ∨ o.unit = TileUnit.sfu) ∧ (tsTo t s).ts < o.issuedAt + 50000000) ∧
    (∃ (g : Fin 16) (s : State) (id t : Nat) (o : TileOp), (s.sgroups = [] ∨ ∃ (x : Group), ∃ (k : Machine.Task), ∃ (md :
      Model), s.sgroups = [(↑g, x)] ∧ x.phase = TaskPhase.running ∧ x.task = some k ∧ k.stripes = [] ∧ k.epochs = [] ∧
      k.arrivals = [] ∧ modelOf s x.model = some md ∧ md.rings = [] ∧ md.ownRings = [] ∧ csOfCore s o.core = some x.cs ∧
      s.coreMap = [(o.core, coreDetail s o.core)]) ∧ tabGet? s.ops id = some o ∧ o.issued = true ∧ (o.unit = TileUnit.matrix ∨
      o.unit = TileUnit.vector ∨ o.unit = TileUnit.sfu) ∧ o.issuedAt + 50000000 ≤ (tsTo t s).ts ∧ s.ops = [(id, o)] ∧ s.rings =
      [] ∧ s.sems = [] ∧ (∀ (e : Nat × Core), e ∈ s.cores → e.snd.disable = none ∧ e.snd.state ≠ CoreState.pending)) :=
  ⟨ ⟨15, tG tV (tK tTask), 0, tK tTask, tTask, tMd tV, by decide +kernel⟩,
    ⟨15, tG tV (tK (tCur 1)), 0, tK (tCur 1), tCur 1, tMd tV, by decide +kernel⟩,
    ⟨15, tG tVs (tK tCan), 0, tK tCan, tCan, tMd tVs, by decide +kernel⟩,
    ⟨15, tG tV { tGroup with phase := .waiting, task := none, due := [5] },
      { tGroup with phase := .waiting, task := none, due := [5] }, tMd tV, 5, [], by decide +kernel⟩,
    ⟨15, tG tV (tK (tCur 3)), tK (tCur 3), tCur 3, tMd tV,
      (by intro q; by_cases h : q = 67 <;> simp_all [tG, tT, tabGet, tabGet?]), by decide +kernel⟩,
    ⟨.host, 0x7FFFFFFF, by decide +kernel⟩,
    ⟨15, tG tV (tK tOp0), .host, 0x800F00FF, tK tOp0, tOp0, tMd tV, by decide +kernel⟩,
    ⟨{ tT tV (tW1 0 1 2 3) .vector tPc with ops := [(7, tBusy)] }, 7, 50000999, tBusy, by decide +kernel⟩,
    ⟨15, { tT tV (tW1 0 1 2 3) .vector tPc with sgroups := [], ops := [(7, tBusy)] }, 7, 50001000, tBusy, (.inl rfl),
      by decide +kernel⟩⟩

end TasksDispatchStartAndEnd

namespace TileCacheRangeOperationsAct

def tRg (l : Tab TcLine) : State :=
  { tS with
    regs := [(0x20, 1), (0x100110, 0x3FC0), (0x100114, 1), (0x10011C, 0x80000000)]
    cores := [(67, { state := .mapped })]
    coreMap := [(63, 67)]
    coreSets := [(15, 2 ^ 63)]
    tcache := l }

def tKeep : TcLine := ⟨.keep, 3, true, (List.range 64).map fun i => (i, 7), List.replicate 64 1, none, [], []⟩

theorem wit_TileCacheRangeOperationsAct :
    (∃ (req : Req) (s : State), mayAccess req 288 true = true ∧ bitAt (BitVec.toNat (regGet s (bankKey (reqBank req) 292))) 30 =
      true) ∧
    (∃ (req : Req) (s : State), mayAccess req 288 true = true ∧ bitAt (BitVec.toNat (regGet s (bankKey (reqBank req) 292))) 30 =
      false ∧ (List.map (fun (x : Nat × TcLine) => x.fst) s.tcache).Nodup ∧ (∀ (e : Nat × TcLine), e ∈ s.tcache → ((rgCores s
      (reqBank req)).contains (tcCore e.fst) && lineIn (64 * rgLine s (reqBank req)) (64 * rgLine s (reqBank req) + 64 * rgLen s
      (reqBank req)) (tcLineNo e.fst)) = true → e.snd.dirty = [] ∧ e.snd.red = none ∧ e.snd.ecc = [])) ∧
    (∃ (req : Req) (s : State) (core line : Nat) (l : TcLine), mayAccess req 288 true = true ∧ bitAt (BitVec.toNat (regGet s
      (bankKey (reqBank req) 292))) 30 = false ∧ (List.map (fun (x : Nat × TcLine) => x.fst) s.tcache).Nodup ∧ s.tcache =
      [(tcKey core line, l)] ∧ core < 64 ∧ line < 2 ^ 24 ∧ ((rgCores s (reqBank req)).contains (tcCore (tcKey core line, l).fst)
      && lineIn (64 * rgLine s (reqBank req)) (64 * rgLine s (reqBank req) + 64 * rgLen s (reqBank req)) (tcLineNo (tcKey core
      line, l).fst)) = true ∧ l.red = none ∧ l.filled = true ∧ l.ecc = [] ∧ l.dirty ≠ [] ∧ (∀ (e : Nat × Byte), e ∈ l.dirty →
      e.fst < 64) ∧ tabSortedFrom 0 l.dirty = true ∧ s.arrivals = [] ∧ Passes s (wbReq s core line (overlay l.data l.dirty))) ∧
    (∃ (req : Req) (s : State) (core : Nat), (∀ (i : Nat), bufferAt s (64 * rgLine s (reqBank req)) = some i → (handleOf s
      i).ring = false) ∧ mayAccess req 288 true = true ∧ bitAt (BitVec.toNat (regGet s (bankKey (reqBank req) 292))) 30 = false
      ∧ (List.map (fun (x : Nat × TcLine) => x.fst) s.tcache).Nodup ∧ rgCores s (reqBank req) = [core] ∧ rgLen s (reqBank req) =
      1 ∧ s.tcache = [] ∧ (csOfCore s core).isSome = true ∧ Passes s (fillReq s core (rgLine s (reqBank req)))) ∧
    (∃ (req : Req) (s : State) (far : Bool) (o : RangeOp), tabGet? s.rangeOps (2 * reqBank req + b2n far) = some o) :=
  ⟨ ⟨.host, { tS with regs := [(0x20, 1), (0x100124, 0x40000000)] }, by decide +kernel⟩,
    ⟨.host, tRg [(tcKey 63 255, { tKeep with dirty := [] }), (tcKey 62 255, tKeep)], by decide +kernel⟩,
    ⟨.host, tRg [(tcKey 63 255, tKeep)], 63, 255, tKeep, by decide +kernel⟩,
    ⟨.host, tRg [], 63, (some_all (k := 0) (by decide +kernel) (by decide +kernel)), by decide +kernel⟩,
    ⟨.host, { tS with rangeOps := [(1, { far := true, op := 1 })] }, true, { far := true, op := 1 }, by decide +kernel⟩⟩

end TileCacheRangeOperationsAct

namespace FarCacheAccessesAndCollectives

def tF (x : Xk) : State :=
  { tS with
    xk := { x with net := .member, node := 3, present := 0x8009 }
    regs := [(0x20, 1), (0x200, 1), (0x430, 0x80000000), (0x100220, 0x3FFFFF00), (0x100224, 0x1F), (0x100228, 0xFFFFFFFF)]
    handles := [(0, { valid := true, units := 256, rights := 15, owner := 0x1FFFFFFF })]
    fcBuffer := some 0 }

def tFl : FcLine := ⟨.keep, 0, 4, 15⟩

def tFar (c : Nat) : FarWait :=
  { tag := 0x18, detail := 0, node := 15, offset := 0x3FFFFFC0, write := false, size := 64, data := [], hint := .normal, fill := true, cycle := some c, id := some 63 }

def tColl : CollLocal :=
  { key := 0xFF05, scope := 3, op := 0, int32 := false, bytes := 4, group := 0, ops := [], data := [], dsts := [0], tag := 0, detail := 0, sent := some 0, out := true }

def tLd : DsReq := ⟨0x18, 0, .addr 0x1F3FFFFFC0, true, false, 64, []⟩

def tSo : DsReq := ⟨0x18, 0, .addr 0x1F3FFFFFC0, true, true, 64, List.replicate 64 3⟩

theorem wit_FarCacheAccessesAndCollectives :
    (∃ (s : State) (r : DsReq) (a : Nat), Quiet s ∧ r.tag = 24 ∧ r.target = DsTarget.addr a ∧ farWindow a = none) ∧
    (∃ (s : State) (r : DsReq) (a n off : Nat), Quiet s ∧ r.tag = 24 ∧ r.target = DsTarget.addr a ∧ farWindow a = some (n, off)
      ∧ viewOk r a = true ∧ xkReaches s n = false ∧ (xkJoined s = false ∨ n ≠ s.xk.node)) ∧
    (∃ (s : State) (r : DsReq) (a n off : Nat) (l : FcLine), Quiet s ∧ r.tag = 24 ∧ r.target = DsTarget.addr a ∧ farWindow a =
      some (n, off) ∧ viewOk r a = true ∧ xkReaches s n = true ∧ r.write = false ∧ tabGet? s.fcache (fcKey n (off / 256)) = some
      l ∧ fcFresh s l = true ∧ Units s 3 1 ∧ (∀ (p : Nat × Nat), p ∈ pieces r.size (fcAddr s (fcKey n (off / 256)) l.way + off %
      256) r.size → Passes s {
        tag := 28, detail := 0, target := DsTarget.addr p.fst, wide := decide (p.snd = 64), write := false, size := p.snd, data
        := [] })) ∧
    (∃ (s : State) (r : DsReq) (a n off : Nat), Quiet s ∧ r.tag = 24 ∧ r.target = DsTarget.addr a ∧ farWindow a = some (n, off)
      ∧ viewOk r a = true ∧ xkReaches s n = true ∧ r.write = true ∧ s.xk.far = [] ∧ s.fcache = []) ∧
    (∃ (s : State) (req : Req), Quiet s ∧ mayAccess req 556 true = true ∧ bitAt (BitVec.toNat (regGet s (bankKey (reqBank req)
      560))) 30 = true) ∧
    (∃ (s : State) (req : Req) (h : Fin 3) (c : Instr), Quiet s ∧ mayAccess req 556 true = true ∧ bitAt (BitVec.toNat (regGet s
      (bankKey (reqBank req) 560))) 30 = false ∧ s.xk.colls = [] ∧ s.xk.redWait = [] ∧ fcRange s (reqBank req) = none ∧ c ∈
      [Instr.fcPrefetch req h, Instr.fcFlush req, Instr.fcInvalidate req, Instr.fcFlushInvalidate req]) ∧
    (∃ (s : State) (req : Req) (n l k : Nat), Quiet s ∧ mayAccess req 556 true = true ∧ bitAt (BitVec.toNat (regGet s (bankKey
      (reqBank req) 560))) 30 = false ∧ s.xk.colls = [] ∧ s.xk.redWait = [] ∧ fcRange s (reqBank req) = some (n, l, k)) ∧
    (∃ (s : State) (req : Req) (n l : Nat), Quiet s ∧ mayAccess req 556 true = true ∧ bitAt (BitVec.toNat (regGet s (bankKey
      (reqBank req) 560))) 30 = false ∧ s.xk.colls = [] ∧ s.xk.redWait = [] ∧ fcRange s (reqBank req) = some (n, l, 1) ∧
      xkReaches s n = true ∧ s.fcache = [] ∧ s.xk.far = [] ∧ s.xk.got = [] ∧ bwReady s 3 = true) ∧
    (∃ (s : State) (tag : Nat) (w : FarWait) (c : Nat), Quiet s ∧ s.xk.far = [w] ∧ w.id = some tag ∧ w.cycle = some c ∧ w.write
      = false ∧ w.mode = FarMode.reply ∧ w.tag = 24 ∧ (s.xk.cycle + 2 ^ 32 - c) % 2 ^ 32 < 8) ∧
    (∃ (s : State) (tag : Nat) (w : FarWait) (c : Nat), Quiet s ∧ s.xk.far = [w] ∧ w.id = some tag ∧ w.cycle = some c ∧ w.write
      = false ∧ w.mode = FarMode.reply ∧ w.tag = 24 ∧ 8 ≤ (s.xk.cycle + 2 ^ 32 - c) % 2 ^ 32) ∧
    (∃ (s : State) (l : CollLocal) (c : Nat), Quiet s ∧ s.xk.colls = [l] ∧ l.out = true ∧ l.sent = some c ∧ s.xk.node < 16 ∧ 5 ≤
      (s.xk.cycle + 2 ^ 32 - c) % 2 ^ 32 ∧ s.arrivals = []) ∧
    (∃ (s : State) (l : CollLocal) (c : Nat), Quiet s ∧ s.xk.colls = [l] ∧ l.out = true ∧ l.sent = some c ∧ s.xk.node < 16 ∧
      (s.xk.cycle + 2 ^ 32 - c) % 2 ^ 32 < 5) :=
  ⟨ ⟨tF {}, ⟨0x18, 0, .addr 0x1F40000000, true, false, 64, []⟩, 0x1F40000000, by decide +kernel⟩,
    ⟨tS, tSo, 0x1F3FFFFFC0, 15, 0x3FFFFFC0, by decide +kernel⟩,
    ⟨{ tF { cycle := 5 } with fcache := [(fcKey 15 0x3FFFFF, tFl)] }, tLd, 0x1F3FFFFFC0, 15, 0x3FFFFFC0, tFl,
      by decide +kernel⟩,
    ⟨tF {}, tSo, 0x1F3FFFFFC0, 15, 0x3FFFFFC0, by decide +kernel⟩,
    ⟨{ tF {} with regs := [(0x20, 1), (0x100230, 0x40000000)] }, .host, by decide +kernel⟩,
    ⟨{ tF {} with regs := [(0x20, 1)] }, .host, 2, .fcFlush .host, by decide +kernel⟩,
    ⟨tF {}, .host, 15, 0x3FFFFF, 1, by decide +kernel⟩,
    ⟨tF {}, .host, 15, 0x3FFFFF, by decide +kernel⟩,
    ⟨tF { cycle := 5, far := [tFar 0xFFFFFFFE] }, 63, tFar 0xFFFFFFFE, 0xFFFFFFFE, by decide +kernel⟩,
    ⟨tF { cycle := 5, far := [tFar 0xFFFFFFFD] }, 63, tFar 0xFFFFFFFD, 0xFFFFFFFD, by decide +kernel⟩,
    ⟨tF { cycle := 5, colls := [tColl] }, tColl, 0, by decide +kernel⟩,
    ⟨tF { cycle := 4, colls := [tColl] }, tColl, 0, by decide +kernel⟩⟩

end FarCacheAccessesAndCollectives

namespace DmaCommandsAct

def tDr (st pend : Nat) (a : Bool) : State :=
  { tR [(dmaBase 15 + 0x10, 16777216), (dmaBase 15 + 0x14, 65536), (dmaBase 15 + 0x24, 65536), (dmaBase 15 + 0x60, 0x7E0), (dmaBase 15 + 0x84, w32 st), (dmaBase 15 + 0xA0, w32 pend)] with
    dma := [(15, { active := a })] }

theorem wit_DmaCommandsAct :
    (∃ (ch : Fin 16) (s : State) (req : Req), mayAccess req (dmaBase ↑ch + 128) true = true ∧ dmaArmed s ↑ch = true) ∧
    (∃ (ch : Fin 16) (s : State) (req : Req), mayAccess req (dmaBase ↑ch + 128) true = true ∧ dmaArmed s ↑ch = false ∧
      (BitVec.toNat (regGet s (dmaBase ↑ch + 16)) < 8 ∨ 16777216 < BitVec.toNat (regGet s (dmaBase ↑ch + 16)) ∨ BitVec.toNat
      (regGet s (dmaBase ↑ch + 20)) = 0 ∨ 65536 < BitVec.toNat (regGet s (dmaBase ↑ch + 20)) ∨ BitVec.toNat (regGet s (dmaBase
      ↑ch + 36)) = 0 ∨ 65536 < BitVec.toNat (regGet s (dmaBase ↑ch + 36)))) ∧
    (∃ (ch : Fin 16) (s : State) (req : Req), mayAccess req (dmaBase ↑ch + 128) true = true ∧ dmaArmed s ↑ch = false ∧ 8 ≤
      BitVec.toNat (regGet s (dmaBase ↑ch + 16)) ∧ BitVec.toNat (regGet s (dmaBase ↑ch + 16)) ≤ 16777216 ∧ 1 ≤ BitVec.toNat
      (regGet s (dmaBase ↑ch + 20)) ∧ BitVec.toNat (regGet s (dmaBase ↑ch + 20)) ≤ 65536 ∧ 1 ≤ BitVec.toNat (regGet s (dmaBase
      ↑ch + 36)) ∧ BitVec.toNat (regGet s (dmaBase ↑ch + 36)) ≤ 65536 ∧ regBits s (dmaBase ↑ch + 32) 14 2 ≠ 3 ∧ bitAt
      (BitVec.toNat (regGet s (dmaBase ↑ch + 144))) 1 = false ∧ dmaState s ↑ch < 4 ∧ (dmaOf s ↑ch).active = true) ∧
    (∃ (ch : Fin 16) (s : State) (req : Req), mayAccess req (dmaBase ↑ch + 128) true = true ∧ dmaArmed s ↑ch = false ∧ 8 ≤
      BitVec.toNat (regGet s (dmaBase ↑ch + 16)) ∧ BitVec.toNat (regGet s (dmaBase ↑ch + 16)) ≤ 16777216 ∧ 1 ≤ BitVec.toNat
      (regGet s (dmaBase ↑ch + 20)) ∧ BitVec.toNat (regGet s (dmaBase ↑ch + 20)) ≤ 65536 ∧ 1 ≤ BitVec.toNat (regGet s (dmaBase
      ↑ch + 36)) ∧ BitVec.toNat (regGet s (dmaBase ↑ch + 36)) ≤ 65536 ∧ regBits s (dmaBase ↑ch + 32) 14 2 ≠ 3 ∧ bitAt
      (BitVec.toNat (regGet s (dmaBase ↑ch + 144))) 1 = false ∧ dmaState s ↑ch < 4 ∧ (dmaOf s ↑ch).active = false ∧ (∀ (k :
      Nat), k ∈ [0, 2, 4, 6, 7, 10] → BitVec.toNat (regGet s (dmaBase ↑ch + 4 * k)) % 8 = 0)) ∧
    (∃ (ch : Fin 16) (s : State) (req : Req), mayAccess req (dmaBase ↑ch + 128) true = true ∧ dmaArmed s ↑ch = false ∧ 8 ≤
      BitVec.toNat (regGet s (dmaBase ↑ch + 16)) ∧ BitVec.toNat (regGet s (dmaBase ↑ch + 16)) ≤ 16777216 ∧ 1 ≤ BitVec.toNat
      (regGet s (dmaBase ↑ch + 20)) ∧ BitVec.toNat (regGet s (dmaBase ↑ch + 20)) ≤ 65536 ∧ 1 ≤ BitVec.toNat (regGet s (dmaBase
      ↑ch + 36)) ∧ BitVec.toNat (regGet s (dmaBase ↑ch + 36)) ≤ 65536 ∧ regBits s (dmaBase ↑ch + 32) 14 2 ≠ 3 ∧ bitAt
      (BitVec.toNat (regGet s (dmaBase ↑ch + 144))) 1 = false ∧ dmaState s ↑ch < 4 ∧ (dmaOf s ↑ch).active = false ∧ BitVec.toNat
      (regGet s (dmaBase ↑ch)) % 8 ≠ 0) ∧
    (∃ (ch : Fin 16) (s : State), dmaState s ↑ch = 4 ∧ (dmaOf s ↑ch).outstanding = 0) ∧
    (∃ (ch : Fin 16) (s : State) (req : Req) (j : Fin 32), mayAccess req 20496 true = true ∧ dmaPaced s ↑j ↑ch = true ∧ (∀ (i :
      Nat), i < 16 → i ≠ ↑ch → dmaPaced s (↑j) i = false) ∧ regBits s (dmaBase ↑ch + 160) 0 8 < 255) ∧
    (∃ (ch : Fin 16) (s : State) (req : Req) (j : Fin 32), mayAccess req 20496 true = true ∧ dmaPaced s ↑j ↑ch = true ∧ (∀ (i :
      Nat), i < 16 → i ≠ ↑ch → dmaPaced s (↑j) i = false) ∧ regBits s (dmaBase ↑ch + 160) 0 8 = 255) ∧
    (∃ (ch : Fin 16) (s : State) (code : Fin 9), (dmaOf s ↑ch).active = true ∧ dmaState s ↑ch < 4 ∧ code ≠ 0) ∧
    (∃ (ch : Fin 16) (s : State), dmaState s ↑ch = 5 ∧ (dmaOf s ↑ch).outstanding = 0) :=
  ⟨ ⟨15, tDr 9 0 false, .host, by decide +kernel⟩,
    ⟨15, tR [(dmaBase 15 + 0x10, 7)], .host, by decide +kernel⟩,
    ⟨15, tDr 1 0 true, .host, by decide +kernel⟩,
    ⟨15, tDr 0 0 false, .host, by decide +kernel⟩,
    ⟨15, { tDr 0 0 false with
        regs := [(0x20, 1), (dmaBase 15, 7), (dmaBase 15 + 0x10, 8), (dmaBase 15 + 0x14, 1), (dmaBase 15 + 0x24, 1)] }, .host,
      by decide +kernel⟩,
    ⟨15, tDr 4 0 true, by decide +kernel⟩,
    ⟨15, tDr 0 254 true, .host, 31, by decide +kernel⟩,
    ⟨15, tDr 0 255 true, .host, 31, by decide +kernel⟩,
    ⟨15, tDr 1 0 true, 8, by decide +kernel⟩,
    ⟨15, tDr 5 0 true, by decide +kernel⟩⟩

end DmaCommandsAct

namespace DmaMovesLinesAndCompletes

def tDm (l : Tab Word) (c : DmaCh) : State := { tR l with dma := [(15, c)] }

theorem wit_DmaMovesLinesAndCompletes :
    (∃ (s : State), Quiet s ∧ s.dmaBusy = none ∧ (∀ (n : Nat), n < 16 → dmaPending s n = false)) ∧
    (∃ (s : State) (n : Fin 16), Quiet s ∧ s.arrivals = [] ∧ s.dmaBusy = none ∧ dmaPending s ↑n = true ∧ (∀ (i : Nat), i < ↑n →
      dmaPending s i = false) ∧ actBit s (↑n) 5 = false ∧ actBit s (↑n) 0 = false ∧ actBit s (↑n) 1 = false ∧ actBit s (↑n) 3 =
      false ∧ actLines s ↑n = 1 ∧ actLen s ↑n = 64 ∧ (dmaOf s ↑n).line = 0 ∧ 1 ≤ actBurst s ↑n ∧ actAddr s (↑n) 0 < 1073741824 ∧
      actAddr s (↑n) 8 < 1073741824 ∧ actAddr s (↑n) 0 % 64 = 0 ∧ actAddr s (↑n) 8 % 64 = 0 ∧ actAddr s (↑n) 0 ≠ actAddr s (↑n)
      8 ∧ Units s 4 2 ∧ Passes s {
        tag := 25, detail := ↑n, target := DsTarget.addr (actAddr s (↑n) 0), wide := true, write := false, size := 64, data :=
        [] } ∧ Passes s {
        tag := 25, detail := ↑n, target := DsTarget.addr (actAddr s (↑n) 8), wide := true, write := true, size := 64, data :=
        memBytes s (actAddr s (↑n) 0) 64 }) ∧
    (∃ (s : State) (ch : Fin 16), (dmaOf s ↑ch).active = true ∧ 0 < dmaEarly s ↑ch ∧ dmaAnswered s ↑ch = true ∧ dmaEvMode s ↑ch
      = 2) ∧
    (∃ (s : State) (ch : Fin 16), dmaEarly s ↑ch = 0) ∧
    (∃ (s : State) (ch : Fin 16), (dmaOf s ↑ch).active = true ∧ dmaState s ↑ch = 3 ∧ (dmaOf s ↑ch).outstanding = 0 ∧ dmaArmed s
      ↑ch = false) ∧
    (∃ (s : State) (ch : Fin 16), (dmaOf s ↑ch).active = true ∧ dmaState s ↑ch = 3 ∧ (dmaOf s ↑ch).outstanding = 0 ∧ dmaArmed s
      ↑ch = true ∧ bitAt (BitVec.toNat (regGet s (dmaBase ↑ch + 132))) 4 = false ∧ (∀ (k : Nat), k ∈ [0, 2, 4, 6, 7, 10] →
      BitVec.toNat (regGet s (dmaBase ↑ch + 4 * k)) % 8 = 0)) :=
  ⟨ ⟨tS, by decide +kernel⟩,
    ⟨{ tDm [(0x440, 0x80000000), (dmaBase 15 + 0x40, 0x3FC0), (dmaBase 15 + 0x48, 0x3F80), (dmaBase 15 + 0x50, 64), (dmaBase 15 + 0x54, 1), (dmaBase 15 + 0x64, 1), (dmaBase 15 + 0x84, 1)] { active := true } with
        mem := [(0x3FC1, 9)] }, 15, by decide +kernel⟩,
    ⟨tDm [(dmaBase 15 + 0x54, 65536), (dmaBase 15 + 0x60, 0x2000), (dmaBase 15 + 0x84, 2)]
      { active := true, bursts := 1, line := 65535 }, 15, by decide +kernel⟩,
    ⟨tDm [(dmaBase 15 + 0x54, 1)] { active := true, bursts := 1, line := 1 }, 15, by decide +kernel⟩,
    ⟨tDm [(dmaBase 15 + 0x54, 1), (dmaBase 15 + 0x84, 3)] { active := true, line := 1 }, 15, by decide +kernel⟩,
    ⟨tDm [(dmaBase 15 + 0x54, 1), (dmaBase 15 + 0x84, 11)] { active := true, line := 1 }, 15, by decide +kernel⟩⟩

end DmaMovesLinesAndCompletes

namespace TrestleInterruptControllerAndHalts

def tTic (c : List Nat) : State :=
  { tR [(clusterKey (ticEn 7 true + 28), 0x80000000), (clusterKey 1020, 7), (clusterKey (ticThr 7 true), 6)] with tic := { pend := [255, 254], claimed := c, kept := c } }

def tHart (h : Hart) : State := { tS with harts := [(7, h)] }

theorem wit_TrestleInterruptControllerAndHalts :
    (∃ (c : Fin 8) (s : State) (m : Bool) (n j : Nat), ticBest s (↑c) m = some n ∧ j < 256 ∧ ticPending s j = true ∧ ticEnabled
      s (↑c) m j = true ∧ fieldOf (clReg s (ticThr (↑c) m)) 0 3 < ticPrio s j) ∧
    (∃ (c : Fin 8) (s : State) (m : Bool), ticBest s (↑c) m = none) ∧
    (∃ (s : State) (n : Fin 256), ↑n ∈ s.tic.claimed) ∧
    (∃ (s : State) (n : Fin 256), (¬↑n ∈ s.tic.claimed)) ∧
    (∃ (c : Fin 8) (s : State), (hartOf s ↑c).state = TrState.haltRequested) ∧
    (∃ (c : Fin 8) (s : State), (hartOf s ↑c).state ≠ TrState.haltRequested) ∧
    (∃ (c : Fin 8) (s : State) (t d k : Nat), (hartOf (timeTo t s) ↑c).haltBy = some (d, k) ∧ (timeTo t s).ts < d) ∧
    (∃ (c : Fin 8) (s : State) (t d k : Nat), (hartOf (timeTo t s) ↑c).haltBy = some (d, k) ∧ d ≤ (timeTo t s).ts ∧ trRuns
      (timeTo t s) ↑c = true ∧ Quiet (timeTo t s) ∧ (timeTo t s).rings = [] ∧ (timeTo t s).sems = []) ∧
    (∃ (c : Fin 8) (s : State) (k : Fin 16), Quiet s ∧ tabGet? s.evOwner ↑k = some ↑c) ∧
    (∃ (c : Fin 8) (s : State) (k : Fin 16), Quiet s ∧ tabGet? s.evOwner ↑k ≠ some ↑c) ∧
    (∃ (c : Fin 8) (s : State) (m : Bool) (t : Nat), ((if m = true then hcsr (hartOf (timeTo t s) ↑c) 333 else mtimecmp (timeTo
      t s) ↑c) ≤ (timeTo t s).ts)) ∧
    (∃ (c : Fin 8) (s : State) (m : Bool) (t : Nat), ((timeTo t s).ts < if m = true then hcsr (hartOf (timeTo t s) ↑c) 333 else
      mtimecmp (timeTo t s) ↑c)) :=
  ⟨ ⟨7, tTic [], true, 255, 255, by decide +kernel⟩,
    ⟨7, tTic [], false, by decide +kernel⟩,
    ⟨tTic [9], 9, by decide +kernel⟩,
    ⟨tTic [9], 8, by decide +kernel⟩,
    ⟨7, tHart { state := .haltRequested }, by decide +kernel⟩,
    ⟨7, tHart { state := .running }, by decide +kernel⟩,
    ⟨7, tHart { state := .haltRequested, haltBy := some (5000, 3) }, 4999, 5000, 3, by decide +kernel⟩,
    ⟨7, tHart { state := .haltRequested, haltBy := some (5000, 3) }, 5000, 5000, 3, by decide +kernel⟩,
    ⟨7, { tS with evOwner := [(15, 7)] }, 15, by decide +kernel⟩,
    ⟨7, { tS with evOwner := [(15, 6)] }, 15, by decide +kernel⟩,
    ⟨7, tHart { state := .running, csr := [(0x14D, 5000)] }, true, 5000, by decide +kernel⟩,
    ⟨7, tHart { state := .running, csr := [(0x14D, 5000)] }, true, 4999, by decide +kernel⟩⟩

end TrestleInterruptControllerAndHalts

namespace TrestleCoreExecutesAnInstruction

def tIrq : State :=
  { tS with
    harts := [(7, { state := .running, pc := 0x3FFE, csr := [(0x300, 8), (0x304, 0x800)] })]
    regs := [(0x20, 1), (clusterKey (ticEn 7 false + 28), 0x80000000), (clusterKey 1020, 7), (clusterKey (ticThr 7 false), 6)]
    tic := { pend := [255] } }

theorem wit_TrestleCoreExecutesAnInstruction :
    (∃ (c : Fin 8) (s : State), Quiet s ∧ (trRuns s ↑c = false ∨ (hartOf s ↑c).dbg = true ∨ Executes (↑c) s ∧ (hartOf s ↑c).wfi
      = true ∧ mipOf (↑c) (hartOf s ↑c) s &&& hcsr (hartOf s ↑c) 772 = 0)) ∧
    (∃ (c : Fin 8) (s : State) (i : Nat) (r : State), Fetched (↑c) s i r ∧ Quiet r ∧ (i % 128 = 19 ∧ fF3 i = 0 ∨ i % 128 = 51 ∧
      fF3 i = 0 ∧ fF7 i = 0)) ∧
    (∃ (c : Fin 8) (s : State) (i : Nat) (r : State) (b : Bool), Fetched (↑c) s i r ∧ Quiet r ∧ i % 128 = 99 ∧ branchTaken (fF3
      i) (xGet (hartOf s ↑c) (fRs1 i)) (xGet (hartOf s ↑c) (fRs2 i)) = some b) ∧
    (∃ (c : Fin 8) (s r : State), Fetched (↑c) s 115 r ∧ Quiet r ∧ (hartOf s ↑c).priv = 3) ∧
    (∃ (c : Fin 8) (s r : State), Fetched (↑c) s 807403635 r ∧ Quiet r ∧ (hartOf s ↑c).priv = 3) ∧
    (∃ (c : Fin 8) (s : State) (n : Nat), Quiet s ∧ Executes (↑c) s ∧ (hartOf s ↑c).wfi = false ∧ (hartOf s ↑c).priv = 3 ∧ trIrq
      (↑c) (hartOf s ↑c) s = some n) :=
  ⟨ ⟨7, { tS with harts := [(7, { state := .running, dbg := true })] }, by decide +kernel⟩,
    ⟨7, tCore 0xFFFF8F93, 0xFFFF8F93, tCore 0xFFFF8F93, (fetched_of (by decide +kernel)), by decide +kernel⟩,
    ⟨7, tCore 0x81FF8063, 0x81FF8063, tCore 0x81FF8063, true, (fetched_of (by decide +kernel)), by decide +kernel⟩,
    ⟨7, tCore 0x73, tCore 0x73, (fetched_of (by decide +kernel)), by decide +kernel⟩,
    ⟨7, tCore 0x30200073, tCore 0x30200073, (fetched_of (by decide +kernel)), by decide +kernel⟩,
    ⟨7, tIrq, 11, by decide +kernel⟩⟩

end TrestleCoreExecutesAnInstruction

namespace HostRegisterRowsAct

def tEntry : LogEntry :=
  { ts := 2 ^ 64 - 1, lx := 7, addr := 2 ^ 40 - 1, source := 0x49, cls := 2, code := 5, flags := 3, syndrome := 255, detail := 0xFFFF }

def tLog : State := { tR [(0x6000, 255)] with log := [(255, tEntry)] }

theorem wit_HostRegisterRowsAct :
    (∃ (req : Req) (mb : Fin 8), mayAccess req (mbBase ↑mb + 256) true = false) ∧
    (∃ (req : Req) (s : State) (mb : Fin 8), mayAccess req (mbBase ↑mb + 256) true = true ∧ mbFree s ↑mb = true) ∧
    (∃ (req : Req) (s : State) (mb : Fin 8), mayAccess req (mbBase ↑mb + 256) true = true ∧ mbFree s ↑mb = false) ∧
    (∃ (req : Req), mayAccess req 8712 true = false) ∧
    (∃ (req : Req) (s : State) (w : Word), mayAccess req 8712 true = true ∧ (BitVec.toNat w % 256 + 256 - BitVec.toNat (regGet s
      8712)) % 256 ≤ noticeOcc s) ∧
    (∃ (req : Req) (s : State) (w : Word), mayAccess req 8712 true = true ∧ noticeOcc s < (BitVec.toNat w % 256 + 256 -
      BitVec.toNat (regGet s 8712)) % 256) ∧
    (∃ (req : Req), mayAccess req 8208 true = false) ∧
    (∃ (req : Req), mayAccess req 8208 true = true) ∧
    (∃ (req : Req), mayAccess req 24580 true = false) ∧
    (∃ (req : Req) (s : State) (w : Word), mayAccess req 24580 true = true ∧ (BitVec.toNat w + 2 ^ 32 - BitVec.toNat (regGet s
      24580)) % 2 ^ 32 ≤ (BitVec.toNat (regGet s 24576) + 2 ^ 32 - BitVec.toNat (regGet s 24580)) % 2 ^ 32) ∧
    (∃ (req : Req) (s : State) (w : Word), mayAccess req 24580 true = true ∧ (BitVec.toNat (regGet s 24576) + 2 ^ 32 -
      BitVec.toNat (regGet s 24580)) % 2 ^ 32 < (BitVec.toNat w + 2 ^ 32 - BitVec.toNat (regGet s 24580)) % 2 ^ 32) ∧
    (∃ (req : Req), mayAccess req 24832 true = false) ∧
    (∃ (req : Req) (s : State) (c : Word) (e : LogEntry), mayAccess req 24832 true = true ∧ tabGet? s.log (BitVec.toNat c % 256)
      = some e ∧ 1 ≤ (BitVec.toNat (regGet s 24576) + 2 ^ 32 - BitVec.toNat c) % 2 ^ 32 ∧ (BitVec.toNat (regGet s 24576) + 2 ^
      32 - BitVec.toNat c) % 2 ^ 32 ≤ 256) ∧
    (∃ (req : Req) (s : State) (c : Word), mayAccess req 24832 true = true ∧ ((BitVec.toNat (regGet s 24576) + 2 ^ 32 -
      BitVec.toNat c) % 2 ^ 32 = 0 ∨ 256 < (BitVec.toNat (regGet s 24576) + 2 ^ 32 - BitVec.toNat c) % 2 ^ 32 ∨ tabGet? s.log
      (BitVec.toNat c % 256) = none)) :=
  ⟨ ⟨.host, 7, by decide +kernel⟩,
    ⟨.host, tR [(0x1704, 0x1B)], 3, by decide +kernel⟩,
    ⟨.host, tR [(0x1704, 2)], 3, by decide +kernel⟩,
    ⟨.trestle 7, by decide +kernel⟩,
    ⟨.host, tR [(0x2204, 127), (0x2208, 255)], 0xFFFFFF7F, by decide +kernel⟩,
    ⟨.host, tR [(0x2204, 127), (0x2208, 255)], 0xFFFFFF80, by decide +kernel⟩,
    ⟨.trestle 7, by decide +kernel⟩,
    ⟨.host, by decide +kernel⟩,
    ⟨.dma 15, by decide +kernel⟩,
    ⟨.host, tR [(0x6000, 255), (0x6004, 0xFFFFFF00)], 0xFFFFFFFF, by decide +kernel⟩,
    ⟨.host, tR [(0x6000, 255), (0x6004, 0xFFFFFF00)], 256, by decide +kernel⟩,
    ⟨.dma 15, by decide +kernel⟩,
    ⟨.host, tLog, 0xFFFFFFFF, tEntry, by decide +kernel⟩,
    ⟨.host, tLog, 0xFFFFFFFE, by decide +kernel⟩⟩

end HostRegisterRowsAct

namespace MailboxesAndSupervisorsWork

def tBell : State :=
  { tR [(0x1D04, 1), (0x1D08, 0xFFFF)] with regs := [(0x20, 0x509), (0x1D04, 1), (0x1D08, 0xFFFF)], mboxes := [(6, { req := [(1, 1), (4, 2), (6, 1), (8, 0xAA), (9, 0xBB)] })], sup := { lastHb := 1000 } }

def tLg (op : Nat) (p : List Byte) (dl : Option Nat) (done : Option (Nat × Nat × List Byte)) : LongCmd :=
  { mb := 7, seq := 0xFFFF, opcode := op, obj := 0, payload := p, deadline := dl, done := done }

def tLs (l : LongCmd) : State := { tS with sup := { longs := [(3, l)] } }

def tSup (x : Sup) : State := { tS with regs := [(0x20, 0x509)], sup := x }

def tFw : LongCmd := tLg 0x904 ([0, 1, 0, 0, 0, 0, 0, 0, 4] ++ List.replicate 11 0) none none

def tHeld : State := { tLs (tLg 0x706 [] none none) with regs := [(0x20, 1), (0x801C, 1)] }

theorem wit_MailboxesAndSupervisorsWork :
    (∃ (s : State) (n : Nat) (h : Hdr) (op len j : Nat), mbHead s n = (h, op, len) ∧ mbFirst s = some n ∧ serves s = true ∧ j <
      8 ∧ mbState s j = 1) ∧
    (∃ (s : State) (n : Nat) (h : Hdr) (len : Nat), mbHead s n = (h, 256, len) ∧ mbFirst s = some n ∧ serves s = true ∧ len ≤
      248 ∧ (h.seq.toNat + 65536 - regBits s (mbBase n + 264) 0 16) % 65536 = 1 ∧ h.flags.toNat ≤ 1 ∧ Quiet s ∧ s.xk.relayBusy =
      none) ∧
    (∃ (s : State), (mbFirst s = none ∨ serves s = false)) ∧
    (∃ (s : State) (key : Nat) (l : LongCmd) (st d : Nat) (res : List Byte), (records l = true ∧ st = 0 ∧ flashHeld s = true ∨
      l.opcode = 1538 ∧ ∃ (x : Nat), l.deadline = some x ∧ s.ts < x) ∧ Quiet s ∧ s.arrivals = [] ∧ s.sup.failed = false ∧
      tabGet? s.sup.longs key = some l ∧ l.done = some (st, d, res)) ∧
    (∃ (s : State) (key : Nat) (l : LongCmd) (st d : Nat) (res : List Byte), Quiet s ∧ s.arrivals = [] ∧ s.sup.failed = false ∧
      tabGet? s.sup.longs key = some l ∧ l.done = some (st, d, res) ∧ (records l = true → st = 0 → flashHeld s = false) ∧
      (l.opcode = 1538 → s.xk.leaving = false ∧ ∀ (x : Nat), x ∈ l.deadline → x ≤ s.ts) ∧ (l.opcode = 515 → l.aux ≠ 9 ∧ ∀ (e :
      Nat × LongCmd), e ∈ s.sup.longs → e.snd.opcode = 515 → e.fst = key)) ∧
    (∃ (s : State) (key : Nat) (l : LongCmd), Quiet s ∧ s.arrivals = [] ∧ s.sup.failed = false ∧ tabGet? s.sup.longs key = some
      l ∧ l.done = none ∧ l.opcode ≠ 1798 ∧ l.opcode ≠ 1799 ∧ l.opcode ≠ 2306 ∧ l.opcode ≠ 2308) ∧
    (∃ (s : State) (key : Nat) (l : LongCmd), Quiet s ∧ s.arrivals = [] ∧ s.sup.failed = false ∧ tabGet? s.sup.longs key = some
      l ∧ l.done = none ∧ l.opcode ≠ 1799 ∧ flashHeld s = true) ∧
    (∃ (s : State) (key : Nat) (l : LongCmd), Quiet s ∧ s.arrivals = [] ∧ s.sup.failed = false ∧ tabGet? s.sup.longs key = some
      l ∧ l.done = none ∧ l.opcode = 1799 ∧ (∀ (x : Nat), x ∈ l.deadline → s.ts < x)) ∧
    (∃ (s : State) (key : Nat) (l : LongCmd) (x : Nat), Quiet s ∧ s.arrivals = [] ∧ s.sup.failed = false ∧ tabGet? s.sup.longs
      key = some l ∧ l.done = none ∧ l.opcode = 1799 ∧ l.deadline = some x ∧ x ≤ s.ts) ∧
    (∃ (s : State) (key : Nat) (l : LongCmd), Quiet s ∧ s.arrivals = [] ∧ s.sup.failed = false ∧ tabGet? s.sup.longs key = some
      l ∧ l.done = none ∧ flashHeld s = false ∧ l.opcode = 1798) ∧
    (∃ (s : State) (key : Nat) (l : LongCmd), Quiet s ∧ s.arrivals = [] ∧ s.sup.failed = false ∧ tabGet? s.sup.longs key = some
      l ∧ l.done = none ∧ flashHeld s = false ∧ l.opcode = 2306) ∧
    (∃ (s : State) (key : Nat) (l : LongCmd) (q : State) (d : List Byte), Quiet s ∧ s.arrivals = [] ∧ s.sup.failed = false ∧
      tabGet? s.sup.longs key = some l ∧ l.done = none ∧ flashHeld s = false ∧ l.opcode = 2308 ∧ rangeIn s (leAt l.payload 0 2)
      (leAt l.payload 4 4) (leAt l.payload 8 4) = true ∧ bufRead (leAt l.payload 0 2) (leAt l.payload 4 4) (leAt l.payload 8 4)
      s = (q, some d)) ∧
    (∃ (s : State) (key : Nat), Quiet s ∧ (s.sup.failed = true ∨ tabGet? s.sup.longs key = none)) ∧
    (∃ (s : State) (t : Nat), ((timeTo t s).sup.failed = true ∨ regBits (timeTo t s) 32 8 4 = 0 ∨ t < (timeTo t s).sup.lastHb +
      1000000)) ∧
    (∃ (s : State) (t : Nat), (timeTo t s).sup.failed = false ∧ regBits (timeTo t s) 32 8 4 ≠ 0 ∧ (timeTo t s).sup.lastHb +
      1000000 ≤ t) ∧
    (∃ (s : State) (t : Nat), ((timeTo t s).sup.failed = true ∨ standbyOk (timeTo t s) = false ∨ regBits (timeTo t s) 32 8 4 = 0
      ∨ t < (timeTo t s).sup.lastHb + 3000000)) ∧
    (∃ (s : State) (t : Nat), ((timeTo t s).sup.failed = true ∨ regBits (timeTo t s) 32 8 4 = 0)) ∧
    (∃ (s : State) (t : Nat), ((timeTo t s).sup.failed = false ∨ standbyOk (timeTo t s) = false)) ∧
    (∃ (s : State) (t : Nat), (timeTo t s).sup.failed = true ∧ standbyOk (timeTo t s) = true) ∧
    (∃ (s : State) (t : Nat), ((timeTo t s).sup.handover = none ∨ (timeTo t s).sup.failed = true)) ∧
    (∃ (s : State) (t k : Nat) (l : LongCmd), (timeTo t s).sup.handover = some k ∧ (timeTo t s).sup.failed = false ∧ tabGet?
      (timeTo t s).sup.longs k = some l) :=
  ⟨ ⟨tBell, 6, ⟨6, 0, 1⟩, 256, 2, 6, by decide +kernel⟩,
    ⟨tBell, 6, ⟨6, 0, 1⟩, 2, by decide +kernel⟩,
    ⟨tS, by decide +kernel⟩,
    ⟨{ tHeld with sup := { longs := [(3, tLg 0x704 [1, 2, 3, 4, 1] none (some (0, 7, [1])))] } }, 3, tLg 0x704 [1, 2, 3, 4, 1]
      none (some (0, 7, [1])), 0, 7, [1], (.inl (by decide +kernel)), by decide +kernel⟩,
    ⟨tLs (tLg 0x704 [1, 2, 3, 4, 0] none (some (0x40, 7, [1]))), 3, tLg 0x704 [1, 2, 3, 4, 0] none (some (0x40, 7, [1])), 0x40,
      7, [1], by decide +kernel⟩,
    ⟨tLs (tLg 0x704 [] none none), 3, tLg 0x704 [] none none, by decide +kernel⟩,
    ⟨tHeld, 3, tLg 0x706 [] none none, by decide +kernel⟩,
    ⟨tLs (tLg 0x707 [] (some 1001) none), 3, tLg 0x707 [] (some 1001) none, by decide +kernel⟩,
    ⟨tLs (tLg 0x707 [] (some 1000) none), 3, tLg 0x707 [] (some 1000) none, 1000, by decide +kernel⟩,
    ⟨tLs (tLg 0x706 [] none none), 3, tLg 0x706 [] none none, by decide +kernel⟩,
    ⟨tLs (tLg 0x902 [] none none), 3, tLg 0x902 [] none none, by decide +kernel⟩,
    ⟨tLs tFw, 3, tFw, (bufRead 0x100 0 4 (tLs tFw)).1, [0, 0, 0, 0], by decide +kernel⟩,
    ⟨tS, 3, by decide +kernel⟩,
    ⟨tSup { lastHb := 1000 }, 1000999, by decide +kernel⟩,
    ⟨tSup { lastHb := 1000 }, 1001000, by decide +kernel⟩,
    ⟨tSup { lastHb := 1000 }, 3000999, by decide +kernel⟩,
    ⟨tSup { failed := true }, 2000, by decide +kernel⟩,
    ⟨tSup {}, 2000, by decide +kernel⟩,
    ⟨tSup { failed := true }, 2000, by decide +kernel⟩,
    ⟨tSup {}, 2000, by decide +kernel⟩,
    ⟨tSup { handover := some 9, longs := [(9, tLg 0x602 [] none none)] }, 2000, 9, tLg 0x602 [] none none, by decide +kernel⟩⟩

end MailboxesAndSupervisorsWork

namespace ManagementPortMovesMailboxSix

def tFrame : List Byte :=
  [0xA5, 0x5A] ++ [0, 1, 0, 0, 2, 0, 0, 0, 0xAA, 0xBB] ++ leBytes 2 (crc16 [0, 1, 0, 0, 2, 0, 0, 0, 0xAA, 0xBB])

theorem wit_ManagementPortMovesMailboxSix :
    (∃ (s : State) (hi lo : Byte) (d : List Byte), Quiet s ∧ (BitVec.toNat hi * 256 + BitVec.toNat lo) % 4 = 0 ∧ BitVec.toNat hi
      * 256 + BitVec.toNat lo + d.length ≤ 256 ∧ mbFree s 6 = true) ∧
    (∃ (s : State) (hi lo : Byte) (d : List Byte), Quiet s ∧ BitVec.toNat hi * 256 + BitVec.toNat lo = 256 ∧ d.length = 4 ∧
      bitAt (leAt d 0 4) 0 = true ∧ mbFree s 6 = true) ∧
    (∃ (s : State) (hi lo : Byte) (d : List Byte), Quiet s ∧ 512 ≤ BitVec.toNat hi * 256 + BitVec.toNat lo ∧ BitVec.toNat hi *
      256 + BitVec.toNat lo + d.length ≤ 65536) ∧
    (∃ (s : State) (hi lo : Byte), Quiet s ∧ (BitVec.toNat hi * 256 + BitVec.toNat lo) % 4 ≠ 0) ∧
    (∃ (s : State) (p : BitVec 16) (len : Nat), p.toNat % 4 = 0 ∧ p.toNat + cdiv len 4 * 4 ≤ 256 ∧ mbState s 6 = 3) ∧
    (∃ (p : BitVec 16) (len : Nat), p.toNat % 4 = 0 ∧ 256 ≤ p.toNat ∧ p.toNat + cdiv len 4 * 4 ≤ 512) ∧
    (∃ (p : BitVec 16) (len : Nat), p.toNat % 4 = 0 ∧ 512 ≤ p.toNat ∧ p.toNat + cdiv len 4 * 4 ≤ 576) ∧
    (∃ (p : BitVec 16) (len : Nat), p.toNat % 4 = 0 ∧ 576 ≤ p.toNat ∧ p.toNat + cdiv len 4 * 4 ≤ 65536) ∧
    (∃ (p : BitVec 16), p.toNat % 4 ≠ 0) ∧
    (∃ (s : State) (d : List Byte) (gap : Bool), uartGood d gap = true ∧ mbFree s 6 = true) ∧
    (∃ (s : State) (d : List Byte) (gap : Bool), uartGood d gap = true ∧ mbFree s 6 = false) ∧
    (∃ (d : List Byte) (gap : Bool), uartGood d gap = false) :=
  ⟨ ⟨tS, 0, 0xFC, [1, 2, 3, 4], by decide +kernel⟩,
    ⟨tS, 1, 0, [1, 0, 0, 0], by decide +kernel⟩,
    ⟨tS, 2, 0, [1], by decide +kernel⟩,
    ⟨tS, 0, 0xFE, by decide +kernel⟩,
    ⟨{ tR [(0x1D04, 3)] with mboxes := [(6, { req := [(0xFC, 9), (0xFE, 9)] })] }, 0xFC, 4, by decide +kernel⟩,
    ⟨0x1FC, 4, by decide +kernel⟩,
    ⟨0x23C, 4, by decide +kernel⟩,
    ⟨0xFFFC, 3, by decide +kernel⟩,
    ⟨0x20E, by decide +kernel⟩,
    ⟨tS, tFrame, false, by decide +kernel⟩,
    ⟨tR [(0x1D04, 1)], tFrame, false, by decide +kernel⟩,
    ⟨tFrame, true, by decide +kernel⟩⟩

end ManagementPortMovesMailboxSix

theorem wit_RequestsAreCheckedInOrder :
    (∃ (len : Nat), 248 < len) ∧
    (∃ (h : Hdr) (len : Nat) (s : State), len ≤ 248 ∧ (h.seq.toNat + 65536 - regBits s (mbBase ↑h.mb + 264) 0 16) % 65536 = 0 ∧
      (mbOf s ↑h.mb).record ≠ []) ∧
    (∃ (h : Hdr) (len : Nat) (s : State), len ≤ 248 ∧ (h.seq.toNat + 65536 - regBits s (mbBase ↑h.mb + 264) 0 16) % 65536 = 0 ∧
      (mbOf s ↑h.mb).record = []) ∧
    (∃ (h : Hdr) (len : Nat) (s : State), len ≤ 248 ∧ (h.seq.toNat + 65536 - regBits s (mbBase ↑h.mb + 264) 0 16) % 65536 ≠ 0 ∧
      (h.seq.toNat + 65536 - regBits s (mbBase ↑h.mb + 264) 0 16) % 65536 ≠ 1) ∧
    (∃ (h : Hdr) (len : Nat) (s : State) (r : Option Nat), len ≤ 248 ∧ (h.seq.toNat + 65536 - regBits s (mbBase ↑h.mb + 264) 0
      16) % 65536 = 1 ∧ hasRight s (↑h.mb) r = false) ∧
    (∃ (h : Hdr) (len : Nat) (p : List Byte) (s : State) (r : Option Nat) (g : CmdFun) (st : Nat) (data : List Byte), g h p s =
      CmdRes.stop st data ∧ len ≤ 248 ∧ (h.seq.toNat + 65536 - regBits s (mbBase ↑h.mb + 264) 0 16) % 65536 = 1 ∧ hasRight s
      (↑h.mb) r = true) ∧
    (∃ (h : Hdr) (len : Nat) (p : List Byte) (s : State) (r : Option Nat) (g : CmdFun) (u : State) (data : List Byte), g h p s =
      CmdRes.ok u data ∧ len ≤ 248 ∧ (h.seq.toNat + 65536 - regBits s (mbBase ↑h.mb + 264) 0 16) % 65536 = 1 ∧ hasRight s
      (↑h.mb) r = true) ∧
    (∃ (h : Hdr) (len : Nat) (p : List Byte) (s : State) (r : Option Nat) (g : CmdFun) (u : State), g h p s = CmdRes.accepted u
      ∧ len ≤ 248 ∧ (h.seq.toNat + 65536 - regBits s (mbBase ↑h.mb + 264) 0 16) % 65536 = 1 ∧ hasRight s (↑h.mb) r = true) :=
  ⟨ ⟨249, by decide +kernel⟩,
    ⟨tH, 248, { tS with regs := [(0x20, 1), (0x1108, 0), (0x110C, 0xFF)], mboxes := [(0, { record := [1, 2, 3] })] },
      by decide +kernel⟩,
    ⟨tH, 248, { tS with regs := [(0x20, 1), (0x1108, 0), (0x110C, 0xFF)] }, by decide +kernel⟩,
    ⟨tH, 248, { tS with regs := [(0x20, 1), (0x1108, 1), (0x110C, 0xFF)] }, by decide +kernel⟩,
    ⟨tH, 248, { tS with regs := [(0x20, 1), (0x1108, 0xFFFF), (0x110C, 0xBF)] }, some 6, by decide +kernel⟩,
    ⟨tH, 248, [1, 2], tS, some 6, fun _ _ _ => .stop 0x12 [1], 0x12, [1], rfl, by decide +kernel⟩,
    ⟨tH, 248, [1, 2], tS, some 6, fun _ _ q => .ok q [1], tS, [1], rfl, by decide +kernel⟩,
    ⟨tH, 248, [1, 2], tS, some 6, fun _ _ q => .accepted q, tS, rfl, by decide +kernel⟩⟩

theorem wit_SystemCommandsAnswer :
    (∃ (h : Hdr) (p : List Byte) (s : State) (n : Nat), n ≤ 248 ∧ Request 256 none n h p s) ∧
    (∃ (h : Hdr) (p : List Byte) (s : State), Request 257 none 0 h p s) ∧
    (∃ (h : Hdr) (p : List Byte) (s : State), Request 258 (some 6) 4 h p s ∧ leAt p 0 4 = 1381188948) ∧
    (∃ (h : Hdr) (p : List Byte) (s : State), Request 258 (some 6) 4 h p s ∧ leAt p 0 4 ≠ 1381188948) ∧
    (∃ (h : Hdr) (p : List Byte) (s : State), Request 259 none 0 h p s) :=
  ⟨ ⟨tH, List.replicate 248 5, tS, 248, by decide +kernel⟩,
    ⟨tH, [], tS, by decide +kernel⟩,
    ⟨tH, leBytes 4 0x52534554, tS, by decide +kernel⟩,
    ⟨tH, leBytes 4 0x52534553, tS, by decide +kernel⟩,
    ⟨tH, [], tS, by decide +kernel⟩⟩

namespace StreamCommandsSetPortsAndStreams

def tSt1 (m : Stream) : State := { tS with streams := [(23, m)] }

def tStart : State :=
  { tSt1 { cxpId := 3, ring := some 127 } with rings := [(127, { declared := true, handle := 0x101, slots := 3, slotUnits := 33, producer := 0x1A, refs := 1 })] }

def tAl := (allocate 64 3 (2 ^ 0x1A) .scratch false tStart).get (by decide +kernel)

def tUpl : List Byte := [5, 1] ++ leBytes 2 0x100 ++ leBytes 4 0x3FF0 ++ leBytes 4 131070 ++ leBytes 4 2 ++ leBytes 8 (2 ^ 56 - 1)

def tUps : State := { tS with mem := tMem 0x3FF0 (leBytes 8 0x4FFFFFFFFF ++ leBytes 8 1) }

theorem wit_StreamCommandsSetPortsAndStreams :
    (∃ (h : Hdr) (p : List Byte) (s : State), Request 512 (some 0) 8 h p s ∧ leAt p 0 1 ≤ 5 ∧ leAt p 1 1 ≤ 1 ∧ leAt p 2 1 ≤ 15 ∧
      1 ≤ leAt p 3 1 ∧ leAt p 3 1 ≤ 7 ∧ leAt p 4 1 ≤ 1 ∧ leAt p 5 1 = 0 ∧ 1 ≤ leAt p 6 2 ∧ leAt p 6 2 ≤ 2000 ∧ (leAt p 1 1 = 1 →
      domOn s (85 + leAt p 0 1) = true) ∧ (leAt p 1 1 = 0 → ∀ (j : Nat), j < 4 → streamTakes (streamOf s (4 * leAt p 0 1 + j)) =
      false)) ∧
    (∃ (h : Hdr) (p : List Byte) (s : State) (n : Nat), 1 ≤ n ∧ n ≤ 20 ∧ Request 513 (some 0) (12 * n) h p s ∧ settingsTwice
      (settings p) = false ∧ (∀ (e : Nat × Nat × Nat), e ∈ settings p → e.snd.fst ≤ 23 ∧ (streamSetting e.fst e.snd.snd
      { }).isSome = true ∧ (streamLive e.fst = true ∨ (streamOf s e.snd.fst).state = StreamState.stopped))) ∧
    (∃ (h : Hdr) (p : List Byte) (s : State) (r i : Nat) (a : State), Request 514 (some 0) 4 h p s ∧ Quiet s ∧ leAt p 0 1 ≤ 23 ∧
      leAt p 1 3 = 0 ∧ (streamOf s (leAt p 0 1)).state = StreamState.stopped ∧ (streamOf s (leAt p 0 1)).ring = some r ∧ (ringOf
      s r).declared = true ∧ slotMisfit s (leAt p 0 1) = false ∧ colClash s (leAt p 0 1) = false ∧ List.foldl (fun (n : Nat) (o
      : Machine.Stream) => n + colSpan o) (colSpan (streamOf s (leAt p 0 1))) (portOthers s (leAt p 0 1)) ≤ 131072 ∧ allocate
      (cdiv (64 * planesOf (streamOf s (leAt p 0 1)) * rowPitch (streamOf s (leAt p 0 1))) 4096) 3 (2 ^ 26) HandleClass.scratch
      false s = some (a, i)) ∧
    (∃ (h : Hdr) (p : List Byte) (s : State), Request 515 (some 0) 4 h p s ∧ leAt p 0 1 ≤ 23 ∧ leAt p 2 2 = 0 ∧ leAt p 1 1 = 0 ∧
      (streamOf s (leAt p 0 1)).state = StreamState.draining) ∧
    (∃ (h : Hdr) (p : List Byte) (s : State), Request 515 (some 0) 4 h p s ∧ leAt p 0 1 ≤ 23 ∧ leAt p 2 2 = 0 ∧ leAt p 1 1 = 0 ∧
      (streamOf s (leAt p 0 1)).state = StreamState.running ∧ (∀ (n : Nat), n ∈ (streamOf s (leAt p 0 1)).rowRep → (streamOf s
      (leAt p 0 1)).areaLines = 0 → repeatOver s (streamOf s (leAt p 0 1)) n = false)) ∧
    (∃ (h : Hdr) (p : List Byte) (s : State), Request 515 (some 0) 4 h p s ∧ leAt p 0 1 ≤ 23 ∧ leAt p 2 2 = 0 ∧ leAt p 1 1 = 1 ∧
      streamTakes (streamOf s (leAt p 0 1)) = true ∧ (streamOf s (leAt p 0 1)).rx = none ∧ (streamOf s (leAt p 0 1)).missed = []
      ∧ (streamOf s (leAt p 0 1)).fifo = [] ∧ (streamOf s (leAt p 0 1)).open_ = none ∧ ↑h.mb ≠ 7) ∧
    (∃ (h : Hdr) (p : List Byte) (s r : State) (q : Option (List Byte)), Request 516 (some 0) 24 h p s ∧ Quiet s ∧ leAt p 0 1 ≤
      5 ∧ leAt p 1 1 ≤ 1 ∧ leAt p 8 4 + leAt p 12 4 ≤ 131072 ∧ leAt p 16 8 < 2 ^ 56 ∧ (leAt p 1 1 = 0 → leAt p 16 8 = 0) ∧
      rangeIn s (leAt p 2 2) (leAt p 4 4) (8 * leAt p 12 4) = true ∧ (portOf s (leAt p 0 1)).pendSwitch = none ∧ bufRead (leAt p
      2 2) (leAt p 4 4) (8 * leAt p 12 4) s = (r, q)) :=
  ⟨ ⟨tH, [5, 1, 15, 7, 1, 0, 0xD0, 7], { tS with pwr := { doms := [(90, { on := true })] } }, by decide +kernel⟩,
    ⟨tH, leBytes 2 7 ++ leBytes 2 23 ++ leBytes 8 (2 ^ 64 - 128), tS, 1, by decide +kernel⟩,
    ⟨tH, [23, 0, 0, 0], tStart, 127, tAl.2, tAl.1, by decide +kernel⟩,
    ⟨tH, [23, 0, 0, 0], tSt1 { state := .draining }, by decide +kernel⟩,
    ⟨tH, [23, 0, 0, 0], tSt1 { state := .running }, by decide +kernel⟩,
    ⟨tH, [23, 1, 0, 0], tSt1 { state := .running }, by decide +kernel⟩,
    ⟨tH, tUpl, tUps, (bufRead 0x100 0x3FF0 16 tUps).1, some (leBytes 8 0x4FFFFFFFFF ++ leBytes 8 1), by decide +kernel⟩⟩

end StreamCommandsSetPortsAndStreams

namespace CameraAndModelCommands

def tIm : State := { tS with mem := tMem 0x3E80 tLoad }

def tImr : State := (bufRead 0x100 0x3E80 0x180 tIm).1

def tZr : State := (bufRead 0x100 0x3F80 0x80 tS).1

def tLres := loadImage (List.replicate 128 0) tZr

def tMod : Model := { image := tLoad, semBase := 1, handles := [(1, 0x100)], rings := [(2, 3)], ownHandles := [0x100], ownRings := [127] }

def tMs : State := { tS with models := [(31, tMod)], rings := [(127, { declared := true, handle := 0x101 })] }

theorem wit_CameraAndModelCommands :
    (∃ (h : Hdr) (p : List Byte) (s : State), leAt p 0 1 ≤ 5 ∧ leAt p 2 2 % 4 = 0 ∧ 4 ≤ leAt p 2 2 ∧ portUp (portOf s (leAt p 0
      1)) = true ∧ leAt p 1 1 = 0 ∧ Request 517 (some 0) 16 h p s ∧ leAt p 2 2 ≤ 240 ∧ leAt p 10 2 = 0 ∧ (leAt p 8 2 ≠ 0 →
      rangeIn s (leAt p 8 2) (leAt p 12 4) (leAt p 2 2) = true)) ∧
    (∃ (h : Hdr) (p : List Byte) (s : State), leAt p 0 1 ≤ 5 ∧ leAt p 2 2 % 4 = 0 ∧ 4 ≤ leAt p 2 2 ∧ portUp (portOf s (leAt p 0
      1)) = true ∧ leAt p 1 1 = 0 ∧ Request 518 (some 0) (8 + leAt p 2 2) h p s ∧ leAt p 2 2 ≤ 236) ∧
    (∃ (h : Hdr) (p : List Byte) (s : State) (q : Option (List Byte)) (r : State) (st d : Nat) (res : List Byte), (q = none ∧ st
      = 64 ∧ d = 0 ∧ res = [] ∨ ∃ (raw : List Byte), q = some raw ∧ st ≠ 0 ∧ (loadImage raw r).status = st ∧ (loadImage raw
      r).detail = d ∧ (loadImage raw r).res = res) ∧ Request 768 (some 1) 12 h p s ∧ Quiet s ∧ leAt p 2 2 = 0 ∧ rangeIn s (leAt
      p 0 2) (leAt p 4 4) (leAt p 8 4) = true ∧ List.length s.models < 32 ∧ bufRead (leAt p 0 2) (leAt p 4 4) (leAt p 8 4) s =
      (r, q)) ∧
    (∃ (h : Hdr) (p : List Byte) (s r : State) (raw : List Byte) (d i : Nat), Request 768 (some 1) 12 h p s ∧ Quiet s ∧ leAt p 2
      2 = 0 ∧ rangeIn s (leAt p 0 2) (leAt p 4 4) (leAt p 8 4) = true ∧ List.length s.models < 32 ∧ bufRead (leAt p 0 2) (leAt p
      4 4) (leAt p 8 4) s = (r, some raw) ∧ loadRefusal raw (modelKey r (leAt raw 20 1)) (signedOnly r) = some (d, i)) ∧
    (∃ (h : Hdr) (p : List Byte) (s r : State) (raw : List Byte) (a : State) (k b : Nat), Request 768 (some 1) 12 h p s ∧ Quiet
      s ∧ leAt p 2 2 = 0 ∧ rangeIn s (leAt p 0 2) (leAt p 4 4) (leAt p 8 4) = true ∧ List.length s.models < 32 ∧ bufRead (leAt p
      0 2) (leAt p 4 4) (leAt p 8 4) s = (r, some raw) ∧ k < 32 ∧ loadImage raw r =
      { s := a, status := 0, detail := 0, res := [b8 k, 0] ++ leBytes 2 b }) ∧
    (∃ (h : Hdr) (p : List Byte) (s : State) (md : Model), leAt p 0 1 ≤ 31 ∧ modelOf s (leAt p 0 1) = some md ∧ modelBound s
      (leAt p 0 1) = false ∧ Request 769 (some 1) 4 h p s ∧ leAt p 1 3 = 0 ∧ modelLocked s (leAt p 0 1) = false) ∧
    (∃ (h : Hdr) (p : List Byte) (s : State) (md : Model), leAt p 0 1 ≤ 31 ∧ modelOf s (leAt p 0 1) = some md ∧ modelBound s
      (leAt p 0 1) = false ∧ Request 770 (some 1) 6 h p s ∧ leAt p 3 1 = 0 ∧ slotExternal md (leAt p 1 1) (leAt p 2 1) = true ∧
      leAt p 1 1 = 0 ∧ handleOk s (leAt p 4 2) = true) ∧
    (∃ (h : Hdr) (p : List Byte) (s : State) (md : Model), leAt p 0 1 ≤ 31 ∧ modelOf s (leAt p 0 1) = some md ∧ modelBound s
      (leAt p 0 1) = false ∧ Request 770 (some 1) 6 h p s ∧ leAt p 3 1 = 0 ∧ slotExternal md (leAt p 1 1) (leAt p 2 1) = true ∧
      leAt p 1 1 = 1 ∧ leAt p 4 2 ≤ 127) ∧
    (∃ (h : Hdr) (p : List Byte) (s : State), leAt p 0 1 ≤ 15 ∧ Request 771 (some 1) 16 h p s ∧ leAt p 1 7 = 0 ∧ leAt p 8 8 ≠ 0
      ∧ tabGet? s.coreSets (leAt p 0 1) = none ∧ (∀ (c : Nat), c ∈ coresOf (leAt p 8 8) → (physCore s c).isSome = true ∧ ∀ (o :
      Nat), o ∈ csOfCore s c → o = leAt p 0 1)) ∧
    (∃ (h : Hdr) (p : List Byte) (s : State), leAt p 0 1 ≤ 15 ∧ Request 772 (some 1) 4 h p s ∧ leAt p 1 3 = 0 ∧ (tabGet?
      s.coreSets (leAt p 0 1)).isSome = true ∧ groupsOfCs s (leAt p 0 1) = []) :=
  ⟨ ⟨tH, [5, 0, 240, 0, 1, 2, 3, 4, 0, 1, 0, 0] ++ leBytes 4 0x3F10, { tS with ports := [(5, { link := .up })] },
      by decide +kernel⟩,
    ⟨tH, [5, 0, 236, 0, 1, 2, 3, 4] ++ List.replicate 236 9, { tS with ports := [(5, { link := .degraded })] },
      by decide +kernel⟩,
    ⟨tH, [0, 1, 0, 0] ++ leBytes 4 0x3F80 ++ leBytes 4 0x80, tS, some (List.replicate 128 0), tZr, tLres.status, tLres.detail,
      tLres.res, (.inr ⟨List.replicate 128 0, by decide +kernel⟩), by decide +kernel⟩,
    ⟨tH, [0, 1, 0, 0] ++ leBytes 4 0x3F80 ++ leBytes 4 0x80, tS, tZr, List.replicate 128 0, 1, 0, by decide +kernel⟩,
    ⟨tH, [0, 1, 0, 0] ++ leBytes 4 0x3E80 ++ leBytes 4 0x180, tIm, tImr, tLoad, (loadImage tLoad tImr).s, 0, 0,
      by decide +kernel⟩,
    ⟨tH, [31, 0, 0, 0], tMs, tMod, by decide +kernel⟩,
    ⟨tH, [31, 0, 1, 0, 2, 1], tMs, tMod, by decide +kernel⟩,
    ⟨tH, [31, 1, 2, 0, 127, 0], tMs, tMod, by decide +kernel⟩,
    ⟨tH, [15, 0, 0, 0, 0, 0, 0, 0] ++ leBytes 8 (2 ^ 63), { tS with coreMap := [(63, 67)] }, by decide +kernel⟩,
    ⟨tH, [15, 0, 0, 0], { tS with coreSets := [(15, 2 ^ 63)] }, by decide +kernel⟩⟩

end CameraAndModelCommands

namespace GroupCommandsBindAndStop

def tGm : Model := { image := tLoad, semBase := 1, handles := [(1, 0x100)], rings := [(2, 3)], ownHandles := [0x100], ownRings := [127] }

def tGs : State :=
  { tS with models := [(31, tGm)], rings := [(127, { declared := true, handle := 0x101 })], coreSets := [(15, 2 ^ 63)], coreMap := [(63, 67)] }

def tGx : Group := { cs := 15, model := 31, journal := 2, jwords := 1024 }

def tGr (p : TaskPhase) : Group := { tGx with started := true, phase := p, task := some tTask }

def tGw (x : Group) : State := { tGs with sgroups := [(15, x)] }

def tGa := (allocate 132 5 journalOwner .fixed false tGs).get (by decide +kernel)

theorem wit_GroupCommandsBindAndStop :
    (∃ (h : Hdr) (p : List Byte) (s : State) (i : Nat) (md : Model) (a : State), leAt p 0 1 ≤ 15 ∧ Request 773 (some 1) 8 h p s
      ∧ leAt p 1 1 ≤ 15 ∧ leAt p 2 1 ≤ 31 ∧ 10 ≤ leAt p 3 1 ∧ leAt p 3 1 ≤ 16 ∧ leAt p 4 4 < 2 ^ 24 ∧ bindUneven s (leAt p 1 1)
      (leAt p 2 1) = false ∧ groupGet s (leAt p 0 1) = none ∧ (tabGet? s.coreSets (leAt p 1 1)).isSome = true ∧ modelOf s (leAt
      p 2 1) = some md ∧ bindMissing md = false ∧ (bindOthers s (leAt p 0 1) (leAt p 1 1)).any (bindOverlap md) = false ∧
      allocate (cdiv (8 * 2 ^ leAt p 3 1 + 16384) 4096) 5 journalOwner HandleClass.fixed false s = some (a, i)) ∧
    (∃ (h : Hdr) (p : List Byte) (s : State) (x : Group), leAt p 0 1 ≤ 15 ∧ Request 774 (some 1) 4 h p s ∧ leAt p 1 3 = 0 ∧
      groupGet s (leAt p 0 1) = some x ∧ x.started = false) ∧
    (∃ (h : Hdr) (p : List Byte) (s : State) (x : Group), leAt p 0 1 ≤ 15 ∧ Request 775 (some 1) 4 h p s ∧ leAt p 2 2 = 0 ∧
      groupGet s (leAt p 0 1) = some x ∧ x.started = true ∧ leAt p 1 1 ≤ 1 ∧ x.phase = TaskPhase.waiting) ∧
    (∃ (h : Hdr) (p : List Byte) (s : State) (x : Group), leAt p 0 1 ≤ 15 ∧ Request 775 (some 1) 4 h p s ∧ leAt p 2 2 = 0 ∧
      groupGet s (leAt p 0 1) = some x ∧ x.started = true ∧ leAt p 1 1 = 0 ∧ x.phase ≠ TaskPhase.waiting) ∧
    (∃ (h : Hdr) (p : List Byte) (s : State) (x : Group), leAt p 0 1 ≤ 15 ∧ Served (some 1) h p s ∧ h.flags.toNat ≤ 1 ∧ p.length
      = 4 ∧ leAt p 1 1 = 1 ∧ leAt p 2 2 = 0 ∧ groupGet s (leAt p 0 1) = some x ∧ x.started = true ∧ x.phase ≠ TaskPhase.waiting
      ∧ ((busyBut s 775 p fun (l : LongCmd) => l.opcode == 775 && leAt l.payload 1 1 == 0) = false)) ∧
    (∃ (h : Hdr) (p : List Byte) (s : State) (x : Group) (md : Model), leAt p 0 1 ≤ 15 ∧ Request 776 (some 1) 4 h p s ∧ leAt p 1
      1 ≤ 31 ∧ leAt p 2 2 = 0 ∧ groupGet s (leAt p 0 1) = some x ∧ bindUneven s x.cs (leAt p 1 1) = false ∧ modelOf s (leAt p 1
      1) = some md ∧ bindMissing md = false ∧ (bindOthers s (leAt p 0 1) x.cs).any (bindOverlap md) = false) ∧
    (∃ (h : Hdr) (p : List Byte) (s : State) (x : Group), leAt p 0 1 ≤ 15 ∧ Request 777 (some 1) 4 h p s ∧ leAt p 1 3 = 0 ∧
      groupGet s (leAt p 0 1) = some x ∧ x.started = false ∧ handleKept s x.journal = false) ∧
    (∃ (h : Hdr) (p : List Byte) (s : State) (x : Group), leAt p 0 1 ≤ 15 ∧ Request 778 (some 1) 4 h p s ∧ leAt p 1 3 = 0 ∧
      groupGet s (leAt p 0 1) = some x ∧ (x.phase = TaskPhase.running ∨ x.phase = TaskPhase.boundary)) ∧
    (∃ (h : Hdr) (p : List Byte) (s : State), leAt p 0 1 ≤ 15 ∧ Request 779 (some 1) 4 h p s ∧ leAt p 2 2 = 0 ∧ (tabGet?
      s.coreSets (leAt p 0 1)).isSome = true ∧ groupsOfCs s (leAt p 0 1) = []) :=
  ⟨ ⟨tH, [15, 15, 31, 16, 255, 255, 255, 0], tGs, tGa.2, tGm, tGa.1, by decide +kernel⟩,
    ⟨tH, [15, 0, 0, 0], tGw tGx, tGx, by decide +kernel⟩,
    ⟨tH, [15, 1, 0, 0], tGw { tGx with started := true }, { tGx with started := true }, by decide +kernel⟩,
    ⟨tH, [15, 0, 0, 0], tGw (tGr .running), tGr .running, by decide +kernel⟩,
    ⟨tH, [15, 1, 0, 0], tGw (tGr .running), tGr .running, by decide +kernel⟩,
    ⟨tH, [15, 31, 0, 0], tGw { tGr .running with model := 30 }, { tGr .running with model := 30 }, tGm, by decide +kernel⟩,
    ⟨tH, [15, 0, 0, 0], tGw tGx, tGx, by decide +kernel⟩,
    ⟨tH, [15, 0, 0, 0], tGw (tGr .boundary), tGr .boundary, by decide +kernel⟩,
    ⟨tH, [15, 255, 0, 0], tGs, by decide +kernel⟩⟩

end GroupCommandsBindAndStop

namespace HandleAndSemaphoreCommands

def tHa := (allocate 262000 15 0x1FFFFFFF (classOf 2) true tS).get (by decide +kernel)

theorem wit_HandleAndSemaphoreCommands :
    (∃ (h : Hdr) (p : List Byte) (s : State) (i : Nat) (a : State) (j : Nat), Request 1024 (some 2) 12 h p s ∧ 1 ≤ leAt p 0 4 ∧
      leAt p 0 4 ≤ 262144 ∧ leAt p 4 4 < 2 ^ 29 ∧ leAt p 8 1 ≤ 15 ∧ leAt p 9 1 ≤ 2 ∧ leAt p 10 1 ≤ 1 ∧ leAt p 11 1 = 0 ∧
      allocate (leAt p 0 4) (leAt p 8 1) (leAt p 4 4) (classOf (leAt p 9 1)) (leAt p 10 1 == 1) s = some (a, i) ∧ j ≠ i) ∧
    (∃ (h : Hdr) (p : List Byte) (s : State), handleOk s (leAt p 0 2) = true ∧ Request 1025 (some 2) 4 h p s ∧ leAt p 2 2 = 0 ∧
      (handleOf s (leAt p 0 2 % 256)).lock = none ∧ handleNamed s (leAt p 0 2 % 256) = false) ∧
    (∃ (h : Hdr) (p : List Byte) (s : State), handleOk s (leAt p 0 2) = true ∧ Request 1027 (some 2) 4 h p s ∧ leAt p 3 1 ≤ 28 ∧
      leAt p 2 1 = 0 ∧ ((handleOf s (leAt p 0 2 % 256)).lock = none ∨ (handleOf s (leAt p 0 2 % 256)).lock = some (leAt p 3 1)))
      ∧
    (∃ (h : Hdr) (p : List Byte) (s : State), handleOk s (leAt p 0 2) = true ∧ Request 1027 (some 2) 4 h p s ∧ leAt p 3 1 ≤ 28 ∧
      leAt p 2 1 = 1 ∧ (handleOf s (leAt p 0 2 % 256)).lock = some (leAt p 3 1)) ∧
    (∃ (h : Hdr) (p : List Byte) (s : State), handleOk s (leAt p 0 2) = true ∧ Request 1028 (some 2) 8 h p s ∧ leAt p 2 1 ≤ 15 ∧
      leAt p 3 1 = 0 ∧ leAt p 4 4 < 2 ^ 29 ∧ (handleOf s (leAt p 0 2 % 256)).lock = none ∧ relocating s (leAt p 0 2 % 256) =
      false) ∧
    (∃ (h : Hdr) (p : List Byte) (s : State), Request 1026 none 4 h p s ∧ leAt p 1 3 = 0) ∧
    (∃ (h : Hdr) (p : List Byte) (s : State), Request 1029 (some 2) 4 h p s ∧ leAt p 0 4 ≤ 262144) ∧
    (∃ (h : Hdr) (p : List Byte) (s : State), (∀ (i : Nat), leAt p 0 2 ≤ i → i < leAt p 0 2 + leAt p 2 2 → (semOf s i).queue =
      []) ∧ Request 1030 (some 2) 8 h p s ∧ 1 ≤ leAt p 2 2 ∧ leAt p 0 2 + leAt p 2 2 ≤ 4096 ∧ leAt p 6 1 ≤ 1 ∧ leAt p 7 1 = 0) ∧
    (∃ (h : Hdr) (p : List Byte) (s : State), Request 1031 none 4 h p s ∧ leAt p 0 2 ≤ 4095 ∧ leAt p 2 2 = 0) ∧
    (∃ (h : Hdr) (p : List Byte) (s : State), leAt p 0 2 ≤ 1023 ∧ Request 1032 (some 2) 12 h p s ∧ handleOk s (leAt p 2 2) =
      true ∧ 1 ≤ leAt p 4 4 ∧ (leAt p 8 2 ≤ 4095 ∨ leAt p 8 2 = 65535) ∧ 1 ≤ leAt p 10 1 ∧ leAt p 11 1 ≤ 1 ∧ tabGet? s.arrivals
      (leAt p 0 2) = none) ∧
    (∃ (h : Hdr) (p : List Byte) (s : State) (a : Arrival), leAt p 0 2 ≤ 1023 ∧ Request 1033 (some 2) 4 h p s ∧ leAt p 2 2 = 0 ∧
      tabGet? s.arrivals (leAt p 0 2) = some a) :=
  ⟨ ⟨tH, leBytes 4 262000 ++ leBytes 4 0x1FFFFFFF ++ [15, 2, 1, 0], tS, tHa.2, tHa.1, 2, by decide +kernel⟩,
    ⟨tH, [0, 255, 0, 0], { tS with handles := [(0, { valid := true, gen := 255, units := 4 })] }, by decide +kernel⟩,
    ⟨tH, [0, 1, 0, 0x1C], tS, by decide +kernel⟩,
    ⟨tH, [0, 1, 1, 0x1C], { tS with handles := [(0, { valid := true, units := 4, lock := some 0x1C })] }, by decide +kernel⟩,
    ⟨tH, [0, 1, 15, 0] ++ leBytes 4 0x1FFFFFFF, tS, by decide +kernel⟩,
    ⟨tH, [255, 0, 0, 0],
      { tS with handles := [(255, { valid := true, base := 0x3FFFF000, units := 1, gen := 255, lock := some 3 })] },
      by decide +kernel⟩,
    ⟨tH, leBytes 4 262144, tS, by decide +kernel⟩,
    ⟨tH, leBytes 2 4094 ++ leBytes 2 2 ++ leBytes 2 65535 ++ [1, 0], tS, (fun _ _ _ => rfl), by decide +kernel⟩,
    ⟨tH, leBytes 4 4095, { tS with sems := [(4095, { value := 65535, tracked := true, holds := [(3, 5)] })] },
      by decide +kernel⟩,
    ⟨tH, leBytes 2 1023 ++ leBytes 2 0x102 ++ leBytes 4 1 ++ leBytes 2 4095 ++ [255, 1], tS, by decide +kernel⟩,
    ⟨tH, leBytes 4 1023, { tS with arrivals := [(1023, ⟨2, 5, 7, some 4095, 1, true, false⟩)] }, ⟨2, 5, 7, some 4095, 1, true,
      false⟩, by decide +kernel⟩⟩

end HandleAndSemaphoreCommands

namespace RingAndRegulatorCommands

def tFr : State := { tS with fcBuffer := some 0, fcache := [(5, ⟨.keep, 0, 0, 15⟩)] }

def tFa : State := (fcRebuffer 0 (fcDropAll tFr)).get (by decide +kernel)

theorem wit_RingAndRegulatorCommands :
    (∃ (h : Hdr) (p : List Byte) (s : State), Request 1034 (some 2) 12 h p s ∧ leAt p 0 1 ≤ 127 ∧ 3 ≤ leAt p 1 1 ∧ leAt p 1 1 ≤
      64 ∧ leAt p 2 1 ≤ 7 ∧ leAt p 3 1 ≤ 7 ∧ 1 + leAt p 3 1 % 2 + leAt p 3 1 / 2 % 2 ≤ leAt p 2 1 ∧ 1 ≤ leAt p 6 2 ∧ leAt p 6 2
      ≤ 1024 ∧ leAt p 8 1 ≤ 28 ∧ leAt p 9 3 = 0 ∧ handleOk s (leAt p 4 2) = true ∧ (handleOf s (leAt p 4 2 % 256)).ring = true ∧
      leAt p 1 1 * leAt p 6 2 ≤ (handleOf s (leAt p 4 2 % 256)).units ∧ ringInUse s (leAt p 0 1) = false ∧ NoWaits s (leAt p 0
      1) ∧ (∀ (q : Nat), q ∈ ringOfHandle s (leAt p 4 2 % 256) → q = leAt p 0 1)) ∧
    (∃ (h : Hdr) (p : List Byte) (s : State), Request 1035 (some 2) 4 h p s ∧ leAt p 0 1 ≤ 127 ∧ leAt p 1 3 = 0 ∧ (ringOf s
      (leAt p 0 1)).declared = true ∧ ringInUse s (leAt p 0 1) = false ∧ ringNamed s (leAt p 0 1) = false) ∧
    (∃ (h : Hdr) (p : List Byte) (s : State), Request 1036 (some 2) 4 h p s ∧ Quiet s ∧ leAt p 0 1 ≤ 127 ∧ leAt p 1 3 = 0 ∧
      (ringOf s (leAt p 0 1)).declared = true ∧ NoWaits s (leAt p 0 1)) ∧
    (∃ (h : Hdr) (p : List Byte) (s a : State), Request 1037 (some 2) 4 h p s ∧ leAt p 0 1 ≤ 7 ∧ leAt p 1 1 = 0 ∧ s.xk.colls =
      [] ∧ s.xk.redWait = [] ∧ (∀ (i : Nat), i ∈ s.fcBuffer → handleKept s i = false) ∧ fcRebuffer (leAt p 0 1) (fcDropAll s) =
      some a) ∧
    (∃ (h : Hdr) (p : List Byte) (s : State), Request 1037 (some 2) 4 h p s ∧ leAt p 0 1 ≤ 7 ∧ leAt p 1 1 = 0 ∧ s.xk.colls = []
      ∧ s.xk.redWait = [] ∧ (∀ (i : Nat), i ∈ s.fcBuffer → handleKept s i = false) ∧ fcRebuffer (leAt p 0 1) (fcDropAll s) =
      none) ∧
    (∃ (h : Hdr) (p : List Byte) (s : State), Request 1038 (some 2) 8 h p s ∧ leAt p 0 1 ≤ 4 ∧ leAt p 1 1 ≤ 1 ∧ leAt p 2 2 ≤
      16383 ∧ leAt p 2 2 ≤ leAt p 4 2 ∧ leAt p 6 2 = 0) :=
  ⟨ ⟨tH, [127, 3, 3, 7, 1, 1, 1, 0, 0x1C, 0, 0, 0], tS, by decide +kernel⟩,
    ⟨tH, [127, 0, 0, 0], { tS with rings := [(127, { declared := true, handle := 0x101 })] }, by decide +kernel⟩,
    ⟨tH, [127, 0, 0, 0], { tS with
        rings := [(127, {
          declared := true, handle := 0x101, slots := 3, slotUnits := 1, head := 5, tail := 3, pub := 4, tab := [(0,
          { state := .full })] })] }, by decide +kernel⟩,
    ⟨tH, [0, 0, 255, 255], tFr, tFa, by decide +kernel⟩,
    ⟨tH, [7, 0, 255, 255], { tS with handles := [(0, { valid := true, units := 262144 })] }, by decide +kernel⟩,
    ⟨tH, [4, 1, 0xFF, 0x3F, 0xFF, 0xFF, 0, 0], tS, by decide +kernel⟩⟩

end RingAndRegulatorCommands

namespace LineTimeCommandsSetAndArm

def tEnt : List Byte := [2, 1, 0, 0] ++ leBytes 4 15 ++ leBytes 8 0 ++ leBytes 4 0 ++ leBytes 4 9 ++ leBytes 8 (2 ^ 64 - 1) ++ leBytes 4 1000 ++ List.replicate 12 0

def tFld : CalFields := (calDecode tEnt).get (by decide +kernel)

theorem wit_LineTimeCommandsSetAndArm :
    (∃ (h : Hdr) (p : List Byte) (s : State) (n id i v : Nat), 1 ≤ n ∧ n ≤ 20 ∧ Request 1280 (some 3) (12 * n) h p s ∧
      settingsTwice (settings p) = false ∧ (∀ (e : Nat × Nat × Nat), e ∈ settings p → ltIndexOk e.fst e.snd.fst = true ∧
      ltValueOk e.fst e.snd.snd = true ∧ ltAllowed s e.fst e.snd.fst = true) ∧ ltCross s (settings p) = false ∧ settings p =
      [(id, i, v)] ∧ id ≠ 17) ∧
    (∃ (h : Hdr) (p : List Byte) (s : State) (fs : List CalFields), Request 1281 (some 3) (8 + 48 * leAt p 2 1) h p s ∧ 1 ≤ leAt
      p 2 1 ∧ leAt p 2 1 ≤ 5 ∧ leAt p 0 2 + leAt p 2 1 ≤ 2048 ∧ leAt p 3 5 = 0 ∧ List.map calDecode (calEntries p) = List.map
      some fs) ∧
    (∃ (h : Hdr) (p : List Byte) (s : State), Request 1282 none 4 h p s ∧ leAt p 0 2 ≤ 2047 ∧ leAt p 2 2 = 0) ∧
    (∃ (h : Hdr) (p : List Byte) (s : State), Request 1283 (some 3) 4 h p s ∧ 1 ≤ leAt p 2 2 ∧ leAt p 0 2 + leAt p 2 2 ≤ 2048) ∧
    (∃ (h : Hdr) (p : List Byte) (s : State), Request 1284 (some 3) 8 h p s ∧ (sgn 64 (leAt p 0 8)).natAbs < 256 *
      s.lt.repeatLen ∧ (s.lt.behind = true ∨ lxNow s < ({ s.lt with
        repeatPhase := (((s.lt.repeatPhase : Int) + sgn 64 (leAt p 0 8)) % ((256 * s.lt.repeatLen : Nat) : Int)).toNat, boundary
        := ((s.lt.boundary : Int) + sgn 64 (leAt p 0 8)).toNat }).boundary)) ∧
    (∃ (h : Hdr) (p : List Byte) (s : State), Request 1284 (some 3) 8 h p s ∧ (sgn 64 (leAt p 0 8)).natAbs < 256 *
      s.lt.repeatLen ∧ s.lt.behind = false ∧ ({ s.lt with
        repeatPhase := (((s.lt.repeatPhase : Int) + sgn 64 (leAt p 0 8)) % ((256 * s.lt.repeatLen : Nat) : Int)).toNat, boundary
        := ((s.lt.boundary : Int) + sgn 64 (leAt p 0 8)).toNat }).boundary ≤ lxNow s) :=
  ⟨ ⟨tH, leBytes 2 9 ++ leBytes 2 3 ++ leBytes 8 40, tS, 1, 9, 3, 40, by decide +kernel⟩,
    ⟨tH, [0xFF, 7, 1, 0, 0, 0, 0, 0] ++ tEnt, tS, [tFld], by decide +kernel⟩,
    ⟨tH, [0xFF, 7, 0, 0], { tS with cal := [(2047, { raw := List.replicate 48 7 })] }, by decide +kernel⟩,
    ⟨tH, leBytes 2 2046 ++ leBytes 2 2, tS, by decide +kernel⟩,
    ⟨tH, leBytes 8 (2 ^ 64 - 1), tS, by decide +kernel⟩,
    ⟨tH, leBytes 8 (2 ^ 64 - 1), { tS with lt := { tS.lt with boundary := 2 ^ 40 + 1 } }, by decide +kernel⟩⟩

end LineTimeCommandsSetAndArm

namespace XanikCommandsStart

def tXm (x : Xk) : State := { tS with xk := { x with net := .member, node := 3, present := 0x8008 }, pwr := { doms := [(95, { on := true })] } }

def tXmod : Model := { image := tLoad, semBase := 1, handles := [], rings := [], ownHandles := [], ownRings := [], src := (0x100, 0, 0x3E80, 384) }

theorem wit_XanikCommandsStart :
    (∃ (h : Hdr) (p : List Byte) (s : State), Request 1536 (some 4) 12 h p s ∧ leAt p 0 1 ≤ 15 ∧ leAt p 1 1 ≤ 1 ∧ leAt p 2 1 ≤ 1
      ∧ leAt p 3 1 = 0 ∧ 1 ≤ leAt p 4 4 ∧ 200 ≤ leAt p 8 4 ∧ leAt p 8 4 ≤ 10000 ∧ xkJoined s = false) ∧
    (∃ (h : Hdr) (p : List Byte) (s : State), Request 1537 (some 4) 4 h p s ∧ 1 ≤ leAt p 0 2 ∧ leAt p 0 2 ≤ 60000 ∧ leAt p 2 2 =
      0 ∧ xkJoined s = false ∧ xkOn s = true) ∧
    (∃ (h : Hdr) (p : List Byte) (s : State), Request 1538 (some 4) 0 h p s ∧ xkJoined s = true) ∧
    (∃ (h : Hdr) (p : List Byte) (s : State), (leAt p 0 1 ≤ 15 ∨ leAt p 0 1 = 255) ∧ xkJoined s = true ∧ Request 1539 (some 4) 4
      h p s ∧ leAt p 1 3 = 0 ∧ (∀ (q : Sounding), q ∈ s.xk.soundings → q.wait ≠ [])) ∧
    (∃ (h : Hdr) (p : List Byte) (s : State), leAt p 0 1 ≤ 15 ∧ bitAt s.xk.present (leAt p 0 1) = true ∧ xkJoined s = true ∧
      Request 1542 (some 4) (16 + leAt p 12 2) h p s ∧ leAt p 1 7 = 0 ∧ (s.xk.relayIn = [] ∨ s.xk.relayBusy.isSome = true)) ∧
    (∃ (h : Hdr) (p : List Byte) (s : State), Request 1540 (some 4) 8 h p s ∧ leAt p 0 1 ≤ 1 ∧ leAt p 1 1 ≤ 63 ∧ leAt p 2 1 ≤ 1
      ∧ leAt p 3 1 ≤ 15 ∧ leAt p 6 2 ≤ 32767) ∧
    (∃ (h : Hdr) (p : List Byte) (s : State), Request 1541 none 4 h p s ∧ leAt p 0 1 ≤ 15 ∧ leAt p 1 3 = 0) ∧
    (∃ (h : Hdr) (p : List Byte) (s : State) (md : Model), Request 1543 (some 4) 4 h p s ∧ Quiet s ∧ leAt p 0 1 ≤ 31 ∧ leAt p 1
      1 = 0 ∧ xkJoined s = true ∧ modelOf s (leAt p 0 1) = some md ∧ (∀ (b : BcastTx), b ∈ s.xk.bcastTx → b.waiting ≠ [])) :=
  ⟨ ⟨tH, [15, 1, 1, 0] ++ leBytes 4 0xFFFFFFFF ++ leBytes 4 10000, tS, by decide +kernel⟩,
    ⟨tH, leBytes 4 60000, { tS with pwr := { doms := [(95, { on := true })] } }, by decide +kernel⟩,
    ⟨tH, [], tXm {}, by decide +kernel⟩,
    ⟨tH, [15, 0, 0, 0], tXm {}, by decide +kernel⟩,
    ⟨tH, [15, 0, 0, 0, 0, 0, 0, 0] ++ [0, 1, 9, 0, 2, 0, 0, 0, 7, 8], tXm {}, by decide +kernel⟩,
    ⟨tH, [1, 63, 1, 15, 0xFF, 0xFF, 0xFF, 0x7F], { tS with xk := { rx := .search } }, by decide +kernel⟩,
    ⟨tH, [15, 0, 0, 0], { tS with xk := { peers := [(15, { tx := 2 ^ 32 - 1, rx := 5, nDropped := 9 })] } }, by decide +kernel⟩,
    ⟨tH, [31, 0, 8, 0], { tXm {} with mem := tMem 0x3E80 tLoad, models := [(31, tXmod)] }, tXmod, by decide +kernel⟩⟩

end XanikCommandsStart

namespace RepairCommandsAct

def tCr (st : CoreState) : State := { tS with cores := [(67, { state := st })], coreMap := [(63, 67)] }

def tTk : State := { tT (tW0 0x20) (tW1 0 1 2 3) .vector tPc with ops := [], sgroups := [(15, tGroup)] }

theorem wit_RepairCommandsAct :
    (∃ (h : Hdr) (p : List Byte) (s : State), Request 1792 (some 5) 4 h p s ∧ 1 ≤ leAt p 0 1 ∧ leAt p 0 1 ≤ 168 ∧ leAt p 1 3 =
      0) ∧
    (∃ (h : Hdr) (p : List Byte) (s : State), leAt p 0 1 ≤ 67 ∧ (∀ (q : Nat), (q ∈ if leAt p 2 1 = 255 then none else some (leAt
      p 2 1)) → q ≤ 67) ∧ leAt p 3 1 ≤ 3 ∧ Posed (some 5) 4 h p s ∧ leAt p 1 1 = 0 ∧ coreState s (leAt p 0 1) =
      CoreState.pending) ∧
    (∃ (h : Hdr) (p : List Byte) (s : State), leAt p 0 1 ≤ 67 ∧ (∀ (q : Nat), (q ∈ if leAt p 2 1 = 255 then none else some (leAt
      p 2 1)) → q ≤ 67) ∧ leAt p 3 1 ≤ 3 ∧ (∀ (q : Nat), (q ∈ if leAt p 2 1 = 255 then none else some (leAt p 2 1)) → coreState
      s q = CoreState.idle ∨ coreState s q = CoreState.off) ∧ (bitAt (leAt p 3 1) 1 = true → storeBusy s = false) ∧ Posed (some
      5) 4 h p s ∧ leAt p 1 1 = 1 ∧ (coreState s (leAt p 0 1) = CoreState.mapped ∨ coreState s (leAt p 0 1) = CoreState.pending)
      ∧ ((busyBut s 1793 p fun (l : LongCmd) => l.opcode == 1793 && leAt l.payload 1 1 == 0) = false)) ∧
    (∃ (h : Hdr) (p : List Byte) (s : State) (c cs : Nat), leAt p 0 1 ≤ 67 ∧ (∀ (q : Nat), (q ∈ if leAt p 2 1 = 255 then none
      else some (leAt p 2 1)) → q ≤ 67) ∧ leAt p 3 1 ≤ 3 ∧ (∀ (q : Nat), (q ∈ if leAt p 2 1 = 255 then none else some (leAt p 2
      1)) → coreState s q = CoreState.idle ∨ coreState s q = CoreState.off) ∧ (bitAt (leAt p 3 1) 1 = true → storeBusy s =
      false) ∧ Request 1793 (some 5) 4 h p s ∧ coreState s (leAt p 0 1) = CoreState.mapped ∧ logicalOf s (leAt p 0 1) = some c ∧
      leAt p 1 1 = 0 ∧ csOfCore s c = some cs) ∧
    (∃ (h : Hdr) (p : List Byte) (s : State) (c : Nat), leAt p 0 1 ≤ 67 ∧ (∀ (q : Nat), (q ∈ if leAt p 2 1 = 255 then none else
      some (leAt p 2 1)) → q ≤ 67) ∧ leAt p 3 1 ≤ 3 ∧ (∀ (q : Nat), (q ∈ if leAt p 2 1 = 255 then none else some (leAt p 2 1)) →
      coreState s q = CoreState.idle ∨ coreState s q = CoreState.off) ∧ (bitAt (leAt p 3 1) 1 = true → storeBusy s = false) ∧
      Request 1793 (some 5) 4 h p s ∧ coreState s (leAt p 0 1) = CoreState.mapped ∧ logicalOf s (leAt p 0 1) = some c ∧ leAt p 1
      1 ≤ 1 ∧ csOfCore s c = none) ∧
    (∃ (h : Hdr) (p : List Byte) (s : State), leAt p 0 1 ≤ 67 ∧ (∀ (q : Nat), (q ∈ if leAt p 2 1 = 255 then none else some (leAt
      p 2 1)) → q ≤ 67) ∧ leAt p 3 1 ≤ 3 ∧ Request 1794 (some 5) 4 h p s ∧ leAt p 2 2 = 0 ∧ coreState s (leAt p 0 1) =
      CoreState.quarantined ∧ leAt p 1 1 = 0) ∧
    (∃ (h : Hdr) (p : List Byte) (s : State), leAt p 0 1 ≤ 67 ∧ (∀ (q : Nat), (q ∈ if leAt p 2 1 = 255 then none else some (leAt
      p 2 1)) → q ≤ 67) ∧ leAt p 3 1 ≤ 3 ∧ Request 1794 (some 5) 4 h p s ∧ leAt p 2 2 = 0 ∧ coreState s (leAt p 0 1) =
      CoreState.quarantined ∧ leAt p 1 1 = 1 ∧ (domOf s (leAt p 0 1)).on = false) ∧
    (∃ (h : Hdr) (p : List Byte) (s : State), leAt p 0 1 ≤ 67 ∧ (∀ (q : Nat), (q ∈ if leAt p 2 1 = 255 then none else some (leAt
      p 2 1)) → q ≤ 67) ∧ leAt p 3 1 ≤ 3 ∧ Request 1794 (some 5) 4 h p s ∧ leAt p 2 2 = 0 ∧ coreState s (leAt p 0 1) =
      CoreState.quarantined ∧ leAt p 1 1 = 1 ∧ (domOf s (leAt p 0 1)).on = true) ∧
    (∃ (h : Hdr) (p : List Byte) (s : State), Request 1795 (some 5) 4 h p s ∧ leAt p 0 1 ≤ 63 ∧ leAt p 1 1 ≤ 67 ∧ leAt p 2 2 = 0
      ∧ physCore s (leAt p 0 1) = none ∧ coreState s (leAt p 1 1) = CoreState.idle) ∧
    (∃ (h : Hdr) (p : List Byte) (s : State) (d : Nat), Request 1796 (some 5) 8 h p s ∧ leAt p 0 2 ≤ 255 ∧ (256 ≤ leAt p 2 2 ∧
      leAt p 2 2 ≤ 271 ∨ leAt p 2 2 = 65535) ∧ leAt p 4 1 ≤ 1 ∧ leAt p 5 3 = 0 ∧ s.limp = none ∧ s.copy = none ∧ (leAt p 4 1 = 1
      → storeBusy s = false) ∧ sparePick s (leAt p 2 2) = some d) ∧
    (∃ (h : Hdr) (p : List Byte) (s : State), Request 1797 (some 5) 4 h p s ∧ leAt p 0 2 ≤ 271 ∧ leAt p 2 2 = 0 ∧ bankServes s
      (leAt p 0 2) = false) ∧
    (∃ (h : Hdr) (p : List Byte) (s : State), Request 1798 (some 5) 0 h p s ∧ storeBusy s = false) ∧
    (∃ (h : Hdr) (p : List Byte) (s : State), Request 1799 (some 5) 0 h p s ∧ s.sup.held ≠ none) ∧
    (∃ (h : Hdr) (p : List Byte) (s : State), Request 1800 (some 5) 12 h p s ∧ leAt p 1 3 = 0 ∧ leAt p 4 8 % 8 = 0 ∧ leAt p 0 1
      < 2 ∧ leAt p 4 8 < localSize s) ∧
    (∃ (h : Hdr) (p : List Byte) (s : State), Request 1800 (some 5) 12 h p s ∧ leAt p 1 3 = 0 ∧ leAt p 4 8 % 8 = 0 ∧ (leAt p 0 1
      = 2 ∨ leAt p 0 1 = 3) ∧ 137438953472 ≤ leAt p 4 8 ∧ leAt p 4 8 < 137506062336 ∧ physCore s ((leAt p 4 8 - 137438953472) /
      1048576) = none) ∧
    (∃ (h : Hdr) (p : List Byte) (s : State) (k : Nat), Request 1800 (some 5) 12 h p s ∧ leAt p 1 3 = 0 ∧ leAt p 4 8 % 8 = 0 ∧
      (leAt p 0 1 = 2 ∨ leAt p 0 1 = 3) ∧ 137438953472 ≤ leAt p 4 8 ∧ leAt p 4 8 < 137506062336 ∧ physCore s ((leAt p 4 8 -
      137438953472) / 1048576) = some k) :=
  ⟨ ⟨tH, [168, 0, 0, 0], tS, by decide +kernel⟩,
    ⟨tH, [67, 0, 255, 3], tCr .pending, by decide +kernel⟩,
    ⟨tH, [67, 1, 255, 1], tTk, by decide +kernel⟩,
    ⟨tH, [67, 0, 255, 1], tTk, 63, 15, by decide +kernel⟩,
    ⟨tH, [67, 1, 255, 1], tCr .mapped, 63, by decide +kernel⟩,
    ⟨tH, [67, 0, 0, 0], { tCr .quarantined with coreSets := [(15, 2 ^ 63)] }, by decide +kernel⟩,
    ⟨tH, [67, 1, 0, 0], tCr .quarantined, by decide +kernel⟩,
    ⟨tH, [67, 1, 0, 0], { tCr .quarantined with pwr := { doms := [(67, { on := true })] } }, by decide +kernel⟩,
    ⟨tH, [63, 67, 0, 0], { tS with cores := [(67, { state := .idle })], coreMap := [] }, by decide +kernel⟩,
    ⟨tH, [255, 0, 15, 1, 0, 0, 0, 0], tS, 271, by decide +kernel⟩,
    ⟨tH, [15, 1, 0, 0], tS, by decide +kernel⟩,
    ⟨tH, [], tS, by decide +kernel⟩,
    ⟨tH, [], { tS with sup := { held := some 1 } }, by decide +kernel⟩,
    ⟨tH, [1, 0, 0, 0] ++ leBytes 8 0x3FFFFFF8, tS, by decide +kernel⟩,
    ⟨tH, [3, 0, 0, 0] ++ leBytes 8 0x2003FFFFF8, { tS with coreMap := [] }, by decide +kernel⟩,
    ⟨tH, [3, 0, 0, 0] ++ leBytes 8 0x2003FFFFF8, tCr .mapped, 67, by decide +kernel⟩⟩

end RepairCommandsAct

namespace PowerCommandsSwitchDomains

def tIdle (on : Bool) : State := { tS with cores := [(67, { state := .idle })], pwr := { doms := [(67, { on := on })] } }

theorem wit_PowerCommandsSwitchDomains :
    (∃ (h : Hdr) (p : List Byte) (s : State), Request 2048 (some 6) 8 h p s ∧ leAt p 0 4 < 2 ^ 17 ∧ leAt p 4 1 ≤ 2 ∧ leAt p 5 1
      ≤ 2 ∧ leAt p 6 2 = 0 ∧ (leAt p 0 4 ≠ 0 → s.limp = none) ∧ (leAt p 4 1 = 0 → ∀ (g : Nat), g < 17 → bitAt (leAt p 0 4) g =
      true → groupKept s g = false) ∧ (bitAt (leAt p 0 4) 16 = true → spareMapped s = false)) ∧
    (∃ (h : Hdr) (p : List Byte) (s : State), Request 2049 (some 6) 4 h p s ∧ leAt p 0 1 ≤ 67 ∧ leAt p 2 2 = 0 ∧ (leAt p 1 1 = 1
      ∧ (coreState s (leAt p 0 1) = CoreState.idle ∨ coreState s (leAt p 0 1) = CoreState.waking) ∨ leAt p 1 1 = 0 ∧ coreState s
      (leAt p 0 1) = CoreState.off)) ∧
    (∃ (h : Hdr) (p : List Byte) (s : State), Request 2049 (some 6) 4 h p s ∧ leAt p 0 1 ≤ 67 ∧ leAt p 2 2 = 0 ∧ leAt p 1 1 = 1
      ∧ coreState s (leAt p 0 1) = CoreState.off) ∧
    (∃ (h : Hdr) (p : List Byte) (s : State), Request 2049 (some 6) 4 h p s ∧ leAt p 0 1 ≤ 67 ∧ leAt p 2 2 = 0 ∧ leAt p 1 1 = 0
      ∧ (coreState s (leAt p 0 1) = CoreState.idle ∨ coreState s (leAt p 0 1) = CoreState.waking)) ∧
    (∃ (h : Hdr) (p : List Byte) (s : State), leAt p 1 1 ≤ 1 ∧ leAt p 2 2 = 0 ∧ leAt p 0 1 ≤ 5 ∧ Request 2050 (some 6) 4 h p s ∧
      (leAt p 1 1 = 0 → domOn s (85 + leAt p 0 1) = true → ∀ (j : Nat), j < 4 → streamTakes (streamOf s (4 * leAt p 0 1 + j)) =
      false)) ∧
    (∃ (h : Hdr) (p : List Byte) (s : State), leAt p 1 1 ≤ 1 ∧ leAt p 2 2 = 0 ∧ leAt p 0 1 ≤ 3 ∧ leAt p 1 1 = 0 ∧ Request 2051
      (some 6) 4 h p s ∧ trBootable s (2 * leAt p 0 1) = true ∧ trBootable s (2 * leAt p 0 1 + 1) = true) ∧
    (∃ (h : Hdr) (p : List Byte) (s : State), leAt p 1 1 ≤ 1 ∧ leAt p 2 2 = 0 ∧ leAt p 0 1 ≤ 3 ∧ leAt p 1 1 = 1 ∧ Request 2051
      (some 6) 4 h p s) ∧
    (∃ (h : Hdr) (p : List Byte) (s : State), Request 2052 (some 6) 4 h p s ∧ leAt p 0 1 ≤ 1 ∧ leAt p 1 3 = 0 ∧ xkJoined s =
      false) ∧
    (∃ (h : Hdr) (p : List Byte) (s : State), Request 2053 (some 6) 4 h p s ∧ leAt p 0 1 ≤ 5 ∧ leAt p 1 1 ≤ 15 ∧ leAt p 2 1 ≤ 15
      ∧ leAt p 3 1 = 0) ∧
    (∃ (h : Hdr) (p : List Byte) (s : State), sgn 8 (leAt p 1 1) ≤ gradeMax ∧ Request 2054 (some 6) 4 h p s ∧ leAt p 2 2 = 0 ∧
      sgn 8 (leAt p 0 1) ≤ sgn 8 (leAt p 1 1)) ∧
    (∃ (h : Hdr) (p : List Byte) (s : State), Request 2055 none 0 h p s) :=
  ⟨ ⟨tH, leBytes 4 0x1FFFF ++ [1, 1, 0, 0], tS, by decide +kernel⟩,
    ⟨tH, [67, 1, 0, 0], tIdle true, by decide +kernel⟩,
    ⟨tH, [67, 1, 0, 0], tS, by decide +kernel⟩,
    ⟨tH, [67, 0, 0, 0], tIdle true, by decide +kernel⟩,
    ⟨tH, [5, 0, 0, 0], { tS with ports := [(5, { en := true, link := .up })], pwr := { doms := [(90, { on := true })] } },
      by decide +kernel⟩,
    ⟨tH, [3, 0, 0, 0], { tS with
        pwr := { doms := [(94, { on := true })] }, harts := [(6, { state := .stopped, pc := 4 }), (7,
        { state := .halted, pc := 4 })] }, by decide +kernel⟩,
    ⟨tH, [3, 1, 0, 0], tS, by decide +kernel⟩,
    ⟨tH, [0, 0, 0, 0], { tS with pwr := { doms := [(95, { on := true })] }, xk := { rx := .search } }, by decide +kernel⟩,
    ⟨tH, [5, 9, 12, 0], { tS with ports := [(5, { pwrEn := 3 })] }, by decide +kernel⟩,
    ⟨tH, [0x80, 95, 0, 0], tS, (by unfold gradeMax; split <;> decide), by decide +kernel⟩,
    ⟨tH, [], tS, by decide +kernel⟩⟩

end PowerCommandsSwitchDomains

namespace FirmwareAndTrestleCommands

def tStg : State := { tS with sup := { cfgStaged := [(0x600, [1])] } }

def tBp : List Byte := [2, 1, 0xC0, 0] ++ List.replicate 15 7 ++ [255]

def tBr (s : State) :=
  supRead (handleOf s (leAt tBp 0 2 % 256)).base (4096 * (handleOf s (leAt tBp 0 2 % 256)).units)
    (l2Flush (handleOf s (leAt tBp 0 2 % 256)).base (4096 * (handleOf s (leAt tBp 0 2 % 256)).units) s)

def tTrh (a b : TrState) : State := { tS with harts := [(6, { state := a, pc := 4 }), (7, { state := b, pc := 8 })] }

theorem wit_FirmwareAndTrestleCommands_1 :
    ∃ (h : Hdr) (p : List Byte) (s : State) (v : List Byte), (leAt p 2 1 = 0 ∧ v = (tabGet? s.sup.cfg (leAt p 0 1 * 256 + leAt p
      1 1)).getD (cfgDefault (leAt p 0 1) (leAt p 1 1)) ∨ leAt p 2 1 = 1 ∧ v = (tabGet? s.sup.cfgStaged (leAt p 0 1 * 256 + leAt
      p 1 1)).getD []) ∧ cfgNamed (leAt p 0 1) (leAt p 1 1) = true ∧ leAt p 3 1 = 0 ∧ Request 2304 none 4 h p s :=
  ⟨tH, [5, 3, 0, 0], tS, cfgDefault 5 3, (.inl (by decide +kernel)), by decide +kernel⟩

theorem wit_FirmwareAndTrestleCommands_2 :
    ∃ (h : Hdr) (p : List Byte) (s : State) (k : Nat), cfgNamed (leAt p 0 1) (leAt p 1 1) = true ∧ leAt p 3 1 = 0 ∧ Request 2305
      (some 7) (4 + leAt p 2 1) h p s ∧ cfgItem (leAt p 0 1) = some (leAt p 2 1, k) ∧ cfgValueOk (leAt p 0 1) (List.drop 4 p) =
      true :=
  ⟨tH, [5, 3, 32, 0] ++ List.replicate 32 9, tS, 4, by decide +kernel⟩

theorem wit_FirmwareAndTrestleCommands_3 :
    ∃ (h : Hdr) (p : List Byte) (s : State), Request 2306 (some 7) 0 h p s ∧ s.sup.cfgStaged ≠ [] ∧ storeBusy s = false :=
  ⟨tH, [], tStg, by decide +kernel⟩

theorem wit_FirmwareAndTrestleCommands_4 :
    ∃ (h : Hdr) (p : List Byte) (s : State), Request 2307 (some 7) 0 h p s :=
  ⟨tH, [], tStg, by decide +kernel⟩

theorem wit_FirmwareAndTrestleCommands_5 :
    ∃ (h : Hdr) (p : List Byte) (s : State), Request 2308 (some 7) 12 h p s ∧ leAt p 2 2 = 0 ∧ rangeIn s (leAt p 0 2) (leAt p 4
      4) (leAt p 8 4) = true :=
  ⟨tH, [0, 1, 0, 0] ++ leBytes 4 0x3000 ++ leBytes 4 0x1000, tS, by decide +kernel⟩

theorem wit_FirmwareAndTrestleCommands_6 :
    ∃ (h : Hdr) (p : List Byte) (s : State), Request 2309 (some 7) 0 h p s ∧ s.sup.staged ≠ none ∧ bitAt (BitVec.toNat (regGet s
      32)) 3 = true :=
  ⟨tH, [], { tS with regs := [(0x20, 9), (0x1108, 0xFFFF), (0x110C, 0xFF)], sup := { staged := some (1, 5) } },
    by decide +kernel⟩

theorem wit_FirmwareAndTrestleCommands_7 :
    ∃ (h : Hdr) (p : List Byte) (s : State) (code : Nat) (r : State) (d : List Byte), supRead (handleOf s (leAt p 0 2 %
      256)).base (4096 * (handleOf s (leAt p 0 2 % 256)).units) (l2Flush (handleOf s (leAt p 0 2 % 256)).base (4096 * (handleOf
      s (leAt p 0 2 % 256)).units) s) = (r, code, d) ∧ Request 2560 (some 1) 20 h p s ∧ Quiet s ∧ leAt p 3 1 = 0 ∧ handleOk s
      (leAt p 0 2) = true ∧ (∀ (b : Byte), b ∈ List.take 16 (List.drop 4 p) → BitVec.toNat b ≤ 7 ∨ b = 255) ∧ (∀ (i : Nat), i ∈
      trCores (leAt p 2 1) → trBootable s i = true) ∧ (∀ (e : Nat × LongCmd), e ∈ s.sup.longs → e.snd.opcode ≠ 2560) ∧ (code ≠ 0
      ∨ trImageOk d (modelKey s (leAt d 24 1)) (signedOnly s) = false) :=
  ⟨tH, tBp, tBoot [] true, 0, (tBr (tBoot [] true)).1, (tBr (tBoot [] true)).2.2, (triple_get (tBr (tBoot [] true))
    (by decide +kernel)), by decide +kernel⟩

theorem wit_FirmwareAndTrestleCommands_8 :
    ∃ (h : Hdr) (p : List Byte) (s r : State) (d : List Byte), supRead (handleOf s (leAt p 0 2 % 256)).base (4096 * (handleOf s
      (leAt p 0 2 % 256)).units) (l2Flush (handleOf s (leAt p 0 2 % 256)).base (4096 * (handleOf s (leAt p 0 2 % 256)).units) s)
      = (r, 0, d) ∧ Request 2560 (some 1) 20 h p s ∧ Quiet s ∧ leAt p 3 1 = 0 ∧ handleOk s (leAt p 0 2) = true ∧ (∀ (b : Byte),
      b ∈ List.take 16 (List.drop 4 p) → BitVec.toNat b ≤ 7 ∨ b = 255) ∧ (∀ (i : Nat), i ∈ trCores (leAt p 2 1) → trBootable s i
      = true) ∧ (∀ (e : Nat × LongCmd), e ∈ s.sup.longs → e.snd.opcode ≠ 2560) ∧ trImageOk d (modelKey s (leAt d 24 1))
      (signedOnly s) = true ∧ (∃ (i : Nat), i ∈ trCores (leAt p 2 1) ∧ (domOf s (91 + i / 2)).on = false) :=
  ⟨tH, tBp, tBoot tTr false, (tBr (tBoot tTr false)).1, (tBr (tBoot tTr false)).2.2, (triple_get (tBr (tBoot tTr false))
    (by decide +kernel)), by decide +kernel⟩

theorem wit_FirmwareAndTrestleCommands_9 :
    ∃ (h : Hdr) (p : List Byte) (s r : State) (d : List Byte), supRead (handleOf s (leAt p 0 2 % 256)).base (4096 * (handleOf s
      (leAt p 0 2 % 256)).units) (l2Flush (handleOf s (leAt p 0 2 % 256)).base (4096 * (handleOf s (leAt p 0 2 % 256)).units) s)
      = (r, 0, d) ∧ Request 2560 (some 1) 20 h p s ∧ Quiet s ∧ leAt p 3 1 = 0 ∧ handleOk s (leAt p 0 2) = true ∧ (∀ (b : Byte),
      b ∈ List.take 16 (List.drop 4 p) → BitVec.toNat b ≤ 7 ∨ b = 255) ∧ (∀ (i : Nat), i ∈ trCores (leAt p 2 1) → trBootable s i
      = true) ∧ (∀ (e : Nat × LongCmd), e ∈ s.sup.longs → e.snd.opcode ≠ 2560) ∧ trImageOk d (modelKey s (leAt d 24 1))
      (signedOnly s) = true ∧ (∀ (i : Nat), i ∈ trCores (leAt p 2 1) → domOn s (91 + i / 2) = true) :=
  ⟨tH, tBp, tBoot tTr true, (tBr (tBoot tTr true)).1, (tBr (tBoot tTr true)).2.2, (triple_get (tBr (tBoot tTr true))
    (by decide +kernel)), by decide +kernel⟩

theorem wit_FirmwareAndTrestleCommands_10 :
    ∃ (h : Hdr) (p : List Byte) (s : State), leAt p 2 2 = 0 ∧ (∀ (i : Nat), i ∈ trCores (leAt p 0 1) → trRuns s i = true) ∧
      Request 2561 (some 1) 8 h p s ∧ leAt p 1 1 = 0 ∧ leAt p 0 1 = 0 :=
  ⟨tH, [0, 0, 0, 0, 0xE8, 3, 0, 0], tS, by decide +kernel⟩

theorem wit_FirmwareAndTrestleCommands_11 :
    ∃ (h : Hdr) (p : List Byte) (s : State), leAt p 2 2 = 0 ∧ (∀ (i : Nat), i ∈ trCores (leAt p 0 1) → trRuns s i = true) ∧
      Request 2561 (some 1) 8 h p s ∧ leAt p 1 1 = 0 ∧ leAt p 0 1 ≠ 0 :=
  ⟨tH, [0xC0, 0, 0, 0, 0xE8, 3, 0, 0], tTrh .running .running, by decide +kernel⟩

theorem wit_FirmwareAndTrestleCommands_12 :
    ∃ (h : Hdr) (p : List Byte) (s : State), leAt p 2 2 = 0 ∧ (∀ (i : Nat), i ∈ trCores (leAt p 0 1) → trRuns s i = true) ∧
      Posed (some 1) 8 h p s ∧ ((busyBut s 2561 p fun (l : LongCmd) => haltMeets (leAt p 0 1) l) = false) ∧ leAt p 1 1 = 1 ∧
      leAt p 4 4 = 0 ∧ Quiet s ∧ s.rings = [] ∧ s.sems = [] :=
  ⟨tH, [0xC0, 1, 0, 0, 0, 0, 0, 0], tTrh .running .haltRequested, by decide +kernel⟩

theorem wit_FirmwareAndTrestleCommands_13 :
    ∃ (h : Hdr) (p : List Byte) (s : State), Request 2562 (some 1) 4 h p s ∧ leAt p 0 1 ≤ 15 ∧ (leAt p 1 1 ≤ 7 ∨ leAt p 1 1 =
      255) ∧ leAt p 2 2 = 0 :=
  ⟨tH, [15, 7, 0, 0], tS, by decide +kernel⟩

end FirmwareAndTrestleCommands

namespace PowerMonitorsAndDomainsFollow

def tDo (d : Nat) (on : Bool) : State := { tS with pwr := { doms := [(d, { trans := some (on, 1000) })] } }

def tVid (r : Nat) : State := { tR [(0x8000, 3), (0x8014, w32 r)] with pwr := { lastThrottle := 5, tj := 1100, lastVid := 900 } }

def tOff : State := { tDo 83 false with groups := [(0, .on), (15, .toOff)], mem := [(64, 9), (64 * 240, 7), (64 * 255 + 7, 8)] }

def tHot (w : Option Nat) : State := { tS with pwr := { hotSince := w, started := true }, mem := [(1, 1)] }

theorem wit_PowerMonitorsAndDomainsFollow :
    (∃ (t : Nat) (s : State) (d : Fin 96), Calm (timeTo t s) ∧ (domOf (timeTo t s) ↑d).trans = none) ∧
    (∃ (t : Nat) (s : State) (d : Fin 96) (on : Bool) (since : Nat), Calm (timeTo t s) ∧ (domOf (timeTo t s) ↑d).trans = some
      (on, since) ∧ ((timeTo t s).ts < since + if ↑d < 68 ∨ 85 ≤ ↑d then domTime (↑d) on else groupTime (groupOf (timeTo t s)
      (↑d - 68)))) ∧
    (∃ (t : Nat) (s : State) (d : Fin 96) (since : Nat), Calm (timeTo t s) ∧ (domOf (timeTo t s) ↑d).trans = some (false, since)
      ∧ ((since + if ↑d < 68 ∨ 85 ≤ ↑d then domTime (↑d) false else groupTime (groupOf (timeTo t s) (↑d - 68))) ≤ (timeTo t
      s).ts) ∧ (↑d < 68 ∨ 85 ≤ ↑d)) ∧
    (∃ (t : Nat) (s : State) (d : Fin 96) (since : Nat), Calm (timeTo t s) ∧ (domOf (timeTo t s) ↑d).trans = some (true, since)
      ∧ ((since + if ↑d < 68 ∨ 85 ≤ ↑d then domTime (↑d) true else groupTime (groupOf (timeTo t s) (↑d - 68))) ≤ (timeTo t
      s).ts) ∧ ↑d < 68) ∧
    (∃ (t : Nat) (s : State) (d : Fin 96) (since : Nat), Calm (timeTo t s) ∧ (domOf (timeTo t s) ↑d).trans = some (true, since)
      ∧ ((since + if ↑d < 68 ∨ 85 ≤ ↑d then domTime (↑d) true else groupTime (groupOf (timeTo t s) (↑d - 68))) ≤ (timeTo t
      s).ts) ∧ 85 ≤ ↑d) ∧
    (∃ (t : Nat) (s : State) (d : Fin 96) (on : Bool) (since g : Nat), Calm (timeTo t s) ∧ (domOf (timeTo t s) ↑d).trans = some
      (on, since) ∧ ↑d = 68 + g ∧ g < 17 ∧ ((since + if ↑d < 68 ∨ 85 ≤ ↑d then domTime (↑d) on else groupTime (groupOf (timeTo t
      s) (↑d - 68))) ≤ (timeTo t s).ts)) ∧
    (∃ (t : Nat) (s : State), (timeTo t s).pwr.linkUp = false) ∧
    (∃ (t : Nat) (s : State), (timeTo t s).pwr.linkUp = true ∧ Quiet (timeTo t s) ∧ (timeTo t s).rings = [] ∧ (timeTo t s).sems
      = []) ∧
    (∃ (t : Nat) (s : State), inReset (timeTo t s) = true ∧ (timeTo t s).pwr.tripHold = false) ∧
    (∃ (t : Nat) (s : State), inReset (timeTo t s) = false ∧ t < (timeTo t s).pwr.lastThrottle + 10000000) ∧
    (∃ (t : Nat) (s : State), inReset (timeTo t s) = false ∧ (timeTo t s).pwr.lastThrottle + 10000000 ≤ t) ∧
    (∃ (t : Nat) (s : State), inReset (timeTo t s) = false ∧ t < (timeTo t s).pwr.lastVid + 100000) ∧
    (∃ (t : Nat) (s : State), inReset (timeTo t s) = false ∧ (timeTo t s).pwr.lastVid + 100000 ≤ t ∧ regBits (timeTo t s) 32788
      0 5 < 20) ∧
    (∃ (t : Nat) (s : State), inReset (timeTo t s) = false ∧ (timeTo t s).pwr.lastVid + 100000 ≤ t ∧ 0 < regBits (timeTo t s)
      32788 0 5) ∧
    (∃ (t : Nat) (s : State), inReset (timeTo t s) = false ∧ (timeTo t s).pwr.lastVid + 100000 ≤ t ∧ 20 ≤ regBits (timeTo t s)
      32788 0 5) ∧
    (∃ (t : Nat) (s : State), inReset (timeTo t s) = false ∧ (timeTo t s).pwr.lastVid + 100000 ≤ t ∧ regBits (timeTo t s) 32788
      0 5 = 0) ∧
    (∃ (t : Nat) (s : State) (rail : Fin 8), inReset (timeTo t s) = false ∧ bitAt (BitVec.toNat (regGet (timeTo t s) 32796))
      ↑rail = true) ∧
    (∃ (t : Nat) (s : State) (rail : Fin 8), inReset (timeTo t s) = false ∧ bitAt (BitVec.toNat (regGet (timeTo t s) 32796))
      ↑rail = false) ∧
    (∃ (t : Nat) (s : State), (timeTo t s).pwr.tripHold = true) ∧
    (∃ (t : Nat) (s : State) (x : Int) (l : List Int), inReset (timeTo t s) = false ∧ List.foldl max x l < 1250) ∧
    (∃ (t : Nat) (s : State) (x : Int) (l : List Int), inReset (timeTo t s) = false ∧ 1250 ≤ List.foldl max x l ∧ (timeTo t
      s).pwr.hotSince = none) ∧
    (∃ (t : Nat) (s : State) (x : Int) (l : List Int) (w : Nat), inReset (timeTo t s) = false ∧ 1250 ≤ List.foldl max x l ∧
      (timeTo t s).pwr.hotSince = some w ∧ t < w + 100000) ∧
    (∃ (t : Nat) (s : State) (x : Int) (l : List Int) (w : Nat), inReset (timeTo t s) = false ∧ 1250 ≤ List.foldl max x l ∧
      (timeTo t s).pwr.hotSince = some w ∧ w + 100000 ≤ t) ∧
    (∃ (rail : Fin 8), (rail = 2 ∨ rail = 6)) ∧
    (∃ (rail : Fin 8), rail ≠ 5 ∧ rail ≠ 2 ∧ rail ≠ 6) :=
  ⟨ ⟨2000, tS, 95, by decide +kernel⟩,
    ⟨999 + domTime 67 true, tDo 67 true, 67, true, 1000, by decide +kernel⟩,
    ⟨1000 + domTime 67 false, tDo 67 false, 67, 1000, by decide +kernel⟩,
    ⟨1000 + domTime 67 true,
      { tDo 67 true with cores := [(67, { state := .waking })], near := [(66 * 2 ^ 20 + 5, 1), (67 * 2 ^ 20 + 5, 1)] }, 67,
      1000, by decide +kernel⟩,
    ⟨1000 + domTime 95 true, tDo 95 true, 95, 1000, by decide +kernel⟩,
    ⟨1000 + groupTime .toOff, tOff, 83, false, 1000, 15, by decide +kernel⟩,
    ⟨2000, tS, by decide +kernel⟩,
    ⟨2000, { tS with
        pwr := { linkUp := true, busMaster := true, maxPayload := 512 }, msix := [(255, 1)], pba := 5, funcMask := true },
      by decide +kernel⟩,
    ⟨2000, { tS with pwr := { por := true } }, by decide +kernel⟩,
    ⟨10000004, tVid 3, by decide +kernel⟩,
    ⟨10000005, tVid 3, by decide +kernel⟩,
    ⟨100899, tVid 3, by decide +kernel⟩,
    ⟨100900, tVid 19, by decide +kernel⟩,
    ⟨100900, tVid 1, by decide +kernel⟩,
    ⟨100900, tVid 20, by decide +kernel⟩,
    ⟨100900, tVid 0, by decide +kernel⟩,
    ⟨2000, tR [(0x801C, 0x80)], 7, by decide +kernel⟩,
    ⟨2000, tR [(0x801C, 0x7F)], 7, by decide +kernel⟩,
    ⟨2000, { tS with pwr := { tripHold := true } }, by decide +kernel⟩,
    ⟨2000, tHot (some 1500), 1249, [1249, -400], by decide +kernel⟩,
    ⟨2000, tS, 1250, [1249, -400], by decide +kernel⟩,
    ⟨101499, tHot (some 1500), 1250, [1249, -400], 1500, by decide +kernel⟩,
    ⟨101500, tHot (some 1500), 1250, [1249, -400], 1500, by decide +kernel⟩,
    ⟨6, by decide +kernel⟩,
    ⟨7, by decide +kernel⟩⟩

end PowerMonitorsAndDomainsFollow

namespace ResetPinsAndBootRun

def tSt4 (w : Option BootTests) : State := { State.reset with regs := [(0x20, 0x400)], pwr := { started := true, bootWait := w } }

theorem wit_ResetPinsAndBootRun :
    (∃ (s : State) (level : Bool), (level = false ∨ s.pwr.por = true)) ∧
    (∃ (s : State), s.pwr.por = false) ∧
    (∃ (t : Nat) (s : State), (timeTo t s).pwr.linkUp = false) ∧
    (∃ (t : Nat) (s : State), (timeTo t s).pwr.linkUp = true ∧ Quiet (timeTo t s) ∧ (timeTo t s).rings = [] ∧ (timeTo t s).sems
      = []) ∧
    (∃ (t : Nat) (s : State), (inReset (timeTo t s) = true ∨ (timeTo t s).pwr.started = true)) ∧
    (∃ (t : Nat) (s : State) (x : BootTests), inReset (timeTo t s) = false ∧ (timeTo t s).pwr.started = false ∧ ((x.supAFailed
      || leAt (tabGet [] (match cfgChoose (timeTo t s) with | some (_, _, i) => i | none => []) 1536) 0 1 == 1) = true) ∧
      x.supBFailed = true) ∧
    (∃ (t : Nat) (s : State) (x : BootTests), inReset (timeTo t s) = false ∧ (timeTo t s).pwr.started = false ∧ ((x.supAFailed
      || leAt (tabGet [] (match cfgChoose (timeTo t s) with | some (_, _, i) => i | none => []) 1536) 0 1 == 1) = false ∨
      x.supBFailed = false) ∧ fwChoose (timeTo t s) = none) ∧
    (∃ (t : Nat) (s : State), (inReset (timeTo t s) = true ∨ (timeTo t s).pwr.perst = true ∨ regBits (timeTo t s) 32 8 4 < 4)) ∧
    (∃ (t : Nat) (s : State), inReset (timeTo t s) = false ∧ (timeTo t s).pwr.perst = false ∧ 4 ≤ regBits (timeTo t s) 32 8 4 ∧
      (timeTo t s).pwr.bootWait = none) ∧
    (∃ (t : Nat) (s : State) (a b : Bool), inReset (timeTo t s) = false ∧ (timeTo t s).pwr.perst = false ∧ 4 ≤ regBits (timeTo t
      s) 32 8 4 ∧ (timeTo t s).pwr.bootWait = some { supAFailed := a, supBFailed := b, banks := [], cores := [], ports := [] } ∧
      tabGet? (timeTo t s).sup.cfg 32768 = none ∧ tabGet? (timeTo t s).sup.cfg 33024 = none ∧ (timeTo t s).handles = []) ∧
    (∃ (t : Nat) (s : State), regBits (timeTo t s) 32804 28 4 = 0) ∧
    (∃ (t : Nat) (s : State), regBits (timeTo t s) 32804 28 4 ≠ 0) :=
  ⟨ ⟨tS, false, by decide +kernel⟩,
    ⟨tS, by decide +kernel⟩,
    ⟨2000, tS, by decide +kernel⟩,
    ⟨2000, { tS with pwr := { linkUp := true, busMaster := true } }, by decide +kernel⟩,
    ⟨2000, { tS with pwr := { started := true } }, by decide +kernel⟩,
    ⟨2000, tS, ⟨true, true, [], [], []⟩, by decide +kernel⟩,
    ⟨2000, tS, ⟨true, false, [67], [271], [5]⟩, by decide +kernel⟩,
    ⟨2000, tR [(0x20, 0x300)], by decide +kernel⟩,
    ⟨2000, tSt4 none, by decide +kernel⟩,
    ⟨2000, tSt4 (some ⟨false, true, [], [], []⟩), false, true, by decide +kernel⟩,
    ⟨2000, tS, by decide +kernel⟩,
    ⟨2000, tR [(0x8024, 0xF0000000)], by decide +kernel⟩⟩

end ResetPinsAndBootRun

namespace TestPortCommandsScan

def tDbg (d : Bool) (r : Tab Word) : State :=
  { tS with jtag := { dmi := r }, pwr := { doms := [(94, { on := true })] }, harts := [(7, { state := .running, dbg := d })] }

theorem wit_TestPortCommandsScan :
    (∃ (s : State), s.pwr.trst = true) ∧
    (∃ (s : State) (i : Fin 32), s.pwr.trst = false ∧ (5 ≤ ↑i ∧ ↑i ≤ 15 ∨ 18 ≤ ↑i)) ∧
    (∃ (s : State) (i : Fin 32), s.pwr.trst = false ∧ (↑i ≤ 4 ∨ ↑i = 16 ∨ ↑i = 17)) ∧
    (∃ (s : State), s.pwr.trst = false ∧ s.jtag.dmiErr ≠ 0) ∧
    (∃ (s : State) (o : Fin 4), s.pwr.trst = false ∧ s.jtag.dmiErr = 0 ∧ (o = 0 ∨ o = 3)) ∧
    (∃ (s : State) (a : BitVec 7) (o : Fin 4), s.pwr.trst = false ∧ s.jtag.dmiErr = 0 ∧ (o = 1 ∨ o = 2) ∧ dmUnpowered s a.toNat
      = true) ∧
    (∃ (s : State) (a : BitVec 7), s.pwr.trst = false ∧ s.jtag.dmiErr = 0 ∧ dmUnpowered s a.toNat = false ∧ (a = 4 ∨ a = 5) ∧
      bitAt (dmGet s 16) 0 = true) ∧
    (∃ (s : State) (d : Word), s.pwr.trst = false ∧ s.jtag.dmiErr = 0 ∧ bitAt (BitVec.toNat d) 0 = false) ∧
    (∃ (s : State) (d : Word), s.pwr.trst = false ∧ s.jtag.dmiErr = 0 ∧ bitAt (BitVec.toNat d) 0 = true ∧ fieldOf d 16 10 < 8 ∧
      trRuns s (fieldOf d 16 10) = true ∧ bitAt (BitVec.toNat d) 31 = true ∧ (hartOf s (fieldOf d 16 10)).dbg = false) ∧
    (∃ (s : State) (d : Word), s.pwr.trst = false ∧ s.jtag.dmiErr = 0 ∧ bitAt (BitVec.toNat d) 0 = true ∧ fieldOf d 16 10 < 8 ∧
      trRuns s (fieldOf d 16 10) = true ∧ bitAt (BitVec.toNat d) 31 = false ∧ bitAt (BitVec.toNat d) 30 = true ∧ (hartOf s
      (fieldOf d 16 10)).dbg = true) ∧
    (∃ (s : State) (i : Nat), s.pwr.trst = false ∧ s.jtag.dmiErr = 0 ∧ dmHart s < 8 ∧ domOn s (91 + dmHart s / 2) = true ∧
      trRuns s (dmHart s) = true ∧ (hartOf s (dmHart s)).dbg = true ∧ bitAt (dmGet s 16) 0 = true ∧ dmGet s 22 = 0 ∧ i < 32 ∧ i
      ≠ 0) :=
  ⟨ ⟨{ tS with pwr := { trst := true } }, by decide +kernel⟩,
    ⟨tS, 15, by decide +kernel⟩,
    ⟨tS, 17, by decide +kernel⟩,
    ⟨{ tS with jtag := { dmiErr := 2 } }, by decide +kernel⟩,
    ⟨tS, 3, by decide +kernel⟩,
    ⟨tS, 0x7F, 1, by decide +kernel⟩,
    ⟨tDbg true [(0x10, 0x70001)], 5, by decide +kernel⟩,
    ⟨tS, 0x80000000, by decide +kernel⟩,
    ⟨tDbg false [], 0x80070001, by decide +kernel⟩,
    ⟨tDbg true [], 0x40070001, by decide +kernel⟩,
    ⟨tDbg true [(0x10, 0x70001)], 31, by decide +kernel⟩⟩

end TestPortCommandsScan

namespace XanikReceiverAndTransmitterRun

def tHx : XkHeader :=
  { src := 15, bcast := false, dst := 3, mapUsed := false, mapVer := 0, sound := false, length := 4, nsym := 1, cp := false, kind := 4, retry := false, seq := 4095, cycle := 0, eligible := false }

def tRc (h : XkHeader) : State := tX { rx := .receive, stamp := some 5, hdr := some h, rxEnd := 9000 }

def tTxq (x : Xk) (l : Nat) : State := tX { x with txQueue := [⟨2000, l, { dest := 15, kind := 4, seq := 0, body := [1, 2] }⟩] }

def tQ (l : Nat) : XkTx := ⟨2000, l, { dest := 15, kind := 4, seq := 0, body := [1, 2] }⟩

def tDet : State := { tX { rx := .search } with regs := [(0x20, 1), (0x9014, 0x8000)] }

def tAcq : State := tX { rx := .acquire, acqAt := 1000, pktCfg := 0x2904 }

theorem wit_XanikReceiverAndTransmitterRun :
    (∃ (t : Nat) (s : State) (y : List (BitVec 12)), (timeTo t s).xk.rx = XkRx.search ∧ xkOn (timeTo t s) = true ∧ (BitVec.ofNat
      16 (regBits (timeTo t s) 36884 0 16)).toInt < (rssiOf (timeTo t s).xk.gain (adcValues y)).toInt) ∧
    (∃ (t : Nat) (s : State) (y : List (BitVec 12)), ((timeTo t s).xk.rx ≠ XkRx.search ∨ xkOn (timeTo t s) = false ∨ (rssiOf
      (timeTo t s).xk.gain (adcValues y)).toInt ≤ (BitVec.ofNat 16 (regBits (timeTo t s) 36884 0 16)).toInt)) ∧
    (∃ (t : Nat) (s : State) (y : List (BitVec 12)), ((timeTo t s).xk.rx ≠ XkRx.acquire ∨ (timeTo t s).xk.qualAt ≠ none ∨
      acquired (timeTo t s) y = none)) ∧
    (∃ (t : Nat) (s : State) (y : List (BitVec 12)) (d g : Nat), acquired (timeTo t s) y = some (d, g) ∧ t < (timeTo t
      s).xk.acqAt + d) ∧
    (∃ (t : Nat) (s : State) (y : List (BitVec 12)) (d g : Nat), acquired (timeTo t s) y = some (d, g) ∧ (timeTo t s).xk.rx =
      XkRx.acquire ∧ (timeTo t s).xk.qualAt = none ∧ (timeTo t s).xk.acqAt + d ≤ t) ∧
    (∃ (t : Nat) (s : State), (timeTo t s).xk.rx = XkRx.acquire ∧ (timeTo t s).xk.qualAt = none ∧ (timeTo t s).xk.acqAt + 6144 ≤
      t) ∧
    (∃ (t : Nat) (s : State), ((timeTo t s).xk.rx ≠ XkRx.acquire ∨ (timeTo t s).xk.qualAt ≠ none ∨ t < (timeTo t s).xk.acqAt +
      6144)) ∧
    (∃ (t : Nat) (s : State), ((timeTo t s).xk.rx ≠ XkRx.acquire ∨ (timeTo t s).xk.qualAt = none ∨ (timeTo t s).xk.stamp ≠
      none)) ∧
    (∃ (t : Nat) (s : State) (q : Nat), (timeTo t s).xk.rx = XkRx.acquire ∧ (timeTo t s).xk.qualAt = some q ∧ (timeTo t
      s).xk.stamp = none) ∧
    (∃ (t : Nat) (s : State), ((timeTo t s).xk.rx ≠ XkRx.acquire ∨ (timeTo t s).xk.stamp = none)) ∧
    (∃ (t : Nat) (s : State) (st : Nat), (timeTo t s).xk.rx = XkRx.acquire ∧ (timeTo t s).xk.stamp = some st) ∧
    (∃ (t : Nat) (s : State), ((timeTo t s).xk.rx ≠ XkRx.receive ∨ (timeTo t s).xk.hdr = none ∨ (timeTo t s).xk.stamp = none)) ∧
    (∃ (t : Nat) (s : State) (h : XkHeader) (st : Nat), (timeTo t s).xk.rx = XkRx.receive ∧ (timeTo t s).xk.hdr = some h ∧
      (timeTo t s).xk.stamp = some st ∧ h.sound = false ∧ h.length = 0) ∧
    (∃ (t : Nat) (s : State) (h : XkHeader) (st : Nat), (timeTo t s).xk.rx = XkRx.receive ∧ (timeTo t s).xk.hdr = some h ∧
      (timeTo t s).xk.stamp = some st ∧ h.sound = true) ∧
    (∃ (t : Nat) (s : State) (h : XkHeader) (st : Nat), (timeTo t s).xk.rx = XkRx.receive ∧ (timeTo t s).xk.hdr = some h ∧
      (timeTo t s).xk.stamp = some st ∧ h.sound = false ∧ h.length ≠ 0) ∧
    (∃ (t : Nat) (s : State), ((timeTo t s).xk.rx = XkRx.receive ∨ (timeTo t s).xk.rx = XkRx.busy) ∧ (timeTo t s).xk.rxEnd ≤ t)
      ∧
    (∃ (t : Nat) (s : State), ((timeTo t s).xk.rx ≠ XkRx.receive ∧ (timeTo t s).xk.rx ≠ XkRx.busy ∨ t < (timeTo t s).xk.rxEnd))
      ∧
    (∃ (t : Nat) (s : State), ((timeTo t s).xk.rx = XkRx.receive ∨ (timeTo t s).xk.rx = XkRx.busy ∨ (timeTo t s).xk.rx =
      XkRx.acquire ∧ (timeTo t s).xk.qualAt ≠ none)) ∧
    (∃ (t : Nat) (s : State), (¬((timeTo t s).xk.rx = XkRx.receive ∨ (timeTo t s).xk.rx = XkRx.busy ∨ (timeTo t s).xk.rx =
      XkRx.acquire ∧ (timeTo t s).xk.qualAt ≠ none))) ∧
    (∃ (t : Nat) (s : State), (timeTo t s).xk.rx = XkRx.transmit ∧ (timeTo t s).xk.txEnd ≤ t) ∧
    (∃ (t : Nat) (s : State), ((timeTo t s).xk.rx ≠ XkRx.transmit ∨ t < (timeTo t s).xk.txEnd)) ∧
    (∃ (t : Nat) (s : State), ((timeTo t s).xk.txQueue = [] ∨ xkOn (timeTo t s) = false)) ∧
    (∃ (t : Nat) (s : State) (q : XkTx) (rest : List XkTx), (timeTo t s).xk.txQueue = q :: rest ∧ t < q.start) ∧
    (∃ (t : Nat) (s : State) (q : XkTx) (rest : List XkTx) (e : Nat), (timeTo t s).xk.txQueue = q :: rest ∧ xkOn (timeTo t s) =
      true ∧ q.start ≤ t ∧ (timeTo t s).xk.lastEnd = some e ∧ t < e + rampNs (timeTo t s) + 2000 ∧ e + rampNs (timeTo t s) +
      2000 + frameAir (timeTo t s) q.frame + gapNs (timeTo t s) ≤ q.limit) ∧
    (∃ (t : Nat) (s : State) (q : XkTx) (rest : List XkTx) (e : Nat), (timeTo t s).xk.txQueue = q :: rest ∧ xkOn (timeTo t s) =
      true ∧ q.start ≤ t ∧ (timeTo t s).xk.lastEnd = some e ∧ t < e + rampNs (timeTo t s) + 2000 ∧ (¬e + rampNs (timeTo t s) +
      2000 + frameAir (timeTo t s) q.frame + gapNs (timeTo t s) ≤ q.limit)) ∧
    (∃ (t : Nat) (s : State) (q : XkTx) (rest : List XkTx), (∀ (e : Nat), (timeTo t s).xk.lastEnd = some e → e + rampNs (timeTo
      t s) + 2000 ≤ t) ∧ (timeTo t s).xk.txQueue = q :: rest ∧ xkOn (timeTo t s) = true ∧ q.start ≤ t ∧ ((timeTo t s).xk.rx =
      XkRx.receive ∨ (timeTo t s).xk.rx = XkRx.busy)) ∧
    (∃ (t : Nat) (s : State) (q : XkTx) (rest : List XkTx), (∀ (e : Nat), (timeTo t s).xk.lastEnd = some e → e + rampNs (timeTo
      t s) + 2000 ≤ t) ∧ (timeTo t s).xk.txQueue = q :: rest ∧ xkOn (timeTo t s) = true ∧ q.start ≤ t ∧ (timeTo t s).xk.rx ≠
      XkRx.receive ∧ (timeTo t s).xk.rx ≠ XkRx.busy ∧ (¬t + frameAir (timeTo t s) q.frame + gapNs (timeTo t s) ≤ q.limit)) ∧
    (∃ (t : Nat) (s : State) (q : XkTx) (rest : List XkTx), (∀ (e : Nat), (timeTo t s).xk.lastEnd = some e → e + rampNs (timeTo
      t s) + 2000 ≤ t) ∧ (timeTo t s).xk.txQueue = q :: rest ∧ xkOn (timeTo t s) = true ∧ q.start ≤ t ∧ (timeTo t s).xk.rx ≠
      XkRx.receive ∧ (timeTo t s).xk.rx ≠ XkRx.busy ∧ t + frameAir (timeTo t s) q.frame + gapNs (timeTo t s) ≤ q.limit) :=
  ⟨ ⟨2000, tDet, List.replicate 256 1000, by decide +kernel⟩,
    ⟨2000, tDet, List.replicate 256 0, by decide +kernel⟩,
    ⟨7000, tAcq, [], by decide +kernel⟩,
    ⟨2535, tAcq, List.replicate 512 1, 1536, 20, by decide +kernel⟩,
    ⟨2536, tAcq, List.replicate 512 1, 1536, 20, by decide +kernel⟩,
    ⟨7144, tAcq, by decide +kernel⟩,
    ⟨7143, tAcq, by decide +kernel⟩,
    ⟨30000, tX { rx := .search }, by decide +kernel⟩,
    ⟨30000, tX { rx := .acquire, acqAt := 1000, qualAt := some 2000 }, 2000, by decide +kernel⟩,
    ⟨30000, tX { rx := .acquire, acqAt := 1000, qualAt := some 2000 }, by decide +kernel⟩,
    ⟨30000, tX { rx := .acquire, acqAt := 1000, qualAt := some 2000, stamp := some 5 }, 5, by decide +kernel⟩,
    ⟨2000, tX { rx := .search }, by decide +kernel⟩,
    ⟨2000, tRc { tHx with length := 0 }, { tHx with length := 0 }, 5, by decide +kernel⟩,
    ⟨2000, tRc { tHx with sound := true }, { tHx with sound := true }, 5, by decide +kernel⟩,
    ⟨2000, tRc tHx, tHx, 5, by decide +kernel⟩,
    ⟨9000, tRc tHx, by decide +kernel⟩,
    ⟨8999, tRc tHx, by decide +kernel⟩,
    ⟨2000, tX { rx := .acquire, qualAt := some 1 }, by decide +kernel⟩,
    ⟨2000, tX { rx := .acquire }, by decide +kernel⟩,
    ⟨2000, tX { rx := .transmit, txEnd := 2000 }, by decide +kernel⟩,
    ⟨2000, tX { rx := .transmit, txEnd := 2001 }, by decide +kernel⟩,
    ⟨2000, tX { rx := .search }, by decide +kernel⟩,
    ⟨1999, tTxq { rx := .search } 10000000, tQ 10000000, [], by decide +kernel⟩,
    ⟨2000, tTxq { rx := .search, lastEnd := some 1000 } 10000000, tQ 10000000, [], 1000, by decide +kernel⟩,
    ⟨2000, tTxq { rx := .search, lastEnd := some 1000 } 3000, tQ 3000, [], 1000, by decide +kernel⟩,
    ⟨2000, tTxq { rx := .busy, rxEnd := 9000 } 10000000, tQ 10000000, [], (none_all (by decide +kernel)), by decide +kernel⟩,
    ⟨2000, tTxq { rx := .search } 3000, tQ 3000, [], (none_all (by decide +kernel)), by decide +kernel⟩,
    ⟨2000, tTxq { rx := .search } 10000000, tQ 10000000, [], (none_all (by decide +kernel)), by decide +kernel⟩⟩

end XanikReceiverAndTransmitterRun

namespace XanikSegmentFormsAndRuns

def tOn (x : Xk) : State := { tS with xk := x, pwr := { doms := [(95, { on := true })] } }

def tMa (x : Xk) : State := tOn { x with net := .master, node := 15, master := 15, present := 0x8000 }

def tFw1 (s : State) : State := { s with lt := { s.lt with press := .forward } }

def tJo (c : Nat) : State := tOn { net := .joining, node := 3, master := 15, present := 0x8000, lastC := some 1000, slotUs := 45, cycle := 5, joinCycle := some c }

def tJl : LongCmd := { mb := 0, seq := 0, opcode := 0x0601, obj := 0, payload := [], deadline := some 2000 }

theorem wit_XanikSegmentFormsAndRuns :
    (∃ (t : Nat) (s : State), ((timeTo t s).xk.net ≠ XkNet.master ∨ xkOn (timeTo t s) = false)) ∧
    (∃ (t : Nat) (s : State), (timeTo t s).xk.net = XkNet.master ∧ xkOn (timeTo t s) = true ∧ ((timeTo t s).lt.press ==
      Press.forward && !(timeTo t s).lt.behind) = false ∧
      (t < match (timeTo t s).xk.lastC with | some c => max (c + (timeTo t s).xk.stopPeriod * 1000) (match (timeTo t s).xk.lastC with | some c => schedEnd (timeTo t s) c | none => 0) | none => 0))
      ∧
    (∃ (t : Nat) (s : State), (timeTo t s).xk.net = XkNet.master ∧ xkOn (timeTo t s) = true ∧ ((timeTo t s).lt.press ==
      Press.forward && !(timeTo t s).lt.behind) = true ∧ lxNow (timeTo t s) < (timeTo t s).xk.anchor * (timeTo t
      s).xk.cycleLines * 256) ∧
    (∃ (t : Nat) (s : State), (timeTo t s).xk.net = XkNet.master ∧ xkOn (timeTo t s) = true ∧ ((timeTo t s).lt.press ==
      Press.forward && !(timeTo t s).lt.behind) = true ∧ (timeTo t s).xk.anchor * (timeTo t s).xk.cycleLines * 256 ≤ lxNow
      (timeTo t s) ∧ (t < match (timeTo t s).xk.lastC with | some c => schedEnd (timeTo t s) c | none => 0)) ∧
    (∃ (t : Nat) (s : State), (timeTo t s).xk.net = XkNet.master ∧ xkOn (timeTo t s) = true ∧ (if ((timeTo t s).lt.press ==
      Press.forward && !(timeTo t s).lt.behind) = true then (timeTo t s).xk.anchor * (timeTo t s).xk.cycleLines * 256 ≤ lxNow
      (timeTo t s) ∧ (match (timeTo t s).xk.lastC with | some c => schedEnd (timeTo t s) c | none => 0) ≤ t else
      (match (timeTo t s).xk.lastC with | some c => max (c + (timeTo t s).xk.stopPeriod * 1000) (match (timeTo t s).xk.lastC with | some c => schedEnd (timeTo t s) c | none => 0) | none => 0)
      ≤ t) ∧ (timeTo t s).xk.node < 16 ∧ (timeTo t s).xk.leaving = false ∧ (timeTo t s).xk.present = 2 ^ (timeTo t s).xk.node ∧
      (timeTo t s).xk.far = [] ∧ (∀ (a : Nat × Bool), a ∈ (timeTo t s).xk.admits → a.fst < 16 ∧ a.fst ≠ (timeTo t s).xk.node ∧
      a.snd = false)) ∧
    (∃ (t : Nat) (s : State) (src : Fin 16), (xkOn (timeTo t s) = false ∨ (timeTo t s).xk.net = XkNet.detached ∨ ↑src = (timeTo
      t s).xk.node ∨ (timeTo t s).xk.net = XkNet.master ∧ (timeTo t s).xk.node < ↑src)) ∧
    (∃ (t : Nat) (s : State) (src : Fin 16), xkOn (timeTo t s) = true ∧ ↑src ≠ (timeTo t s).xk.node ∧ (timeTo t s).xk.far = [] ∧
      (timeTo t s).xk.colls = [] ∧ (timeTo t s).xk.leaving = false ∧ (timeTo t s).xk.net ≠ XkNet.detached ∧ ((timeTo t s).xk.net
      = XkNet.master → ↑src < (timeTo t s).xk.node)) ∧
    (∃ (s : State) (src : Fin 16), s.xk.net = XkNet.master ∧ xkOn s = true ∧ bitAt s.xk.present ↑src = false ∧ (∀ (a : Nat ×
      Bool), a ∈ s.xk.admits → a.fst ≠ ↑src)) ∧
    (∃ (s : State) (src : Fin 16), (s.xk.net ≠ XkNet.master ∨ xkOn s = false ∨ bitAt s.xk.present ↑src = true ∨ ∃ (a : Nat ×
      Bool), a ∈ s.xk.admits ∧ a.fst = ↑src)) ∧
    (∃ (s : State) (src : Fin 16), xkReaches s ↑src = true) ∧
    (∃ (s : State) (src : Fin 16), xkReaches s ↑src = false) ∧
    (∃ (t : Nat) (s : State), (slotWindow (timeTo t s) = none ∨ xkJoined (timeTo t s) = false ∨ xkOn (timeTo t s) = false ∨
      (timeTo t s).xk.slotCycle = some (timeTo t s).xk.cycle)) ∧
    (∃ (t : Nat) (s : State) (a e : Nat), slotWindow (timeTo t s) = some (a, e) ∧ (t < a ∨ e ≤ t)) ∧
    (∃ (t : Nat) (s : State) (a e : Nat), slotWindow (timeTo t s) = some (a, e) ∧ xkJoined (timeTo t s) = true ∧ xkOn (timeTo t
      s) = true ∧ (timeTo t s).xk.slotCycle ≠ some (timeTo t s).xk.cycle ∧ a ≤ t ∧ t < e ∧ (timeTo t s).xk.rounds = [] ∧ t +
      (frameAir (timeTo t s) { dest := 16, kind := 1, seq := 0, body := statusBody (timeTo t s) } + gapNs (timeTo t s)) ≤ e) ∧
    (∃ (t : Nat) (s : State) (c : Nat), (timeTo t s).xk.lastC = some c ∧ (timeTo t s).xk.net = XkNet.joining ∧ xkOn (timeTo t s)
      = true ∧ (timeTo t s).xk.joinCycle = some (timeTo t s).xk.cycle ∧ c + 35000 + xkCount (timeTo t s) * (timeTo t
      s).xk.slotUs * 1000 ≤ t ∧ t + (frameAir (timeTo t s) { dest := (timeTo t s).xk.master, kind := 2, seq := 0, body := [] } +
      gapNs (timeTo t s)) ≤ c + 35000 + xkCount (timeTo t s) * (timeTo t s).xk.slotUs * 1000 + 30000) ∧
    (∃ (t : Nat) (s : State) (c : Nat), (timeTo t s).xk.lastC = some c ∧ ((timeTo t s).xk.net ≠ XkNet.joining ∨ xkOn (timeTo t
      s) = false ∨ (timeTo t s).xk.joinCycle ≠ some (timeTo t s).xk.cycle ∨ t < c + 35000 + xkCount (timeTo t s) * (timeTo t
      s).xk.slotUs * 1000 ∨ c + 35000 + xkCount (timeTo t s) * (timeTo t s).xk.slotUs * 1000 + 30000 < t + (frameAir (timeTo t
      s) { dest := (timeTo t s).xk.master, kind := 2, seq := 0, body := [] } + gapNs (timeTo t s)))) ∧
    (∃ (t : Nat) (s : State), (timeTo t s).xk.lastC = none) ∧
    (∃ (t : Nat) (s : State), ((timeTo t s).xk.net ≠ XkNet.listen ∨ (timeTo t s).xk.eligible = false ∨ t < (timeTo t
      s).xk.listenEnd)) ∧
    (∃ (t : Nat) (s : State), (timeTo t s).xk.net = XkNet.listen ∧ (timeTo t s).xk.eligible = true ∧ (timeTo t s).xk.listenEnd ≤
      t ∧ (timeTo t s).xk.node < 16) ∧
    (∃ (t : Nat) (s : State), ((¬∃ (e : Nat × LongCmd), e ∈ (timeTo t s).sup.longs ∧ e.snd.opcode = 1537 ∧ e.snd.done = none ∧ ∃
      (d : Nat), e.snd.deadline = some d ∧ d ≤ t) ∨ (timeTo t s).xk.net ≠ XkNet.listen ∧ (timeTo t s).xk.net ≠ XkNet.joining)) ∧
    (∃ (t : Nat) (s : State), (∃ (e : Nat × LongCmd), e ∈ (timeTo t s).sup.longs ∧ e.snd.opcode = 1537 ∧ e.snd.done = none ∧ ∃
      (d : Nat), e.snd.deadline = some d ∧ d ≤ t) ∧ ((timeTo t s).xk.net = XkNet.listen ∨ (timeTo t s).xk.net = XkNet.joining) ∧
      (timeTo t s).xk.far = [] ∧ (timeTo t s).xk.colls = []) ∧
    (∃ (t : Nat) (s : State) (c : Nat), (timeTo t s).xk.lastC = some c ∧ ((timeTo t s).xk.net ≠ XkNet.member ∨ t < c + max (3 *
      (timeTo t s).xk.interval) 3000000 ∨ ¬(timeTo t s).xk.node ∈ List.filter (fun (n : Nat) => !bitAt (timeTo t s).xk.leavers
      n) ((nodesOf (timeTo t s).xk.present).erase (timeTo t s).xk.master) ∨ (timeTo t s).xk.eligible = false ∧ bitAt (timeTo t
      s).xk.eligibles (timeTo t s).xk.node = false ∨ ∃ (n : Nat), n ∈ List.filter (fun (n : Nat) => !bitAt (timeTo t
      s).xk.leavers n) ((nodesOf (timeTo t s).xk.present).erase (timeTo t s).xk.master) ∧ n < (timeTo t s).xk.node ∧ bitAt
      (timeTo t s).xk.eligibles n = true)) ∧
    (∃ (t : Nat) (s : State) (c : Nat), (timeTo t s).xk.lastC = some c ∧ (timeTo t s).xk.net = XkNet.member ∧ c + max (3 *
      (timeTo t s).xk.interval) 3000000 ≤ t ∧ (timeTo t s).xk.node ∈ List.filter (fun (n : Nat) => !bitAt (timeTo t
      s).xk.leavers n) ((nodesOf (timeTo t s).xk.present).erase (timeTo t s).xk.master) ∧ (timeTo t s).xk.eligible = true ∧ (∀
      (n : Nat), n ∈ List.filter (fun (n : Nat) => !bitAt (timeTo t s).xk.leavers n) ((nodesOf (timeTo t s).xk.present).erase
      (timeTo t s).xk.master) → n < (timeTo t s).xk.node → bitAt (timeTo t s).xk.eligibles n = false) ∧ (timeTo t s).xk.master ≠
      (timeTo t s).xk.node ∧ (timeTo t s).xk.far = []) :=
  ⟨ ⟨2000, tX { net := .member }, by decide +kernel⟩,
    ⟨2000, tMa { lastC := some 1000, stopPeriod := 10000 }, by decide +kernel⟩,
    ⟨2000, tFw1 (tMa { anchor := 2 ^ 32 + 1 }), by decide +kernel⟩,
    ⟨2000, tFw1 (tMa { lastC := some 1000 }), by decide +kernel⟩,
    ⟨2000, tMa { admits := [(14, false)] }, by decide +kernel⟩,
    ⟨2000, tX { net := .member }, 3, by decide +kernel⟩,
    ⟨2000, tOn { net := .listen, node := 3 }, 15, by decide +kernel⟩,
    ⟨tX { net := .master, admits := [(1, true)] }, 14, by decide +kernel⟩,
    ⟨tX { net := .master, admits := [(14, true)] }, 14, by decide +kernel⟩,
    ⟨tX { net := .member }, 15, by decide +kernel⟩,
    ⟨tX { net := .member }, 14, by decide +kernel⟩,
    ⟨2000, tX { net := .member }, by decide +kernel⟩,
    ⟨35999, tX { net := .member, lastC := some 1000, slotUs := 1000 }, 36000, 1036000, by decide +kernel⟩,
    ⟨36000, tX { net := .member, lastC := some 1000, slotUs := 1000 }, 36000, 1036000, by decide +kernel⟩,
    ⟨81000, tJo 5, 1000, by decide +kernel⟩,
    ⟨80999, tJo 5, 1000, by decide +kernel⟩,
    ⟨2000, tX { net := .member }, by decide +kernel⟩,
    ⟨2000, tX { net := .listen, listenEnd := 2001, eligible := true }, by decide +kernel⟩,
    ⟨2000, tX { net := .listen, listenEnd := 2000, eligible := true }, by decide +kernel⟩,
    ⟨2000, tX { net := .member }, .inr (by decide +kernel)⟩,
    ⟨2000, { tOn { net := .listen, node := 3 } with sup := { longs := [(9, tJl)] } }, ⟨(9, tJl), by decide +kernel,
      by decide +kernel, by decide +kernel, 2000, by decide +kernel⟩, by decide +kernel⟩,
    ⟨3000999, tX { net := .member, lastC := some 1000 }, 1000, by decide +kernel⟩,
    ⟨3001000, tX { net := .member, lastC := some 1000, eligible := true }, 1000, by decide +kernel⟩⟩

end XanikSegmentFormsAndRuns

namespace XanikFramesAreHeldAndDelivered

def tMe (x : Xk) : State :=
  { tX { x with net := .member, peers := [(15, { rxNext := 4095, rxValid := true })], cycle := 20 } with sup := { longs := [(3, { mb := 0, seq := 0, opcode := 0x0600, obj := 0, payload := [] })] } }

def tLc : LongCmd := { mb := 0, seq := 0, opcode := 0x0600, obj := 0, payload := [] }

def tUn (v : Word) : State := { tMe {} with regs := [(0x20, 1), (0x430, v)] }

def tRd16 : List Byte := [0, 63, 0, 1, 0, 0x3F, 0, 0, 0, 0, 0, 0, 0, 0, 0, 0]

def tWr : List Byte := [1, 63, 64, 0, 0xC0, 0x3F, 0, 0, 0, 0, 0, 0, 0, 0, 0, 0] ++ List.replicate 64 5

def tFw2 (i : Nat) (w : Bool) : FarWait :=
  { tag := 0x18, detail := 0, node := 15, offset := 0x3FFFFFC0, write := w, size := 64, data := [], hint := .normal, fill := false, id := some i }

def tBt (c : Nat) : BcastTx := ⟨3, 7, [1, 2], 64, [], 1, [15], 2, 4, [], c⟩

def tCo (d : List Nat) : CollLocal :=
  { key := 0x0101010101010101 * 256 + 1, scope := 3, op := 0, int32 := false, bytes := 4, group := 0, ops := [], data := [], dsts := d, tag := 0x1C, detail := 0, out := true }

def tCd (f : Nat) : List Byte := List.replicate 9 1 ++ [0, 0, b8 f, 4, 0, 8, 0, 5, 6, 7, 8]

def tMap : List Byte := [15, 0] ++ leBytes 2 24 ++ [0x20, 0x22, 0x22, 0x22, 0x22, 0x22, 2] ++ List.replicate 245 0

theorem wit_XanikFramesAreHeldAndDelivered :
    (∃ (src : Fin 16) (s : State) (seq : BitVec 12) (d : List Byte) (y : List (BitVec 12)) (c : Instr), Calm s ∧ hears s ↑src =
      false ∧ c ∈ [Instr.farReq src seq d, Instr.farRsp src seq d, Instr.collContrib src seq d, Instr.modelStatus src seq d,
      Instr.relayReq src seq d, Instr.relayRsp src seq d, Instr.mapFrame src seq d, Instr.statusFrame src d, Instr.collResult
      src d, Instr.modelData src d, Instr.soundFrame src y]) ∧
    (∃ (src : Fin 16) (s : State) (seq : BitVec 12) (d : List Byte) (c : Instr) (k : Nat), Calm s ∧ hears s ↑src = true ∧ (c, k)
      ∈ [(Instr.farReq src seq d, 4), (Instr.farRsp src seq d, 5), (Instr.collContrib src seq d, 6), (Instr.modelStatus src seq
      d, 9), (Instr.relayReq src seq d, 10), (Instr.relayRsp src seq d, 11), (Instr.mapFrame src seq d, 12)] ∧ 64 ≤ (seq.toNat +
      4096 - (peerOf s ↑src).rxNext) % 4096) ∧
    (∃ (src : Fin 16) (s : State) (seq : BitVec 12) (d : List Byte) (c : Instr) (k : Nat), Calm s ∧ hears s ↑src = true ∧ (c, k)
      ∈ [(Instr.farReq src seq d, 4), (Instr.farRsp src seq d, 5), (Instr.collContrib src seq d, 6), (Instr.modelStatus src seq
      d, 9), (Instr.relayReq src seq d, 10), (Instr.relayRsp src seq d, 11), (Instr.mapFrame src seq d, 12)] ∧ 1 ≤ (seq.toNat +
      4096 - (peerOf s ↑src).rxNext) % 4096 ∧ (seq.toNat + 4096 - (peerOf s ↑src).rxNext) % 4096 < 64 ∧ tabGet? (peerOf s
      ↑src).held (peerOf s ↑src).rxNext = none) ∧
    (∃ (src : Fin 16) (s : State) (seq : BitVec 12) (d : List Byte), Calm s ∧ hears s ↑src = true ∧ seq.toNat = (peerOf s
      ↑src).rxNext ∧ (peerOf s ↑src).held = [] ∧ d.length = 16 ∧ leAt d 0 1 = 0 ∧ Units s 3 4 ∧ (∀ (i : Nat), i < 4 → Passes s {
        tag := 27, detail := ↑src, target := DsTarget.addr (leAt d 4 4 + 64 * i), wide := true, write := false, size := 64, data
        := [] })) ∧
    (∃ (src : Fin 16) (s : State) (seq : BitVec 12) (d : List Byte), Calm s ∧ hears s ↑src = true ∧ seq.toNat = (peerOf s
      ↑src).rxNext ∧ (peerOf s ↑src).held = [] ∧ d.length = 16 ∧ leAt d 0 1 = 0 ∧ NoUnit s 3) ∧
    (∃ (src : Fin 16) (s : State) (seq : BitVec 12) (d : List Byte), Calm s ∧ hears s ↑src = true ∧ seq.toNat = (peerOf s
      ↑src).rxNext ∧ (peerOf s ↑src).held = [] ∧ leAt d 0 1 = 1 ∧ leAt d 2 2 ∈ [1, 2, 4, 8, 64] ∧ d.length = 16 + cdiv (leAt d 2
      2) 8 * 8 ∧ Units s 3 1 ∧ Quiet s ∧ Passes s {
        tag := 27, detail := ↑src, target := DsTarget.addr (leAt d 4 4), wide := decide (leAt d 2 2 = 64), write := true, size
        := leAt d 2 2, data := List.take (leAt d 2 2) (List.drop 16 d) }) ∧
    (∃ (src : Fin 16) (s : State) (seq : BitVec 12), Calm s ∧ hears s ↑src = true ∧ seq.toNat = (peerOf s ↑src).rxNext ∧ (peerOf
      s ↑src).held = [] ∧ (∀ (w : FarWait), w ∈ s.xk.far → w.node ≠ ↑src)) ∧
    (∃ (src : Fin 16) (s : State) (seq : BitVec 12) (d : List Byte) (w : FarWait), Calm s ∧ hears s ↑src = true ∧ seq.toNat =
      (peerOf s ↑src).rxNext ∧ (peerOf s ↑src).held = [] ∧ s.xk.far = [w] ∧ w.node = ↑src ∧ w.id = some (leAt d 0 1) ∧ leAt d 1
      1 = 0 ∧ w.tag = 24 ∧ w.mode = FarMode.reply ∧ w.fill = false ∧ leAt d 0 1 < 64 ∧ d.length = 264 ∧ w.write = false) ∧
    (∃ (src : Fin 16) (s : State) (seq : BitVec 12) (d : List Byte) (w : FarWait), Calm s ∧ hears s ↑src = true ∧ seq.toNat =
      (peerOf s ↑src).rxNext ∧ (peerOf s ↑src).held = [] ∧ s.xk.far = [w] ∧ w.node = ↑src ∧ w.id = some (leAt d 0 1) ∧ leAt d 1
      1 = 0 ∧ w.tag = 24 ∧ w.mode = FarMode.reply ∧ w.fill = false ∧ 64 ≤ leAt d 0 1 ∧ d.length = 8 ∧ w.write = true) ∧
    (∃ (src : Fin 16) (s : State) (seq : BitVec 12), Calm s ∧ hears s ↑src = true ∧ seq.toNat = (peerOf s ↑src).rxNext ∧ (peerOf
      s ↑src).held = [] ∧ s.xk.net = XkNet.member) ∧
    (∃ (src : Fin 16) (s : State) (seq : BitVec 12) (d : List Byte), Calm s ∧ hears s ↑src = true ∧ seq.toNat = (peerOf s
      ↑src).rxNext ∧ (peerOf s ↑src).held = [] ∧ s.xk.net = XkNet.master ∧ s.xk.rounds = [] ∧ 16 ≤ d.length ∧ leAt d 11 1 % 2 =
      0) ∧
    (∃ (src : Fin 16) (s : State) (seq : BitVec 12) (d : List Byte) (b : BcastTx) (l : LongCmd), Calm s ∧ hears s ↑src = true ∧
      seq.toNat = (peerOf s ↑src).rxNext ∧ (peerOf s ↑src).held = [] ∧ s.xk.bcastTx = [b] ∧ b.xfer = leAt d 0 2 ∧ b.waiting =
      [↑src] ∧ tabGet? s.sup.longs b.cmd = some l ∧ (leAt d 2 1 = 2 ∨ leAt d 2 1 = 3)) ∧
    (∃ (src : Fin 16) (s : State) (seq : BitVec 12), Calm s ∧ hears s ↑src = true ∧ seq.toNat = (peerOf s ↑src).rxNext ∧ (peerOf
      s ↑src).held = [] ∧ s.xk.relayIn = [] ∧ s.xk.relayBusy = none ∧ mbFree s 7 = true) ∧
    (∃ (src : Fin 16) (s : State) (seq : BitVec 12) (q : Nat), Calm s ∧ hears s ↑src = true ∧ seq.toNat = (peerOf s ↑src).rxNext
      ∧ (peerOf s ↑src).held = [] ∧ s.xk.relayIn = [] ∧ s.xk.relayBusy = some q ∧ q ≠ ↑src) ∧
    (∃ (src : Fin 16) (s : State) (seq : BitVec 12) (k c : Nat) (l : LongCmd), Calm s ∧ hears s ↑src = true ∧ seq.toNat =
      (peerOf s ↑src).rxNext ∧ (peerOf s ↑src).held = [] ∧ s.xk.relays = [(k, ↑src, c)] ∧ tabGet? s.sup.longs k = some l) ∧
    (∃ (src : Fin 16) (s : State) (seq : BitVec 12) (d : List Byte), Calm s ∧ hears s ↑src = true ∧ seq.toNat = (peerOf s
      ↑src).rxNext ∧ (peerOf s ↑src).held = [] ∧ mapValid d = true ∧ s.xk.soundings = []) ∧
    (∃ (src : Fin 16) (s : State) (seq : BitVec 12) (d : List Byte), Calm s ∧ hears s ↑src = true ∧ seq.toNat = (peerOf s
      ↑src).rxNext ∧ (peerOf s ↑src).held = [] ∧ mapValid d = false) ∧
    (∃ (src : Fin 16) (s : State) (p : List Byte), Calm s ∧ hears s ↑src = true ∧ p.length = 128 ∧ (bitAt (leAt p (8 *
      s.xk.node) 8) 29 = true → (peerOf s ↑src).held = [])) ∧
    (∃ (src : Fin 16) (s : State) (d : List Byte), Calm s ∧ hears s ↑src = true ∧ 16 ≤ d.length ∧ (bitAt (leAt d 14 2) s.xk.node
      = false ∨ ∀ (q : CollLocal), q ∈ s.xk.colls → q.out = false ∨ q.key ≠ collKey d)) ∧
    (∃ (src : Fin 16) (s : State) (d : List Byte) (l : CollLocal) (more : List CollLocal), Calm s ∧ hears s ↑src = true ∧ 16 ≤
      d.length ∧ s.xk.colls = l :: more ∧ (¬l ∈ more) ∧ l.out = true ∧ l.key = collKey d ∧ bitAt (leAt d 14 2) s.xk.node = true
      ∧ leAt d 11 1 = 0) ∧
    (∃ (src : Fin 16) (s : State) (d : List Byte) (l : CollLocal) (more : List CollLocal) (a : Nat) (x : List Byte), Calm s ∧
      hears s ↑src = true ∧ 16 ≤ d.length ∧ s.xk.colls = l :: more ∧ (¬l ∈ more) ∧ l.out = true ∧ l.key = collKey d ∧ bitAt
      (leAt d 14 2) s.xk.node = true ∧ (leAt d 11 1 = 2 ∧ x = List.drop 16 d ∨ leAt d 11 1 = 3 ∧ l.got.length = 2048 ∧ x = l.got
      ++ List.drop 16 d) ∧ l.dsts = [a] ∧ Quiet s ∧ (∀ (q : Nat × Nat), q ∈ pieces x.length a x.length → Passes s {
        tag := l.tag, detail := l.detail, target := DsTarget.addr q.fst, wide := decide (q.snd = 64), write := true, size :=
        q.snd, data := [] })) ∧
    (∃ (src : Fin 16) (s : State) (d : List Byte), Calm s ∧ hears s ↑src = true ∧ tabGet? s.xk.bcastRx ↑src = none ∧ leAt d 4 4
      = 0 ∧ 16 < d.length ∧ d.length - 16 < leAt d 8 4) ∧
    (∃ (src : Fin 16) (s : State), Calm s ∧ (∀ (r : Nat × Nat × Nat), r ∈ s.xk.relays → r.snd.fst ≠ ↑src ∨ cyclesSince s
      r.snd.snd < 16)) ∧
    (∃ (src : Fin 16) (s : State) (k c : Nat) (l : LongCmd) (more : List (Nat × Nat × Nat)), Calm s ∧ s.xk.relays = (k, ↑src, c)
      :: more ∧ tabGet? s.sup.longs k = some l ∧ 16 ≤ cyclesSince s c) ∧
    (∃ (s : State) (b : BcastTx) (l : LongCmd), Calm s ∧ s.xk.bcastTx = [b] ∧ b.queue = [] ∧ (b.missing = [] ∨ 3 ≤ b.round) ∧ 16
      ≤ cyclesSince s b.lastCycle ∧ tabGet? s.sup.longs b.cmd = some l) ∧
    (∃ (s : State) (q : Sounding) (l : LongCmd), Calm s ∧ s.xk.soundings = [q] ∧ 8 ≤ cyclesSince s q.cycle ∧ tabGet? s.sup.longs
      q.cmd = some l) :=
  ⟨ ⟨14, tMe {}, 0, [1], [], .relayRsp 14 0 [1], by decide +kernel⟩,
    ⟨15, tMe {}, 63, [1], .mapFrame 15 63 [1], 12, by decide +kernel⟩,
    ⟨15, tMe {}, 62, [1], .mapFrame 15 62 [1], 12, by decide +kernel⟩,
    ⟨15, tUn 0x80000000, 4095, tRd16, by decide +kernel⟩,
    ⟨15, tUn 1, 4095, tRd16, by decide +kernel⟩,
    ⟨15, tUn 0x80000000, 4095, tWr, by decide +kernel⟩,
    ⟨15, tMe {}, 4095, by decide +kernel⟩,
    ⟨15, tMe { far := [tFw2 63 false] }, 4095, [63] ++ List.replicate 263 0, tFw2 63 false, by decide +kernel⟩,
    ⟨15, tMe { far := [tFw2 255 true] }, 4095, [255] ++ List.replicate 7 0, tFw2 255 true, by decide +kernel⟩,
    ⟨15, tMe {}, 4095, by decide +kernel⟩,
    ⟨15, tX { net := .master, peers := [(15, { rxNext := 4095, rxValid := true })] }, 4095, List.replicate 16 0,
      by decide +kernel⟩,
    ⟨15, tMe { bcastTx := [tBt 5] }, 4095, [7, 0, 2, 0, 0, 0, 31, 0], tBt 5, tLc, by decide +kernel⟩,
    ⟨15, tMe {}, 4095, by decide +kernel⟩,
    ⟨15, tMe { relayBusy := some 14 }, 4095, 14, by decide +kernel⟩,
    ⟨15, tMe { relays := [(3, 15, 5)] }, 4095, 3, 5, tLc, by decide +kernel⟩,
    ⟨15, tMe {}, 4095, tMap, by decide +kernel⟩,
    ⟨15, tMe {}, 4095, [1], by decide +kernel⟩,
    ⟨15, tMe {}, List.replicate 128 0, by decide +kernel⟩,
    ⟨15, tMe {}, tCd 0, by decide +kernel⟩,
    ⟨15, tMe { colls := [tCo [0]] }, tCd 0, tCo [0], [], by decide +kernel⟩,
    ⟨15, tMe { colls := [tCo [0x40]] }, tCd 2, tCo [0x40], [], 0x40, [5, 6, 7, 8], by decide +kernel⟩,
    ⟨15, tMe {}, [1, 0, 0, 0, 0, 0, 0, 0, 100, 0, 0, 0, 0, 0, 0, 0] ++ List.replicate 99 3, by decide +kernel⟩,
    ⟨15, tMe { relays := [(3, 15, 5)] }, by decide +kernel⟩,
    ⟨15, tMe { relays := [(3, 15, 4)] }, 3, 4, tLc, [], by decide +kernel⟩,
    ⟨tMe { bcastTx := [tBt 4] }, tBt 4, tLc, by decide +kernel⟩,
    ⟨tMe { soundings := [⟨3, 15, [15], 0, 12⟩] }, ⟨3, 15, [15], 0, 12⟩, tLc, by decide +kernel⟩⟩

end XanikFramesAreHeldAndDelivered

theorem wit_SpecialFunctionsAreMonotonic :
    (∃ (fn u w : Nat) (lo hi : Int), sfuTrend fn (bitAt u 31) = some (lo, hi, false) ∧ bitAt w 31 = bitAt u 31 ∧ lo ≤ fKey u ∧
      fKey u ≤ fKey w ∧ fKey w ≤ hi ∧ sfuExact fn u = none ∧ sfuExact fn w = none) ∧
    (∃ (fn u w : Nat) (lo hi : Int), sfuTrend fn (bitAt u 31) = some (lo, hi, true) ∧ bitAt w 31 = bitAt u 31 ∧ lo ≤ fKey u ∧
      fKey u ≤ fKey w ∧ fKey w ≤ hi ∧ sfuExact fn u = none ∧ sfuExact fn w = none) :=
  ⟨ ⟨0, 0x3E800000, 0x3EC00000, -0x7F800000, 0x7F800000, by decide +kernel⟩,
    ⟨3, 0x40000000, 0x40400000, 0, 0x7F800000, by decide +kernel⟩⟩

end Sys2Proof.Tests
end

section
/-! SUPPORT. Register writes (01_architecture.md): what a 32-bit and a 64-bit write do, one equation per case of the
model's order of tests, and what the access codes of a card store. -/

namespace Sys2Proof.Machine

open Sys2Proof

/-! ## Words and their bytes -/

@[simp] theorem w32_toNat (v : Word) : w32 v.toNat = v := by simp [w32]

@[simp] theorem leBytes_length (n v : Nat) : (leBytes n v).length = n := by
  induction n generalizing v with
  | zero => rfl
  | succ n ih => simp [leBytes, ih]

theorem leBytes_getD {n k : Nat} (v : Nat) (h : k < n) : (leBytes n v).getD k 0 = b8 (v / 256 ^ k) := by
  induction k generalizing n v with
  | zero => cases n with
    | zero => omega
    | succ n => simp [leBytes]
  | succ k ih => cases n with
    | zero => omega
    | succ n => rw [leBytes, List.getD_cons_succ, ih _ (by omega), Nat.div_div_eq_div_mul, Nat.pow_succ']

/-- The low four bytes of a number are those of its 32-bit word. -/
theorem b8_w32_div {k : Nat} (v : Nat) (h : k < 4) : b8 ((w32 v).toNat / 256 ^ k) = b8 (v / 256 ^ k) := by
  apply BitVec.eq_of_toNat_eq
  simp only [b8, w32, BitVec.toNat_ofNat]
  obtain rfl | rfl | rfl | rfl : k = 0 ∨ k = 1 ∨ k = 2 ∨ k = 3 := by omega
  all_goals omega

/-! ## Which writes are performed (R40, R49, R50) -/

theorem exec_registerWrite (req : Req) (off size : Nat) (v : BitVec 64) (s : State) :
    exec (.registerWrite req off size v) s = .next (settle (regWrite req off size v.toNat s)) := rfl

theorem exec_opWriteRefused (req : Req) (off : Nat) (v : Word) (s : State) :
    exec (.opWriteRefused req off v) s = .next (settle (regWrite req off 4 v.toNat s)) := rfl

theorem regWrite_wrongSize (req : Req) {off size : Nat} (v : Nat) (s : State) (hz : regSizeOk off size = false) :
    regWrite req off size v s = regViolation req 0x10 off true s := by
  simp [regWrite, hz]

theorem regWrite_denied {req : Req} {off size : Nat} (v : Nat) (s : State) (hz : regSizeOk off size = true)
    (ha : mayAccess req off true = false) : regWrite req off size v s = regDeny req off s := by
  simp [regWrite, hz, guarded, ha]

theorem regWrite_four {req : Req} {off : Nat} (v : Nat) (s : State) (ha : mayAccess req off true = true)
    (hz : regSizeOk off 4 = true) : regWrite req off 4 v s = regWrite32 req off (w32 v) s := by
  simp [regWrite, hz, guarded, ha]

theorem regWrite_eight {req : Req} {off : Nat} (v : Nat) (s : State) (ha : mayAccess req off true = true)
    (hz : regSizeOk off 8 = true) : regWrite req off 8 v s = regWrite64 req off v s := by
  simp [regWrite, hz, guarded, ha]

/-- Every requester but the DMA engine writes every register outside the mailbox and interrupt blocks (R40). -/
theorem mayAccess_outside_blocks {req : Req} {off : Nat} (hd : ∀ ch, req ≠ .dma ch) (ho : off < 0x1000 ∨ 0x3000 ≤ off) :
    mayAccess req off true = true := by
  have h1 : ¬(0x1000 ≤ off ∧ off < 0x2000) := by omega
  have h2 : ¬(0x2000 ≤ off ∧ off < 0x3000) := by omega
  have hk : blockRight req off = 3 := by
    cases req with
    | host => exact if_neg fun h => h1 ⟨h.1, h.2.1⟩
    | trestle c => exact (if_neg h1).trans (if_neg h2)
    | supA => rfl
    | supB => rfl
    | dma ch => exact absurd rfl (hd ch)
  simp [mayAccess, hk]

/-! ## A 32-bit write -/

/-- The offset lies in a mailbox's buffer window (R689). -/
abbrev InMbWindow (off : Nat) : Prop := 0x1000 ≤ off ∧ off < 0x2000 ∧ off % 0x200 < 0x100

/-- The offset lies in the MSI-X table (R722). -/
abbrev InMsixTable (off : Nat) : Prop := 0x2800 ≤ off ∧ off < 0x2C00

section
variable {req : Req} {off : Nat} (v : Word) (s : State)

theorem regWrite32_mbWindow (hw : InMbWindow off) :
    regWrite32 req off v s = mbFill ((off - 0x1000) / 0x200) (off % 0x200) (leBytes 4 v.toNat) s :=
  if_pos hw

theorem regWrite32_msix (ht : InMsixTable off) : regWrite32 req off v s = msixSet ((off - 0x2800) / 4) v s := by
  have hw : ¬InMbWindow off := by omega
  exact (if_neg hw).trans (if_pos ht)

variable {v}

theorem regWrite32_operation {f : State → State} (hw : ¬InMbWindow off) (ht : ¬InMsixTable off)
    (hf : opRegister req off v = some f) : regWrite32 req off v s = f s := by
  simp only [regWrite32, if_neg hw, if_neg ht, hf]

variable {s}

theorem regWrite32_locked (hw : ¬InMbWindow off) (ht : ¬InMsixTable off) (hf : opRegister req off v = none)
    (hl : shadowLocked s off = true) : regWrite32 req off v s = shadowRefuse off s := by
  simp only [regWrite32, if_neg hw, if_neg ht, hf, if_pos hl]

/-- A register that is no word of a staged 64-bit one is written by its card alone. -/
theorem regWrite32_card (hw : ¬InMbWindow off) (ht : ¬InMsixTable off) (hf : opRegister req off v = none)
    (hl : shadowLocked s off = false) (hlo : isStaged off = false) (hhi : ¬(4 ≤ off ∧ isStaged (off - 4) = true)) :
    regWrite32 req off v s = cardWrite (reqBank req) off v s := by
  simp only [regWrite32, if_neg hw, if_neg ht, hf, hl, hlo, Bool.false_eq_true, if_false, if_neg hhi]

end

/-! ## The access codes of a card (R15, R17, R63) -/

theorem cardWrite_none (b : Nat) {off : Nat} (v : Word) (s : State) (hc : cardAt off = none) : cardWrite b off v s = s := by
  simp only [cardWrite, hc]

theorem cardWrite_some (b : Nat) {off : Nat} {c : RegCard} (v : Word) (s : State) (hc : cardAt off = some c) :
    cardWrite b off v s = regSet (cardKey b off c) (cardStored c off (regGet s (cardKey b off c)) v) s := by
  simp only [cardWrite, hc]
  rfl

/-- A card's stores move the register table only. -/
theorem cardWrite_eq (b off : Nat) (v : Word) (s : State) : ∃ r, cardWrite b off v s = { s with regs := r } := by
  cases hc : cardAt off with
  | none => exact ⟨s.regs, cardWrite_none b v s hc⟩
  | some c => exact ⟨_, cardWrite_some b v s hc⟩

@[simp] theorem cardWrite_staging (b off : Nat) (v : Word) (s : State) : (cardWrite b off v s).staging = s.staging := by
  obtain ⟨r, h⟩ := cardWrite_eq b off v s; rw [h]

theorem cardWrite_sameStores (b off : Nat) (v : Word) {s t : State} (h : SameStores s t) :
    SameStores s (cardWrite b off v t) := by
  obtain ⟨r, e⟩ := cardWrite_eq b off v t; rw [e]; exact h

/-- The two words of a 64-bit register are kept in different places, whichever of them is banked. -/
theorem cardKey_hi_ne_lo (b off : Nat) (c c' : RegCard) : cardKey b (off + 4) c' ≠ cardKey b off c := by
  unfold cardKey bankKey
  split <;> split <;> omega

/-! ## The mailbox window (R689) -/

/-- A mailbox takes bytes as a memory does. -/
theorem foldl_zip_natsFrom (d : List Byte) (o : Nat) (m : Tab Byte) :
    (d.zip (natsFrom o d.length)).foldl (fun t e => tabPut 0 t e.2 e.1) m = cellsWrite o d m := by
  induction d generalizing o m with
  | nil => rfl
  | cons b d ih => exact ih (o + 1) (tabPut 0 m o b)

@[simp] theorem mbOf_mbMod_self (n : Nat) (f : Mailbox → Mailbox) (s : State) : mbOf (mbMod n f s) n = f (mbOf s n) := by
  simp [mbOf, mbMod]

theorem mbFill_free {s : State} {n : Nat} (o : Nat) (d : List Byte) (hf : mbFree s n = true) :
    mbFill n o d s = mbMod n (fun m => { m with req := cellsWrite o d m.req }) s := by
  simp only [mbFill, if_pos hf, foldl_zip_natsFrom]

theorem mbFill_busy {s : State} {n : Nat} (o : Nat) (d : List Byte) (hf : mbFree s n = false) :
    mbFill n o d s = regOr (mbBase n + 0x104) 0x20 s := by
  simp only [mbFill, hf, Bool.false_eq_true, if_false]

/-- A byte of the request buffer of a free mailbox after bytes were written to it. -/
theorem mbFill_req {s : State} {n : Nat} (o : Nat) (d : List Byte) (hf : mbFree s n = true) (k : Nat) :
    tabGet 0 (mbOf (mbFill n o d s) n).req k =
      if o ≤ k ∧ k < o + d.length then d.getD (k - o) 0 else tabGet 0 (mbOf s n).req k := by
  rw [mbFill_free o d hf, mbOf_mbMod_self, tabGet_cellsWrite]

/-- An offset in the window of mailbox n is a window offset, and names mailbox n. -/
theorem inMbWindow_of_range {n : Fin 8} {off : Nat} (hlo : mbBase n ≤ off) (hhi : off < mbBase n + 0x100) :
    InMbWindow off ∧ (off - 0x1000) / 0x200 = n := by
  have hn := n.isLt
  unfold mbBase at hlo hhi
  unfold InMbWindow
  omega

/-! ## A 64-bit write (R59) -/

theorem regWrite64_locked (req : Req) {off : Nat} (v : Nat) {s : State} (hs : isStaged off = true)
    (hl : shadowLocked s off = true) : regWrite64 req off v s = shadowRefuse off s := by
  simp only [regWrite64, if_pos hs, if_pos hl]

theorem regWrite64_staged (req : Req) {off : Nat} (v : Nat) {s : State} (hs : isStaged off = true)
    (hl : shadowLocked s off = false) : regWrite64 req off v s =
      cardWrite (reqBank req) (off + 4) (w32 (v / 2 ^ 32)) (cardWrite (reqBank req) off (w32 v) s) := by
  simp only [regWrite64, if_pos hs, hl, Bool.false_eq_true, if_false]

theorem regWrite64_other (req : Req) {off : Nat} (v : Nat) (s : State) (hs : isStaged off = false) :
    regWrite64 req off v s = regWrite32 req (off + 4) (w32 (v / 2 ^ 32)) (regWrite32 req off (w32 v) s) := by
  simp only [regWrite64, hs, Bool.false_eq_true, if_false]

/-- Both words of a 64-bit register written by their cards: each holds what its card stores over its own old value. -/
theorem regGet_cardWrite_pair (b : Nat) {off : Nat} {c c' : RegCard} (lo hi : Word) (s : State) (hc : cardAt off = some c)
    (hc' : cardAt (off + 4) = some c') (o : Nat) :
    regGet (cardWrite b (off + 4) hi (cardWrite b off lo s)) o =
      if o = cardKey b (off + 4) c' then cardStored c' (off + 4) (regGet s (cardKey b (off + 4) c')) hi
      else if o = cardKey b off c then cardStored c off (regGet s (cardKey b off c)) lo else regGet s o := by
  rw [cardWrite_some b hi _ hc', cardWrite_some b lo _ hc, regGet_regSet_other s _ (cardKey_hi_ne_lo b off c c'),
    regGet_regSet, regGet_regSet]

/-! ## REGISTER_WRITE, case by case -/

section
variable {req : Req} {off : Nat} (v : BitVec 64) {s : State} (ha : mayAccess req off true = true)
include ha

/-- A 32-bit write outside the mailbox windows and the MSI-X table: an operation, a refusal, or the card's stores. -/
theorem registerWrite_word_outside_windows (hz : regSizeOk off 4 = true) (hw : ¬InMbWindow off) (ht : ¬InMsixTable off) :
    (∀ f, opRegister req off (w32 v.toNat) = some f → exec (.registerWrite req off 4 v) s = .next (settle (f s))) ∧
    ((opRegister req off (w32 v.toNat)).isNone = true → shadowLocked s off = true →
      exec (.registerWrite req off 4 v) s = .next (settle (shadowRefuse off s))) ∧
    ((opRegister req off (w32 v.toNat)).isNone = true → shadowLocked s off = false → isStaged off = false →
      ¬(4 ≤ off ∧ isStaged (off - 4) = true) →
      (∀ c : RegCard, cardAt off = some c → exec (.registerWrite req off 4 v) s = .next (settle
        (regSet (cardKey (reqBank req) off c)
          (cardStored c off (regGet s (cardKey (reqBank req) off c)) (w32 v.toNat)) s))) ∧
      (cardAt off = none → exec (.registerWrite req off 4 v) s = .next (settle s))) := by
  rw [exec_registerWrite, regWrite_four _ s ha hz]
  refine ⟨fun f hf => ?_, fun hf hl => ?_, fun hf hl hlo hhi => ?_⟩
  · rw [regWrite32_operation s hw ht hf]
  · rw [regWrite32_locked hw ht (Option.isNone_iff_eq_none.1 hf) hl]
  · rw [regWrite32_card hw ht (Option.isNone_iff_eq_none.1 hf) hl hlo hhi]
    exact ⟨fun c hc => by rw [cardWrite_some _ _ s hc], fun hc => by rw [cardWrite_none _ _ s hc]⟩

theorem registerWrite_word_msix (hz : regSizeOk off 4 = true) (ht : InMsixTable off) :
    exec (.registerWrite req off 4 v) s = .next (settle (msixSet ((off - 0x2800) / 4) (w32 v.toNat) s)) := by
  rw [exec_registerWrite, regWrite_four _ s ha hz, regWrite32_msix _ s ht]

/-- The window of a free mailbox takes the four bytes of the word, and its other bytes stay. -/
theorem registerWrite_word_free_mailbox (hz : regSizeOk off 4 = true) {n : Fin 8} (hlo : mbBase n ≤ off)
    (hhi : off < mbBase n + 0x100) (hf : mbFree s n = true) :
    ∃ t, exec (.registerWrite req off 4 v) s = .next t ∧ t.regs = s.regs ∧
      (∀ k : Fin 4, tabGet 0 (mbOf t n).req (off % 0x200 + k) = b8 (v.toNat / 256 ^ k.val)) ∧
      ∀ k, k < off % 0x200 ∨ off % 0x200 + 4 ≤ k → tabGet 0 (mbOf t n).req k = tabGet 0 (mbOf s n).req k := by
  obtain ⟨hw, hn⟩ := inMbWindow_of_range hlo hhi
  refine ⟨_, exec_registerWrite req off 4 v s, ?_⟩
  have hset : ∀ t, mbOf (settle t) n = mbOf t n := fun t => by simp only [mbOf, settle_mboxes]
  rw [regWrite_four _ s ha hz, regWrite32_mbWindow _ s hw, hn, settle_regs, hset]
  refine ⟨?_, fun k => ?_, fun k hk => ?_⟩
  · rw [mbFill_free _ _ hf, mbMod_regs]
  · have hk := k.isLt
    rw [mbFill_req _ _ hf, leBytes_length, if_pos (by omega), Nat.add_sub_cancel_left, leBytes_getD _ hk, b8_w32_div _ hk]
  · rw [mbFill_req _ _ hf, leBytes_length, if_neg (by omega)]

theorem registerWrite_word_busy_mailbox (hz : regSizeOk off 4 = true) {n : Fin 8} (hlo : mbBase n ≤ off)
    (hhi : off < mbBase n + 0x100) (hf : mbFree s n = false) :
    exec (.registerWrite req off 4 v) s = .next (settle (regOr (mbBase n + 0x104) 0x20 s)) := by
  obtain ⟨hw, hn⟩ := inMbWindow_of_range hlo hhi
  rw [exec_registerWrite, regWrite_four _ s ha hz, regWrite32_mbWindow _ s hw, hn, mbFill_busy _ _ hf]

/-- A 64-bit write of a 64-bit RW register stores both words at once and passes the staging word. -/
theorem registerWrite_dword_staged (hz : regSizeOk off 8 = true) {c c' : RegCard} (hs : isStaged off = true)
    (hl : shadowLocked s off = false) (hc : cardAt off = some c) (hc' : cardAt (off + 4) = some c') :
    ∃ t, exec (.registerWrite req off 8 v) s = .next t ∧ t.staging = s.staging ∧ SameStores s t ∧
      regGet t (cardKey (reqBank req) off c) =
        cardStored c off (regGet s (cardKey (reqBank req) off c)) (w32 v.toNat) ∧
      regGet t (cardKey (reqBank req) (off + 4) c') = cardStored c' (off + 4)
        (regGet s (cardKey (reqBank req) (off + 4) c')) (w32 (v.toNat / 2 ^ 32)) ∧
      ∀ o, o ≠ cardKey (reqBank req) off c → o ≠ cardKey (reqBank req) (off + 4) c' → regGet t o = regGet s o := by
  have hne := cardKey_hi_ne_lo (reqBank req) off c c'
  refine ⟨_, exec_registerWrite req off 8 v s, ?_⟩
  rw [regWrite_eight _ s ha hz, regWrite64_staged req _ hs hl]
  simp only [regGet_settle, regGet_cardWrite_pair _ _ _ s hc hc']
  refine ⟨?_, ?_, ?_, if_pos trivial, fun o h h' => ?_⟩
  · simp
  · simpa [SameStores] using cardWrite_sameStores _ _ _ (cardWrite_sameStores _ _ _ (t := s) ⟨rfl, rfl, rfl, rfl, rfl⟩)
  · exact (if_neg hne.symm).trans (if_pos trivial)
  · rw [if_neg h', if_neg h]

end

/-- Settles O5: the cases of `regWrite` in the model's order. That the size is judged before the rights, and that a 64-bit
write of other registers is its two 32-bit writes, is how log entry 15 reads R49 and R50. -/
theorem registerWriteByAccessCodes : Obligations.RegisterWriteByAccessCodes := by
  intro req off v s
  refine ⟨fun size hz => ?_, fun size hz ha => ?_, fun ha hz => ⟨?_, ?_, fun n hlo hhi => ⟨?_, ?_⟩⟩,
    fun ha hz => ⟨?_, ?_, ?_⟩⟩
  · rw [exec_registerWrite, regWrite_wrongSize req _ s hz]
  · rw [exec_registerWrite, regWrite_denied _ s hz ha]
  · exact registerWrite_word_outside_windows v ha hz
  · exact fun h1 h2 => registerWrite_word_msix v ha hz ⟨h1, h2⟩
  · exact registerWrite_word_free_mailbox v ha hz hlo hhi
  · exact registerWrite_word_busy_mailbox v ha hz hlo hhi
  · exact fun c c' => registerWrite_dword_staged v ha hz
  · intro hs hl
    rw [exec_registerWrite, regWrite_eight _ s ha hz, regWrite64_locked req _ hs hl]
  · intro hs
    rw [exec_registerWrite, regWrite_eight _ s ha hz, regWrite64_other req _ s hs]

/-! ## Reserved operations (R18, R64) -/

theorem semOpWrite_reserved (req : Req) {v : Word} (s : State) (hv : 5 ≤ fieldOf v 28 4) :
    semOpWrite req v s = semFailed (reqBank req) s := by
  obtain ⟨k, hk⟩ : ∃ k, fieldOf v 28 4 = k + 5 := ⟨fieldOf v 28 4 - 5, by omega⟩
  simp only [semOpWrite, hk]

theorem bkOpWrite_reserved (req : Req) (ring : Nat) {v : Word} (s : State) (hv : 7 ≤ fieldOf v 28 4) :
    bkOpWrite req ring v s = bkResult (reqBank req) ring false 8 s :=
  if_pos hv

theorem rangeOpWrite_reserved (req : Req) (far : Bool) {v : Word} (s : State) (hgo : bitAt v.toNat 31 = true)
    (hv : 4 ≤ fieldOf v 0 3 ∨ fieldOf v 4 2 = 3) :
    rangeOpWrite req far v s = rgRefuse (reqBank req) (if far then 0x230 else 0x124) s := by
  simp only [rangeOpWrite, hgo, Bool.not_true, Bool.false_eq_true, if_false, if_pos hv]

theorem opRegister_bkOp (req : Req) (r : Fin 128) (v : Word) :
    opRegister req (0x10020 + 0x200 * r) v = some (bkOpWrite req r v) := by
  have hr := r.isLt
  have hq : (0x10020 + 0x200 * r.val - 0x10000) / 0x200 = r := by omega
  simp (disch := omega) only [opRegister, if_neg, if_pos, hq]

/-- A write to an operation register, by a requester with access, starts what the value names. -/
theorem opWriteRefused_operation {req : Req} {off : Nat} {v : Word} {f : State → State} (s : State)
    (hd : ∀ ch, req ≠ .dma ch) (ho : off < 0x1000 ∨ 0x3000 ≤ off) (hz : regSizeOk off 4 = true)
    (hf : opRegister req off v = some f) : exec (.opWriteRefused req off v) s = .next (settle (f s)) := by
  rw [exec_opWriteRefused, regWrite_four _ s (mayAccess_outside_blocks hd ho) hz, w32_toNat,
    regWrite32_operation s (by omega) (by omega) hf]

/-- Settles O9: each of the four registers is an operation register, and its operation answers a reserved encoding with a
refusal. That a refused GO keeps DONE of the result register is log entry 39. -/
theorem reservedOperationIsRefused : Obligations.ReservedOperationIsRefused := by
  intro req v s hd
  refine ⟨fun hv => ?_, fun r hv => ?_, fun hgo hv => ⟨?_, ?_⟩⟩
  · rw [opWriteRefused_operation s hd (by decide) (by decide) (f := semOpWrite req v) rfl, semOpWrite_reserved req s hv]
  · have hz : regSizeOk (0x10020 + 0x200 * r) 4 = true := by
      simp only [regSizeOk, beq_self_eq_true, Bool.true_or, Bool.true_and, beq_iff_eq]
      omega
    rw [opWriteRefused_operation s hd (by omega) hz (opRegister_bkOp req r v), bkOpWrite_reserved req r s hv]
  · rw [opWriteRefused_operation s hd (by decide) (by decide) (f := rangeOpWrite req false v) rfl,
      rangeOpWrite_reserved req false s hgo hv]
    rfl
  · rw [opWriteRefused_operation s hd (by decide) (by decide) (f := rangeOpWrite req true v) rfl,
      rangeOpWrite_reserved req true s hgo hv]
    rfl

end Sys2Proof.Machine
end
